-- ==== Sys2Proof/Word.lean ====
section
/-! DEFINITION. Sys2Proof/Word.lean: the word types of the model and the numbers of units that the command
operands range over (R3, R11, Table SC-1). A unit number is a `Fin`, so a command cannot name a unit that the module
does not have. -/
namespace Sys2Proof

abbrev Byte := BitVec 8
abbrev W16 := BitVec 16
abbrev W32 := BitVec 32
abbrev W64 := BitVec 64
abbrev W128 := BitVec 128
abbrev W256 := BitVec 256
abbrev W512 := BitVec 512
abbrev W1024 := BitVec 1024

/-- Global Tuft number, Meadow × 128 + Sward × 8 + Tuft (R3). -/
abbrev TuftNo := Fin 1024
/-- Meadow 0–7 (R11). -/
abbrev MeadowNo := Fin 8
/-- Meadow × 16 + logical Sward (R500). -/
abbrev SwardNo := Fin 128
/-- Hayloft die, its memory stack and its coherence home (R11, R262). -/
abbrev HomeNo := Fin 16
/-- Die of any kind, numbered as the register windows of R260 (R11). -/
abbrev DieNo := Fin 29
/-- Hart of the application cores, 0–95 (R340). -/
abbrev HartNo := Fin 96
/-- Electrical link of the Loam (Table DD-1). -/
abbrev LinkNo := Fin 41
/-- Optical ring of the Loam (Table DD-2). -/
abbrev RingNo := Fin 4
/-- Tensor port (R411). -/
abbrev PortNo := Fin 16
/-- Ethernet port (R440). -/
abbrev EthNo := Fin 4
/-- Translation unit: Meadows 0–7, 8 the west and 9 the east I/O die (R320). -/
abbrev UnitNo := Fin 10
/-- Physical address of 52 bits (R258). -/
abbrev PA := BitVec 52
/-- Virtual address of 57 bits (R312). -/
abbrev VA := BitVec 57

end Sys2Proof
end

