-- ==== Sys2Proof/Syntax.lean ====
section
/-! DEFINITION. Sys2Proof/Syntax.lean: the commands and events of the module, one constructor of `Instr` for each row of
spec/opcode_table.json, and the operands they carry. -/
namespace Sys2Proof

/-- The door an Obiolo command came through (R389): a submission queue or a Lark slot. -/
inductive Door where
  | sq (q : Fin 256)
  | lark (s : Fin 64)
  deriving DecidableEq, Repr

/-- An Obiolo command as the control processor executes it: its door and its words, header first (Table CF-2). -/
structure Cmd where
  door : Door
  words : List W64
  deriving DecidableEq, Repr

/-- Atomic operations of Table TG-5. -/
inductive AtomOp where
  | add | min | max | and | or | xor | exch | cas
  deriving DecidableEq, Repr

/-- Operand types of Table TG-5. -/
inductive AtomTy where
  | u32 | s32 | b32 | fp32 | u64 | s64 | b64 | fp64
  deriving DecidableEq, Repr

/-- A line's data with a poison bit for each of its four sectors (R293). -/
structure LineData where
  data : W1024
  poison : BitVec 4 := 0
  deriving DecidableEq, Repr

/-- A masked write to a line: bit i of `mask` writes byte i. -/
structure LineWrite where
  data : W1024
  mask : W128
  poison : BitVec 4 := 0
  deriving DecidableEq, Repr

/-- What an NcWr carries: byte-masked sectors, or an atomic operation at a byte offset of the line (Table CO-2). -/
inductive NcWrite where
  | bytes (w : LineWrite)
  | atomic (op : AtomOp) (ty : AtomTy) (off : BitVec 7) (operand cmp : W64)
  deriving DecidableEq, Repr

/-- Temperature bands of a stack (Table MS-5): up to 85 °C, 85–95, 95–105, above 105; `cool` is below 100 °C. -/
inductive StackBand where
  | upTo85 | upTo95 | upTo100 | upTo105 | above105
  deriving DecidableEq, Repr

/-- An instruction of a thread group as it issues (R190, R191, R197): Tuft, group, its word and the word after it, the pipe it
goes to where its class leaves a choice, whether it comes in the Tuft step of the instruction before it, the other groups
that are ready on its pipe, and whether its OP is one its class reserves (the spec does not number the operations). Log entry 142. -/
structure Issue where
  tuft : TuftNo
  group : W16
  word : W64
  word2 : W64 := 0
  pipeB : Bool := false
  dual : Bool := false
  ready : List W16 := []
  opReserved : Bool := false
  deriving DecidableEq, Repr

/-- Integer and scalar operations. The spec gives the classes and no OP codes, so the operation is named (log entry 20);
`other` is any further operation, whose result is a free value, `reserved` a reserved OP or MOD. -/
inductive IntOp where
  | add | sub | mul | and | or | xor | shl | shr | sar | minS | minU | maxS | maxU | mov | other | reserved
  deriving DecidableEq, Repr

/-- Floating-point operations of class 0x1. -/
inductive FpOp where
  | add | mul | fma | min | max | div | sqrt | rcp | reserved
  deriving DecidableEq, Repr

/-- A rounding override in MOD. -/
inductive RndMod where
  | task | rne | rz | rd | ru | sr
  deriving DecidableEq, Repr

/-- Formats of a conversion. -/
inductive CvtFmt where
  | fp32 | fp64 | xf16 | xf8a | xf8b | xi8 | s32 | s64
  deriving DecidableEq, Repr

/-- Operations of class 0x2. -/
inductive CvtOp where
  | convert (src dst : CvtFmt) (rnd : RndMod)
  | laneId | groupId | tuftInTask | tuftNo
  | timer
  | reserved
  deriving DecidableEq, Repr

inductive CmpRel where
  | eq | ne | lt | le | gt | ge
  deriving DecidableEq, Repr

inductive CmpTy where
  | s32 | u32 | s64 | u64 | fp32 | fp64
  deriving DecidableEq, Repr

/-- Operations of class 0x3: a compare into a predicate, or logic on predicates. -/
inductive CmpOp where
  | cmp (rel : CmpRel) (ty : CmpTy)
  | and | or | xor | andn
  | reserved
  deriving DecidableEq, Repr

/-- Branches of class 0x4 with the target their words encode. -/
inductive BrOp where
  | jump (target : VA)
  | call (target : VA)
  | ret
  | reserved
  deriving DecidableEq, Repr

/-- A load or store of 2^size bytes for each lane. -/
structure MemMod where
  store : Bool
  size : Fin 5
  signed : Bool := false
  deriving DecidableEq, Repr

/-- An atomic: space, operation, type, whether it returns the old value. -/
structure AtomMod where
  global : Bool
  op : AtomOp
  ty : AtomTy
  ret : Bool
  deriving DecidableEq, Repr

/-- Rails of Table EM-1 in the order in which they rise (R560). -/
inductive Rail where
  | aux | io | laser | stk1 | stk2 | vddq | hay | meadow | tuft | core
  deriving DecidableEq, Repr

/-- What a rail feeds: a Sward, or a die (a stack counts as its Hayloft die). -/
inductive FedUnit where
  | sward (s : SwardNo)
  | die (d : DieNo)
  deriving DecidableEq, Repr

/-- Receivers of a die-down message (R469). -/
inductive DownTo where
  | home (h : HomeNo)
  | cp
  | die (d : DieNo)
  deriving DecidableEq, Repr

/-- Test access ports (Table DD-7). -/
inductive TapId where
  | module
  | loam
  | die (d : Fin 28)
  deriving DecidableEq, Repr

/-- Instructions of a test access port (R477); `select` selects the die for scan. -/
inductive TapOp where
  | bypass | idcode | sample | extest | intest | internal | select
  deriving DecidableEq, Repr

/-- Outcomes inside a start (R527): a step that fails with the unit it names and its own code (zero for 0x0709), images
rejected (type, bank B, code), dies that fail their self-test, Tufts that fail the short known-answer test, the outcome of the
targeted tests of pending records (RECORD_ID, passes, way of a slice location; a record not listed passes), flash regions of
Table SB-2 whose record fails its CRC, whether lanes, channels and lasers that failed before pass the retest of a cold
start. -/
structure StartIn where
  fail : Option (Nat × Nat × Nat) := none
  images : List (Fin 8 × Bool × W16) := []
  dies : List DieNo := []
  kat : List (TuftNo × List (Bool × BitVec 7) × Bool) := []
  verdicts : List (Nat × Bool × Fin 16 × List (Bool × BitVec 7)) := []
  flash : List (Fin 9) := []
  retestOk : Bool := true
  deriving DecidableEq, Repr

/-- Arithmetic instructions of the F and D extensions (R343). -/
inductive CoreFpOp where
  | add | sub | mul | div | sqrt | madd | msub | nmsub | nmadd | min | max | eq | lt | le
  deriving DecidableEq, Repr

/-- Control and status registers of a core that its rules name: time, counters, fcsr, misa, satp, the supervisor comparator
(R341, R343, R350, R351), and of an interrupt file, M-level or S-level, its delivery, threshold and enable registers and its topmost
interrupt (R352). -/
inductive CoreCsr where
  | time | cycle | instret | mcycle | minstret | fcsr | misa | satp | stimecmp
  | eidelivery (m : Bool) | eithreshold (m : Bool) | eie (m : Bool) (id : Fin 256) | topei (m : Bool)
  deriving DecidableEq, Repr

/-- Instructions of a core that its rules describe beside memory accesses: F and D arithmetic by register numbers, conversions to and
from integers of 32 or 64 bits and between singles and doubles, moves between the register files, reads and writes of a CSR. -/
inductive CoreInsn where
  | fp (op : CoreFpOp) (dbl : Bool) (rm : Fin 8) (rd ra rb rc : Fin 32)
  | toInt (dbl wide uns : Bool) (rm : Fin 8) (ra : Fin 32)
  | fromInt (dbl wide uns : Bool) (rm : Fin 8) (rd : Fin 32)
  | toDouble (rd ra : Fin 32)
  | toSingle (rm : Fin 8) (rd ra : Fin 32)
  | moveIn (dbl : Bool) (rd : Fin 32)
  | moveOut (dbl : Bool) (ra : Fin 32)
  | csrRead (c : CoreCsr)
  | csrWrite (c : CoreCsr)
  deriving DecidableEq, Repr

/-- Accesses of a core (R341); a fetch of one of the instructions above also performs it, its integer operand the command's data. -/
inductive CoreAcc where
  | load | store | fetch
  | insn (i : CoreInsn)
  deriving DecidableEq, Repr

/-- Atomic memory operations of a core (R346). -/
inductive CoreAmo where
  | swap | add | and | or | xor | min | max | minu | maxu | lr | sc
  deriving DecidableEq, Repr

/-- What the host does to the MSI-X state (R378): unmask a vector, enable MSI-X, set Bus Master Enable. -/
inductive MsixAct where
  | vector (v : Fin 256)
  | enable
  | busMaster
  deriving DecidableEq, Repr

/-- What a neighbour module reports while a link trains (R419). -/
structure NbrIdent where
  heath : Byte
  plane : Fin 9
  y : Fin 4
  z : Fin 4
  spare : Fin 9
  part : W16
  deriving DecidableEq, Repr

/-- A message on the ordinary network to a queue pair: `len` bytes of value `val`; a member's fields and data of a network
collective. -/
inductive NetMsg where
  | write (va : VA) (len val : Nat)
  | read (va : VA) (len : Nat)
  | send (len val : Nat)
  | readData (len val : Nat)
  | ack
  | refused
  | coll (group : W32) (member : Fin 64) (fields : List W64) (val : Nat)
  deriving DecidableEq, Repr

/-- What the power controller measures in a cap loop (R490): input power over 10 µs and over 1 ms, whether the cap has been
exceeded by more than 10 % for 1 ms, the fixed draw, the power of Meadows, Hayloft dies and host dies, and for Swards the
demand and the setpoint and duty that hold the budget. -/
structure CapIn where
  input : W16
  mean : W16
  aboveCap : Bool
  fixed : W16
  meadows : W16
  hayloft : W16
  hosts : W16
  swards : List (SwardNo × W16 × BitVec 10 × Fin 8) := []
  deriving DecidableEq, Repr

/-- What a network chunk comes from: the parent node, or storage. -/
inductive ChunkFrom where
  | node (n : Fin 4096)
  | store
  deriving DecidableEq, Repr


/-- One command or event of the block, one constructor for each row of spec/opcode_table.json. -/
inductive Instr where
  | nop (c : Cmd)
  | sliceMissFill (pa : PA) (sector : BitVec 2)
  | ctrlAgePromote (h : HomeNo) (request : Nat)
  | hayWayCleanDone (h : HomeNo)
  | stackTempBandChange (h : HomeNo) (band : StackBand)
  | thermHoldTimeout (h : HomeNo)
  | dramCorrectedError (pa : PA)
  | memoryUncorrectable (pa : PA) (inSlice : Bool)
  | patrolScrubRead (h : HomeNo) (corrected uncorrectable : Bool)
  | dramRowTestDone (pa : PA) (passes : Bool) (badSectors corrected : W64)
  | hayloftLocationTestDone (pa : PA) (way : Fin 16) (passes : Bool)
  | hayWayPowerUpDone (h : HomeNo)
  | rds (pa : PA) (a : Fin 10)
  | rdx (pa : PA) (a : Fin 10)
  | upg (pa : PA) (a : Fin 10)
  | ncrd (pa : PA) (port : Fin 12) (sectors : BitVec 4)
  | ncwr (pa : PA) (port : Fin 12) (w : NcWrite)
  | wbm (pa : PA) (a : Fin 10) (d : LineData) (dirty : BitVec 4)
  | wbc (pa : PA) (a : Fin 10)
  | evs (pa : PA) (a : Fin 10)
  | rsps (pa : PA) (a : Fin 10)
  | rspi (pa : PA) (a : Fin 10) (wbp : Bool)
  | rspsd (pa : PA) (a : Fin 10) (d : LineData)
  | rspid (pa : PA) (a : Fin 10) (d : LineData)
  | cmpack (pa : PA) (a : Fin 10)
  | sliceAccessDone (pa : PA)
  | homeTimeout (pa : PA)
  | dirEccError (h : HomeNo) (set : Fin 32768) (way : Fin 16)
  | snps (a : Fin 10) (pa : PA)
  | snpi (a : Fin 10) (pa : PA)
  | datas (a : Fin 10) (pa : PA)
  | datax (a : Fin 10) (pa : PA)
  | gntx (a : Fin 10) (pa : PA)
  | ncdata (port : Fin 12) (pa : PA)
  | ncack (port : Fin 12) (pa : PA)
  | nack (port : Fin 12) (pa : PA)
  | nackResend (port : Fin 12) (pa : PA)
  | wback (a : Fin 10) (pa : PA)
  | cacheLoad (a : Fin 10) (pa : PA)
  | cacheStore (a : Fin 10) (pa : PA) (w : LineWrite)
  | cacheEvict (a : Fin 10) (pa : PA)
  | hostD2hResponse (pa : PA) (d : Option LineData)
  | cxlMemRead (pa : PA) (mayModify : Bool)
  | cxlMemWrite (pa : PA) (w : LineWrite)
  | hostCacheSnoop (addr : W64)
  | matrixIssue (i : Issue)
  | mxOpStart (t : TuftNo) (quad : Fin 4)
  | shadowLoadDone (t : TuftNo) (quad : Fin 4)
  | mxOpComplete (t : TuftNo) (quad : Fin 4) (waited : W32)
  | mxModeChange (t : TuftNo)
  | mxCheckFail (t : TuftNo) (quad : Fin 4) (parity : Bool)
  | footHandover (t : TuftNo) (quad : Fin 4) (waited : W32)
  | chainIssue (i : Issue)
  | chainStart (t : TuftNo)
  | chainComplete (t : TuftNo) (inWait waited : W32)
  | veCheckFail (t : TuftNo) (lane : Fin 64)
  | groupLaunch (t : TuftNo)
  | integerOp (i : Issue) (op : IntOp) (wide : Bool)
  | fpOp (i : Issue) (op : FpOp) (dbl : Bool) (rnd : RndMod)
  | convertOp (i : Issue) (op : CvtOp)
  | compareOp (i : Issue) (op : CmpOp)
  | scalarOp (i : Issue) (op : IntOp) (wide : Bool)
  | branch (i : Issue) (op : BrOp)
  | threadExit (i : Issue)
  | join (i : Issue)
  | barW (i : Issue)
  | tuftStoreAccess (i : Issue) (m : MemMod)
  | globalAccess (i : Issue) (m : MemMod)
  | atomic (i : Issue) (m : AtomMod)
  | fence (i : Issue) (reserved : Bool)
  | barArrive (i : Issue) (sward : Bool) (idx : Fin 16)
  | barSync (i : Issue) (sward : Bool) (idx : Fin 16)
  | arvSet (i : Issue)
  | arvAdd (i : Issue)
  | arvRead (i : Issue)
  | arvWait (i : Issue)
  | acpyD (i : Issue)
  | acpyL (i : Issue) (size : Fin 5)
  | acpyLComplete (t : TuftNo) (nth : Fin 64)
  | routerIssue (i : Issue)
  | ifetchLineFill (t : TuftNo) (group : W16)
  | rfEccError (t : TuftNo) (group : W16) (reg : Fin 256) (lane : Fin 32) (corrected : Bool)
  | inputPowerApplied
  | inputPowerLost
  | railPowerGood
  | railStartTimeout
  | regulatorOvervoltage (r : Rail) (u : FedUnit)
  | regulatorFaultRestart
  | coldStart (i : StartIn)
  | warmStart (i : StartIn)
  | recoveryStart (i : StartIn)
  | pllLockLost
  | timerSync (d : DieNo) (drift : Int)
  | stepRateWindow (u : Fin 148) (steps expected : W32) (budgetOk : Bool)
  | railBelowRetention (u : FedUnit)
  | loamFrameReceive (l : LinkNo) (ba : Bool) (frame : Nat) (src : DieNo) (crcOk : Bool)
  | loamFrameAck (l : LinkNo) (ba : Bool) (frame : Nat)
  | loamLaneError (l : LinkNo) (ba : Bool) (lane : Fin 136)
  | loamHandshakeTimeout (l : LinkNo) (ba : Bool) (lane : Fin 136)
  | loamLaneTestDone (l : LinkNo) (ba : Bool) (lane : Fin 136) (ok : Bool)
  | linkMoveComplete (l : LinkNo)
  | opticalChannelError (r : RingNo) (d : Fin 28) (ch : Fin 34)
  | opticalChannelTestDone (r : RingNo) (d : Fin 28) (ch : Fin 34) (ok : Bool)
  | laserFail (r : RingNo)
  | phyRefLost (d : DieNo)
  | dieDownMessage (dest : DownTo) (d : DieNo)
  | westDieLost
  | tapInstruction (tap : TapId) (op : TapOp)
  | testResetAssert
  | svcCableInsert
  | svcCableRemove
  | taskStart
  | taskComplete (t : TuftNo)
  | poolWatchdogExpire (cmd : Bool) (id : Nat)
  | storeEccError (t : TuftNo) (off : W32) (pool corrected : Bool)
  | copy (entry : Nat) (reply : Nat) (poisoned : List Nat) (refused : Bool)
  | fill (entry : Nat) (refused : Bool)
  | dispatch (entry : Nat) (fresh : Bool) (refused : Bool)
  | combine (entry : Nat) (reply : List (Nat × List Nat)) (refused : Bool)
  | copyEntryComplete (entry : Nat)
  | copyCheckFail (entry : Nat)
  | remoteBurstArrive (u : UnitNo) (source burst : Nat) (va : VA) (len val : Nat) (poisoned : List Nat) (read : Bool)
  | dispatchCountMessage (rank meadow order buf round : Nat) (counts : List (Nat × Nat)) (fresh last : Bool)
  | dispatchSegmentAnswer (entry expert start : Nat)
  | routerInvocationStart (m : MeadowNo)
  | routerInvocationComplete (m : MeadowNo)
  | residencyHint (sw : SwardNo) (region : Fin 16) (unit : Fin 4096)
  | unitStageComplete (sw : SwardNo) (region : Fin 16) (unit : Fin 4096)
  | unitLiftStart (sw : SwardNo) (region : Fin 16) (unit : Fin 4096)
  | unitLiftComplete (sw : SwardNo) (region : Fin 16) (unit : Fin 4096)
  | tableWalkDone (u : UnitNo) (sward : Fin 16) (tuft : TuftNo) (agent : Fin 7) (va : VA) (r w x prefetch : Bool)
  | faultWatchdogExpire (u : UnitNo) (place : Fin 3) (fault nth : Nat)
  | invalUnitReport (u : UnitNo)
  | map (c : Cmd)
  | invalidateUnmap (c : Cmd)
  | invalidateProtect (c : Cmd)
  | invalidateRemap (c : Cmd)
  | resolveRetry (c : Cmd)
  | resolveFail (c : Cmd)
  | prefetchToDevice (c : Cmd)
  | prefetchToHost (c : Cmd)
  | advise (c : Cmd)
  | coreMemoryAccess (h : HartNo) (pa : PA) (acc : CoreAcc) (size : Fin 4) (data : W64)
  | coreAmo (h : HartNo) (pa : PA) (op : CoreAmo) (dbl : Bool) (data : W64)
  | cboZero (h : HartNo) (pa : PA)
  | cboClean (h : HartNo) (pa : PA)
  | cboFlush (h : HartNo) (pa : PA)
  | cboInval (h : HartNo) (pa : PA)
  | coreTimerInterrupt (h : HartNo) (supervisor : Bool) (cmp : W64)
  | coreRuntimeWatchdog (d : Fin 2)
  | evRouteWrite (c : Cmd)
  | hostLinkUp (speed : Fin 7) (width : Fin 17)
  | hostLinkRetrain (speed : Fin 7) (width : Fin 17)
  | hostLinkLoss (configReset : Bool)
  | doorbell (q : Fin 256) (word : W32)
  | sqEntryFetch (host : List W64)
  | entryReread (door : Door) (host : List W64)
  | larkRequestWrite (slot : Fin 64) (off : Fin 32) (words : List W64)
  | larkGo
  | bar2Access (off : BitVec 41) (write : Bool) (len val : Nat) (poisoned : Bool)
  | ecamAccess (bus : Fin 16) (fn : Fin 256) (off : Fin 1024) (write : Option W32) (reply : Option W32)
  | inboundDma (addr : W64) (write : Bool) (len val : Nat) (poisoned : Bool)
  | outboundReadCompletion (tag : Nat) (val : Nat) (refused : Bool)
  | completionTimeout (tag : Nat)
  | msixUnmask (a : MsixAct)
  | hlRpInwinWrite (c : Cmd)
  | registerWrite (off : BitVec 26) (len : Nat) (val : W64)
  | cqHeadWrite (q : Fin 64) (head : W16)
  | eqHeadWrite (head : W16)
  | fqHeadWrite (head : BitVec 13)
  | hayCtrlWrite (c : Cmd)
  | coCtrlWrite (c : Cmd)
  | atCtrlWrite (c : Cmd)
  | obCtrlWrite (c : Cmd)
  | mgCtrlWrite (c : Cmd)
  | query (c : Cmd)
  | sqConfig (c : Cmd)
  | cqConfig (c : Cmd)
  | eqConfig (c : Cmd)
  | regRead (c : Cmd)
  | regWrite (c : Cmd)
  | cfgRead (c : Cmd)
  | cfgWrite (c : Cmd)
  | jobCreate (c : Cmd)
  | jobDestroy (c : Cmd)
  | graphSubmit (c : Cmd)
  | graphCancel (c : Cmd)
  | seqOpen (c : Cmd)
  | seqClose (c : Cmd)
  | bufCreate (c : Cmd)
  | bufFree (c : Cmd)
  | regionArm (c : Cmd)
  | regionQuiesce (c : Cmd)
  | regionRelease (c : Cmd)
  | biasSetToHost (c : Cmd)
  | biasSetToDevice (c : Cmd)
  | coresStart (c : Cmd)
  | hostDieReset (c : Cmd)
  | dirRead (c : Cmd)
  | cpFault
  | cpWatchdogExpire
  | cpRestartDone
  | tensorLinkTrained (p : PortNo) (ok : Bool) (n : NbrIdent) (lanes : BitVec 10)
  | partCreate (c : Cmd)
  | partitionBarrierMessage (part : W16) (plane : Fin 9) (y z : Fin 4)
  | partBarrierTimeout
  | partDestroy (c : Cmd)
  | spareSwap (c : Cmd)
  | portCtrlRetrain (c : Cmd)
  | portCtrlDisable (c : Cmd)
  | portCtrlEnable (c : Cmd)
  | portCtrlLaneTest (c : Cmd)
  | collAllReduce (c : Cmd)
  | collReduceScatter (c : Cmd)
  | collAllGather (c : Cmd)
  | collBroadcast (c : Cmd)
  | collBarrier (c : Cmd)
  | collFieldsMessage (rank : Fin 128) (fields : List W64) (val : Nat) (poison : List Nat)
  | pattern (c : Cmd)
  | patternDone (p : PortNo) (lane : Fin 10) (errors bits : Nat)
  | fabricBurstArrive (u : UnitNo) (rank : Fin 128) (burst : Nat) (va : VA) (len val : Nat) (poisoned : List Nat)
  | fabricBurstAck (rank : Fin 128) (burst : Nat)
  | fencedFlitArrive (p : PortNo)
  | peerTimeout (rank : Fin 128) (unreachable : Bool)
  | tensorLaneError (p : PortNo) (lane : Fin 10)
  | tensorLaneTestDone (p : PortNo) (ok : Bool)
  | netConfig (c : Cmd)
  | qpConfig (c : Cmd)
  | netPostRdmaRead (c : Cmd)
  | netPostRdmaWrite (c : Cmd)
  | netPostSend (c : Cmd)
  | netMessageArrive (p : EthNo) (qp : Fin 4096) (m : NetMsg)
  | ecnMarkReceived (qp : Fin 4096)
  | cnpReceived (qp : Fin 4096)
  | ethPortDown (p : EthNo)
  | roceRetryExhausted (qp : Fin 4096)
  | imageFetch (c : Cmd)
  | manifestArrive (bytes : List Byte)
  | imageChunkArrive (src : ChunkFrom) (chunk : Fin 1048576) (bytes : List Byte)
  | chunkReadRequest (node : Fin 4096) (chunk : Fin 1048576)
  | prefixMessage (node : Fin 4096) (count : Fin 1048576)
  | prefixSendTimer
  | parentTimeout
  | childSilenceTimeout (node : Fin 4096)
  | xgroupOpen (c : Cmd)
  | xgroupHello (group : W32) (member : Fin 64) (low high : Byte)
  | xgroupOpenTimeout (group : W32)
  | xcollAllReduce (c : Cmd)
  | xcollReduceScatter (c : Cmd)
  | xcollAllGather (c : Cmd)
  | xcollBroadcast (c : Cmd)
  | xcollBarrier (c : Cmd)
  | xcollMemberTimeout (group : W32) (member : Fin 64)
  | capLoop (i : CapIn)
  | phaseWindow (levels : BitVec 24) (shares : BitVec 88) (shift : Option (Fin 11 × Fin 11))
  | droopGuardFire (sw : SwardNo)
  | droopGuardRelease (sw : SwardNo)
  | ageingMeasure (t : TuftNo) (percent : Fin 101)
  | tuftGate (t : TuftNo)
  | tuftWakeDone (t : TuftNo)
  | tempSample (d : DieNo) (temp laser : Byte) (sensors : Fin 5)
  | thermalTrip (d : DieNo) (temp : Byte)
  | inputRangeTrip
  | capSet (c : Cmd)
  | phaseRead (c : Cmd)
  | phaseLoad (c : Cmd)
  | pwRead (c : Cmd)
  | targetedTestDone (level : Fin 4) (unit : W16) (ok : Bool) (stuck : List (Bool × BitVec 7)) (katOk : Bool)
  | swardRemapDone (sw : SwardNo)
  | errLogRead (c : Cmd)
  | selfTest (c : Cmd)
  | unitCtrlWithdraw (c : Cmd)
  | unitCtrlReturn (c : Cmd)
  | errInject (c : Cmd)
  | startRequestCold (c : Cmd)
  | startRequestWarm (c : Cmd)
  | startRequestRecovery (c : Cmd)
  | imageStage (c : Cmd)
  | imageActivate (c : Cmd)
  | svnCommit (c : Cmd)
  | measureRead (c : Cmd)
  | attest (c : Cmd)
  | debugUnlockNonce (c : Cmd)
  | debugUnlockSubmit (c : Cmd)
  | flashWriteDone (ok : Bool)
  | getVersion (mctp : Bool)
  | getCapabilities (mctp : Bool)
  | negotiateAlgorithms (mctp : Bool)
  | getDigests (mctp : Bool)
  | getCertificate (mctp : Bool) (slot : Fin 8) (off len : W16)
  | challenge (mctp : Bool) (slot : Fin 8) (nonce : W256)
  | getMeasurements (mctp : Bool) (block : Byte) (signed : Bool) (nonce : W256)
  | vendorDefinedRequest (mctp : Bool) (command : W16)
  | mctpControl (command : Byte)
  | pldmBaseDiscovery (command : Byte)
  | pldmSensorRead (id : W16)
  | pldmSetMgmtCap (watts : W16)
  | pldmSetLocate (on : Bool)
  | pldmRemovalRequest
  | pldmStartRequest (type : Fin 3)
  | pldmFwUpdateTransfer (comp : Fin 8) (bytes : List Byte)
  | activateFirmware (mask : BitVec 7)
  | buttonShortPress
  | buttonHold
  | removalRequestLapse
  | quiesce (c : Cmd)
  | quiesceDeny (c : Cmd)
  | quiesceLinkDown
  | latchOpen
  | latchClose
  | presentNBreak
  | tensorLinkDown (p : PortNo)
  | ethPortUp (p : EthNo)
  | directorySweepDone (h : HomeNo)
  | startRecordTimeWrite
  | testResetRelease
  | attnButtonPress
  | powerStateChange (d3 : Bool)
  | loamFrameReplay (l : LinkNo) (ba : Bool) (frame : Nat)
  | tensorFlitReplay (p : PortNo)
  deriving DecidableEq, Repr

end Sys2Proof
end

