-- ==== Sys2Proof/Decode.lean ====
section
/-! DEFINITION. Sys2Proof/Decode.lean: the command a word of the opcode table spells. -/
namespace Sys2Proof

/-- The command that a word of `nbits` bits spells by the opcode table: the table gives no row of this block any bits, so
there is none. An Obiolo command's own words are read by the meanings (Machine/ObCore.lean), from Table CF-2 on. -/
def decodeTableWord (_nbits _w : Nat) : Option Instr := none

end Sys2Proof
end

