-- ==== Sys2Proof/Config.lean ====
section
/-! DEFINITION. Sys2Proof/Config.lean: what the spec leaves open, as opaque constants (log entry 1). Nothing in Lean can
evaluate one of them, so a statement about it holds for every value. -/
namespace Sys2Proof.Config

/-- The n-th free value of a run: whatever the hardware puts where the spec states no value. -/
opaque free : Nat → Nat

/-- The result of an integer operation where the spec states none, a shift by the width or more or an operation that it does not
list: the OP and MOD of its word, width, operands. One device gives one result for them in every run (R45). -/
opaque intValue (code width a b : Nat) : Nat

/-- Which lane's bytes stay where several lanes of one store write to one byte: lanes are written in the order of these numbers,
which the addresses of the store fix (R45). -/
opaque laneRank (addrs : List Nat) (size lane : Nat) : Nat

/-- Where, among the codes within the bound that the spec sets, the result of an operation that is not correctly rounded
lies (R133, R167, R168): operation code, working format width, operand codes; taken modulo the number of those codes. -/
opaque ulpOff (op width a b : Nat) : Nat

/-- The working-format code of a function where the spec states no value, SILU of −∞: operation code, working format width,
operand code. -/
opaque fixedMethod (op width a : Nat) : Nat

/-- Header bytes 0–527 of an image as the module left manufacture, by image type × 2 + bank, and its SHA-384; of the parts
of the recovery image, by type + 16 (Tables SB-2, SB-3). -/
opaque factoryHeader (key : Nat) : Nat
opaque factoryMeasure (key : Nat) : Nat

/-- Fuses of Table SB-1 that identify the module and its root keys: MODULE_ID, the hashes of the root keys by key slot. -/
opaque moduleId : Nat
opaque rootHash (slh : Bool) (slot : Nat) : Nat

/-- Whether a signature verifies: RSASSA-PSS-3072 with SHA-384, SLH-DSA-SHA2-192s; key, signature, message as bytes. -/
opaque rsaVerifies (modulus signature : Nat) (message : List Nat) : Bool
opaque slhVerifies (key signature : Nat) (message : List Nat) : Bool

/-- The signature that a device identity key of Gorse gives for a message; salts and randomisers may differ from call to
call, so the number of the call is an argument. -/
opaque rsaSign (call message : Nat) : Nat
opaque slhSign (call message : Nat) : Nat

/-- The certificate chain of a slot (R534), in bytes. -/
opaque certificate (slot : Nat) : List Nat

/-- Slot 7 as a start forms it: the configuration items, SVN_MIN, start type, debug unlocked (R533); and a slot extended by a
hash. -/
opaque slot7 (items : List Nat) (svnMin type : Nat) (unlocked : Bool) : Nat
opaque extendSlot (slot hash : Nat) : Nat

/-- The 32 check bits of a sector of DRAM, by its stack-local address and its 256 data bits, and the pattern written with a poisoned
sector (R277, R279): the spec states what the code corrects and detects, not its bits. -/
opaque dramCheck (address data : Nat) : Nat
opaque poisonCheck (address data : Nat) : Nat

/-- Credits of a tensor port for VC0 beyond the first: the spec gives no number (R144, R414). -/
opaque linkCredits (port : Nat) : Nat

/-- How a read of host memory that is answered within its command comes back: 0 with data, 1 refused by a peer, 2 not before the
completion timeout, all modulo 3; by the number of the draw (R379, R387). -/
opaque hostRead (draw : Nat) : Nat

/-- The address that is fused into an Ethernet port (R441). -/
opaque ethMac (port : Nat) : BitVec 48

/-- Where firmware puts the bias table (R305), in units of 64 KiB before it is brought into device memory. -/
opaque biasPlace : Nat


end Sys2Proof.Config
end

