-- ==== Sys2Proof/Machine/Regs.lean ====
section
/-! DEFINITION. Sys2Proof/Machine/Regs.lean: the registers of the spec (Table CF-11 and the register tables of the
chapters), each field with its bits, access code (Table SC-2) and reset value, and each flag with its companion counter
(R408). A reset value the spec writes as a dash is zero here, DESIGN CHOICE (log entry 2); the fused ceiling of a Tuft is the lowest that R484 allows (log entry 5); fields the spec reserves are in no list and
read as zero (R7). -/
namespace Sys2Proof.Machine

/-- The registers, one constructor for each register of the spec. -/
inductive Reg where
  | obId
  | obStatus
  | obCounts
  | obCtrl
  | sqState
  | cqState
  | eqState
  | evRoute
  | atCtrl
  | atFqBase
  | atFqPtr
  | atStatus
  | atCounts
  | tfPos
  | tfPortStatus
  | tfStatus
  | arithFlags
  | arithCounts
  | mxStatus
  | mxCounts
  | mxRepair
  | stileStatus
  | stileCounts
  | veStatus
  | veCounts
  | tgStatus
  | tgCounts
  | hayCtrl
  | hayStatus
  | hayCounts
  | coCtrl
  | coStatus
  | coCounts
  | resStatus
  | resCounts
  | lmStatus
  | lmCounts
  | tsCounts
  | stepRate
  | pwCtrl
  | pwStatus
  | tuftCeil
  | swardPw
  | dieTemp
  | sbStatus
  | hlStatus
  | hlCounts
  | hlRpInwin
  | netPortStatus
  | netStatus
  | timerStatus
  | ddLinkStatus
  | ddRingStatus
  | ddDieStatus
  | ddStatus
  | reStatus
  | reCounts
  | mgStatus
  | mgCtrl
  deriving DecidableEq, Repr

/-- REG_ID of a register (Table CF-11). -/
def regId : Reg → Nat
  | .obId => 0x0101
  | .obStatus => 0x0102
  | .obCounts => 0x0103
  | .obCtrl => 0x0104
  | .sqState => 0x0108
  | .cqState => 0x0109
  | .eqState => 0x010A
  | .evRoute => 0x0190
  | .atCtrl => 0x0201
  | .atFqBase => 0x0202
  | .atFqPtr => 0x0203
  | .atStatus => 0x0204
  | .atCounts => 0x0205
  | .tfPos => 0x0301
  | .tfPortStatus => 0x0302
  | .tfStatus => 0x0304
  | .arithFlags => 0x0401
  | .arithCounts => 0x0402
  | .mxStatus => 0x0420
  | .mxCounts => 0x0421
  | .mxRepair => 0x0422
  | .stileStatus => 0x0440
  | .stileCounts => 0x0441
  | .veStatus => 0x0450
  | .veCounts => 0x0451
  | .tgStatus => 0x0460
  | .tgCounts => 0x0461
  | .hayCtrl => 0x0501
  | .hayStatus => 0x0502
  | .hayCounts => 0x0503
  | .coCtrl => 0x0520
  | .coStatus => 0x0521
  | .coCounts => 0x0522
  | .resStatus => 0x0560
  | .resCounts => 0x0561
  | .lmStatus => 0x0570
  | .lmCounts => 0x0571
  | .tsCounts => 0x0572
  | .stepRate => 0x0601
  | .pwCtrl => 0x0602
  | .pwStatus => 0x0603
  | .tuftCeil => 0x0605
  | .swardPw => 0x0606
  | .dieTemp => 0x0607
  | .sbStatus => 0x0701
  | .hlStatus => 0x0802
  | .hlCounts => 0x0803
  | .hlRpInwin => 0x0804
  | .netPortStatus => 0x0901
  | .netStatus => 0x0902
  | .timerStatus => 0x0A01
  | .ddLinkStatus => 0x0A02
  | .ddRingStatus => 0x0A03
  | .ddDieStatus => 0x0A04
  | .ddStatus => 0x0A05
  | .reStatus => 0x0A50
  | .reCounts => 0x0A51
  | .mgStatus => 0x0A60
  | .mgCtrl => 0x0A61

/-- Number of UNITs of a register (Table CF-11). -/
def regUnits : Reg → Nat
  | .obId => 1
  | .obStatus => 1
  | .obCounts => 1
  | .obCtrl => 1
  | .sqState => 256
  | .cqState => 64
  | .eqState => 1
  | .evRoute => 72
  | .atCtrl => 1
  | .atFqBase => 1
  | .atFqPtr => 1
  | .atStatus => 1
  | .atCounts => 10
  | .tfPos => 1
  | .tfPortStatus => 16
  | .tfStatus => 1
  | .arithFlags => 1024
  | .arithCounts => 1024
  | .mxStatus => 4096
  | .mxCounts => 1024
  | .mxRepair => 1024
  | .stileStatus => 8
  | .stileCounts => 8
  | .veStatus => 1024
  | .veCounts => 1024
  | .tgStatus => 1024
  | .tgCounts => 1024
  | .hayCtrl => 16
  | .hayStatus => 16
  | .hayCounts => 16
  | .coCtrl => 1
  | .coStatus => 16
  | .coCounts => 16
  | .resStatus => 8
  | .resCounts => 8
  | .lmStatus => 128
  | .lmCounts => 128
  | .tsCounts => 1024
  | .stepRate => 148
  | .pwCtrl => 1
  | .pwStatus => 1
  | .tuftCeil => 1024
  | .swardPw => 128
  | .dieTemp => 29
  | .sbStatus => 1
  | .hlStatus => 1
  | .hlCounts => 1
  | .hlRpInwin => 1
  | .netPortStatus => 4
  | .netStatus => 1
  | .timerStatus => 1
  | .ddLinkStatus => 41
  | .ddRingStatus => 4
  | .ddDieStatus => 29
  | .ddStatus => 1
  | .reStatus => 1
  | .reCounts => 1
  | .mgStatus => 1
  | .mgCtrl => 1

/-- Width of a register in bits. -/
def regWidth : Reg → Nat
  | .obId => 64
  | .obStatus => 64
  | .obCounts => 128
  | .obCtrl => 64
  | .sqState => 64
  | .cqState => 64
  | .eqState => 64
  | .evRoute => 64
  | .atCtrl => 64
  | .atFqBase => 64
  | .atFqPtr => 32
  | .atStatus => 64
  | .atCounts => 128
  | .tfPos => 64
  | .tfPortStatus => 64
  | .tfStatus => 64
  | .arithFlags => 32
  | .arithCounts => 64
  | .mxStatus => 64
  | .mxCounts => 64
  | .mxRepair => 32
  | .stileStatus => 32
  | .stileCounts => 64
  | .veStatus => 32
  | .veCounts => 64
  | .tgStatus => 32
  | .tgCounts => 128
  | .hayCtrl => 32
  | .hayStatus => 32
  | .hayCounts => 128
  | .coCtrl => 64
  | .coStatus => 32
  | .coCounts => 128
  | .resStatus => 64
  | .resCounts => 64
  | .lmStatus => 64
  | .lmCounts => 64
  | .tsCounts => 64
  | .stepRate => 64
  | .pwCtrl => 64
  | .pwStatus => 64
  | .tuftCeil => 32
  | .swardPw => 64
  | .dieTemp => 32
  | .sbStatus => 64
  | .hlStatus => 64
  | .hlCounts => 128
  | .hlRpInwin => 64
  | .netPortStatus => 64
  | .netStatus => 64
  | .timerStatus => 32
  | .ddLinkStatus => 64
  | .ddRingStatus => 64
  | .ddDieStatus => 32
  | .ddStatus => 32
  | .reStatus => 64
  | .reCounts => 128
  | .mgStatus => 64
  | .mgCtrl => 32

/-- Every register. -/
def allRegs : List Reg :=
  [.obId, .obStatus, .obCounts, .obCtrl, .sqState, .cqState, .eqState, .evRoute,
   .atCtrl, .atFqBase, .atFqPtr, .atStatus, .atCounts, .tfPos, .tfPortStatus, .tfStatus,
   .arithFlags, .arithCounts, .mxStatus, .mxCounts, .mxRepair, .stileStatus, .stileCounts, .veStatus,
   .veCounts, .tgStatus, .tgCounts, .hayCtrl, .hayStatus, .hayCounts, .coCtrl, .coStatus,
   .coCounts, .resStatus, .resCounts, .lmStatus, .lmCounts, .tsCounts, .stepRate, .pwCtrl,
   .pwStatus, .tuftCeil, .swardPw, .dieTemp, .sbStatus, .hlStatus, .hlCounts, .hlRpInwin,
   .netPortStatus, .netStatus, .timerStatus, .ddLinkStatus, .ddRingStatus, .ddDieStatus, .ddStatus, .reStatus,
   .reCounts, .mgStatus, .mgCtrl]

/-- Access codes of Table SC-2. -/
inductive Access where
  | rw | ro | wo | w1c | w1s | rc | fw
  deriving DecidableEq, Repr

/-- A field of a register: bits [hi:lo], its access code and its reset value. -/
structure Field where
  reg : Reg
  hi : Nat
  lo : Nat
  acc : Access
  rst : Nat
  deriving DecidableEq, Repr

/-- A flag of a register and the counter that counts its events (R408). -/
structure Flag where
  flag : Field
  count : Field
  deriving DecidableEq, Repr

-- OB_ID (Table CF-15)
def obIdFwVersion : Field := ⟨.obId, 63, 32, .ro, 0⟩
def obIdDevice : Field := ⟨.obId, 31, 16, .ro, 0x9416⟩
def obIdStepping : Field := ⟨.obId, 7, 0, .ro, 0xA0⟩
-- OB_STATUS (Table CF-17)
def obStatusGraphs : Field := ⟨.obStatus, 39, 32, .ro, 0⟩
def obStatusOpen : Field := ⟨.obStatus, 20, 10, .ro, 0⟩
def obStatusReady : Field := ⟨.obStatus, 9, 9, .ro, 0⟩
def obStatusJob : Field := ⟨.obStatus, 8, 8, .ro, 0⟩
def obStatusDegraded : Field := ⟨.obStatus, 7, 7, .ro, 0⟩
def obStatusHeadErr : Field := ⟨.obStatus, 5, 5, .w1c, 0⟩
def obStatusFwWrite : Field := ⟨.obStatus, 4, 4, .w1c, 0⟩
def obStatusCqWait : Field := ⟨.obStatus, 3, 3, .w1c, 0⟩
def obStatusEqLost : Field := ⟨.obStatus, 2, 2, .w1c, 0⟩
def obStatusEqFull : Field := ⟨.obStatus, 1, 1, .w1c, 0⟩
def obStatusRefused : Field := ⟨.obStatus, 0, 0, .w1c, 0⟩
-- OB_COUNTS (Table CF-18)
def obCountsAccepted : Field := ⟨.obCounts, 127, 96, .ro, 0⟩
def obCountsHeadErrCount : Field := ⟨.obCounts, 47, 40, .ro, 0⟩
def obCountsFwWriteCount : Field := ⟨.obCounts, 39, 32, .ro, 0⟩
def obCountsCqWaitCount : Field := ⟨.obCounts, 31, 24, .ro, 0⟩
def obCountsEqLostCount : Field := ⟨.obCounts, 23, 16, .ro, 0⟩
def obCountsEqFullCount : Field := ⟨.obCounts, 15, 8, .ro, 0⟩
def obCountsRefusedCount : Field := ⟨.obCounts, 7, 0, .ro, 0⟩
-- OB_CTRL (Table CF-16)
def obCtrlPoolWdMs : Field := ⟨.obCtrl, 15, 0, .rw, 0x64⟩
-- SQ_STATE (Table CF-13)
def sqStateTail : Field := ⟨.sqState, 63, 48, .ro, 0⟩
def sqStateHead : Field := ⟨.sqState, 47, 32, .ro, 0⟩
def sqStateDepthLog2 : Field := ⟨.sqState, 15, 12, .ro, 0⟩
def sqStatePrio : Field := ⟨.sqState, 11, 10, .ro, 0⟩
def sqStateState : Field := ⟨.sqState, 9, 8, .ro, 0⟩
-- CQ_STATE (Table CF-14)
def cqStateTail : Field := ⟨.cqState, 63, 48, .ro, 0⟩
def cqStateHead : Field := ⟨.cqState, 47, 32, .rw, 0⟩
def cqStateLost : Field := ⟨.cqState, 31, 16, .ro, 0⟩
def cqStateDepthLog2 : Field := ⟨.cqState, 15, 12, .ro, 0⟩
def cqStateStopped : Field := ⟨.cqState, 9, 9, .ro, 0⟩
def cqStateEn : Field := ⟨.cqState, 8, 8, .ro, 0⟩
-- EQ_STATE (Table CF-14)
def eqStateTail : Field := ⟨.eqState, 63, 48, .ro, 0⟩
def eqStateHead : Field := ⟨.eqState, 47, 32, .rw, 0⟩
def eqStateLost : Field := ⟨.eqState, 31, 16, .ro, 0⟩
def eqStateDepthLog2 : Field := ⟨.eqState, 15, 12, .ro, 0⟩
def eqStateStopped : Field := ⟨.eqState, 9, 9, .ro, 0⟩
def eqStateEn : Field := ⟨.eqState, 8, 8, .ro, 0⟩
-- EV_ROUTE (Table AC-2)
def evRoutePend : Field := ⟨.evRoute, 48, 48, .ro, 0⟩
def evRouteEiidFb : Field := ⟨.evRoute, 47, 37, .rw, 0⟩
def evRouteHartFb : Field := ⟨.evRoute, 36, 30, .rw, 0⟩
def evRouteFileFb : Field := ⟨.evRoute, 29, 29, .rw, 0⟩
def evRouteFbV : Field := ⟨.evRoute, 28, 28, .rw, 0⟩
def evRouteEiid : Field := ⟨.evRoute, 27, 17, .rw, 0⟩
def evRouteHart : Field := ⟨.evRoute, 16, 10, .rw, 0⟩
def evRouteFile : Field := ⟨.evRoute, 9, 9, .rw, 0⟩
def evRouteToHost : Field := ⟨.evRoute, 8, 8, .rw, 0⟩
def evRouteEn : Field := ⟨.evRoute, 0, 0, .rw, 0⟩
-- AT_CTRL (Table AT-9)
def atCtrlRoot : Field := ⟨.atCtrl, 51, 12, .fw, 0⟩
def atCtrlFqWatchdogMs : Field := ⟨.atCtrl, 11, 2, .fw, 0x64⟩
def atCtrlPfEn : Field := ⟨.atCtrl, 1, 1, .fw, 1⟩
def atCtrlEn : Field := ⟨.atCtrl, 0, 0, .fw, 0⟩
-- AT_FQ_BASE (Table AT-10)
def atFqBaseBase : Field := ⟨.atFqBase, 51, 17, .fw, 0⟩
-- AT_FQ_PTR (Table AT-11)
def atFqPtrTail : Field := ⟨.atFqPtr, 28, 16, .ro, 0⟩
def atFqPtrHead : Field := ⟨.atFqPtr, 12, 0, .rw, 0⟩
-- AT_STATUS (Table AT-12)
def atStatusFqFullCount : Field := ⟨.atStatus, 63, 56, .ro, 0⟩
def atStatusWalkErrCount : Field := ⟨.atStatus, 55, 48, .ro, 0⟩
def atStatusInfoDropCount : Field := ⟨.atStatus, 47, 40, .ro, 0⟩
def atStatusFqOverflows : Field := ⟨.atStatus, 39, 24, .ro, 0⟩
def atStatusOpenFaults : Field := ⟨.atStatus, 23, 14, .ro, 0⟩
def atStatusInvalBusy : Field := ⟨.atStatus, 4, 4, .ro, 0⟩
def atStatusInfoDrop : Field := ⟨.atStatus, 3, 3, .w1c, 0⟩
def atStatusWalkErr : Field := ⟨.atStatus, 2, 2, .w1c, 0⟩
def atStatusFqFull : Field := ⟨.atStatus, 1, 1, .w1c, 0⟩
def atStatusEn : Field := ⟨.atStatus, 0, 0, .ro, 0⟩
-- AT_COUNTS (Table AT-13)
def atCountsBufHits : Field := ⟨.atCounts, 127, 104, .ro, 0⟩
def atCountsWalks : Field := ⟨.atCounts, 103, 80, .ro, 0⟩
def atCountsPfWalks : Field := ⟨.atCounts, 79, 56, .ro, 0⟩
def atCountsPfHits : Field := ⟨.atCounts, 55, 32, .ro, 0⟩
def atCountsMerged : Field := ⟨.atCounts, 31, 16, .ro, 0⟩
def atCountsInvals : Field := ⟨.atCounts, 15, 0, .ro, 0⟩
-- TF_POS (Table TF-6)
def tfPosHeathId : Field := ⟨.tfPos, 63, 56, .ro, 0⟩
def tfPosSparePlane : Field := ⟨.tfPos, 55, 52, .fw, 8⟩
def tfPosPlane : Field := ⟨.tfPos, 51, 48, .ro, 0⟩
def tfPosY : Field := ⟨.tfPos, 47, 46, .ro, 0⟩
def tfPosZ : Field := ⟨.tfPos, 45, 44, .ro, 0⟩
def tfPosLogicalX : Field := ⟨.tfPos, 43, 40, .ro, 0xF⟩
def tfPosRank : Field := ⟨.tfPos, 39, 28, .ro, 0xFFF⟩
def tfPosPartId : Field := ⟨.tfPos, 27, 12, .ro, 0⟩
def tfPosWhole : Field := ⟨.tfPos, 2, 2, .ro, 0⟩
def tfPosPartUp : Field := ⟨.tfPos, 1, 1, .ro, 0⟩
def tfPosStrapValid : Field := ⟨.tfPos, 0, 0, .ro, 0⟩
-- TF_PORT_STATUS (Table TF-7)
def tfPortStatusMiswiredCount : Field := ⟨.tfPortStatus, 63, 56, .ro, 0⟩
def tfPortStatusLaneFailCount : Field := ⟨.tfPortStatus, 55, 48, .ro, 0⟩
def tfPortStatusFenceDropCount : Field := ⟨.tfPortStatus, 47, 40, .ro, 0⟩
def tfPortStatusReplays : Field := ⟨.tfPortStatus, 39, 24, .ro, 0⟩
def tfPortStatusLanesUsed : Field := ⟨.tfPortStatus, 23, 14, .ro, 0⟩
def tfPortStatusWidth : Field := ⟨.tfPortStatus, 13, 12, .ro, 0⟩
def tfPortStatusDisabled : Field := ⟨.tfPortStatus, 7, 7, .ro, 0⟩
def tfPortStatusFenced : Field := ⟨.tfPortStatus, 6, 6, .ro, 1⟩
def tfPortStatusFenceDrop : Field := ⟨.tfPortStatus, 2, 2, .w1c, 0⟩
def tfPortStatusLaneFail : Field := ⟨.tfPortStatus, 1, 1, .w1c, 0⟩
def tfPortStatusMiswired : Field := ⟨.tfPortStatus, 0, 0, .w1c, 0⟩
-- TF_STATUS (Table TF-8)
def tfStatusPeerLostCount : Field := ⟨.tfStatus, 63, 56, .ro, 0⟩
def tfStatusCollFailCount : Field := ⟨.tfStatus, 55, 48, .ro, 0⟩
def tfStatusSwapCount : Field := ⟨.tfStatus, 47, 40, .ro, 0⟩
def tfStatusCollectives : Field := ⟨.tfStatus, 39, 24, .ro, 0⟩
def tfStatusStrapErr : Field := ⟨.tfStatus, 3, 3, .ro, 0⟩
def tfStatusSwap : Field := ⟨.tfStatus, 2, 2, .w1c, 0⟩
def tfStatusCollFail : Field := ⟨.tfStatus, 1, 1, .w1c, 0⟩
def tfStatusPeerLost : Field := ⟨.tfStatus, 0, 0, .w1c, 0⟩
-- ARITH_FLAGS (Table NF-11)
def arithFlagsBn : Field := ⟨.arithFlags, 7, 7, .w1c, 0⟩
def arithFlagsSa : Field := ⟨.arithFlags, 6, 6, .w1c, 0⟩
def arithFlagsFz : Field := ⟨.arithFlags, 5, 5, .w1c, 0⟩
def arithFlagsIx : Field := ⟨.arithFlags, 4, 4, .w1c, 0⟩
def arithFlagsUf : Field := ⟨.arithFlags, 3, 3, .w1c, 0⟩
def arithFlagsOf : Field := ⟨.arithFlags, 2, 2, .w1c, 0⟩
def arithFlagsDz : Field := ⟨.arithFlags, 1, 1, .w1c, 0⟩
def arithFlagsIv : Field := ⟨.arithFlags, 0, 0, .w1c, 0⟩
-- ARITH_COUNTS (Table NF-12)
def arithCountsBnCount : Field := ⟨.arithCounts, 63, 56, .ro, 0⟩
def arithCountsSaCount : Field := ⟨.arithCounts, 55, 48, .ro, 0⟩
def arithCountsFzCount : Field := ⟨.arithCounts, 47, 40, .ro, 0⟩
def arithCountsIxCount : Field := ⟨.arithCounts, 39, 32, .ro, 0⟩
def arithCountsUfCount : Field := ⟨.arithCounts, 31, 24, .ro, 0⟩
def arithCountsOfCount : Field := ⟨.arithCounts, 23, 16, .ro, 0⟩
def arithCountsDzCount : Field := ⟨.arithCounts, 15, 8, .ro, 0⟩
def arithCountsIvCount : Field := ⟨.arithCounts, 7, 0, .ro, 0⟩
-- MX_STATUS (Table MX-8)
def mxStatusShadowTag : Field := ⟨.mxStatus, 63, 48, .ro, 0⟩
def mxStatusActiveTag : Field := ⟨.mxStatus, 47, 32, .ro, 0⟩
def mxStatusPoisonSet : Field := ⟨.mxStatus, 10, 10, .ro, 0⟩
def mxStatusCheckErr : Field := ⟨.mxStatus, 9, 9, .w1c, 0⟩
def mxStatusJoined : Field := ⟨.mxStatus, 8, 8, .ro, 0⟩
def mxStatusMode : Field := ⟨.mxStatus, 7, 6, .ro, 0⟩
def mxStatusShadowState : Field := ⟨.mxStatus, 5, 4, .ro, 0⟩
def mxStatusActiveValid : Field := ⟨.mxStatus, 3, 3, .ro, 0⟩
def mxStatusQueue : Field := ⟨.mxStatus, 2, 0, .ro, 0⟩
-- MX_COUNTS (Table MX-10)
def mxCountsOps : Field := ⟨.mxCounts, 63, 40, .ro, 0⟩
def mxCountsLoads : Field := ⟨.mxCounts, 39, 24, .ro, 0⟩
def mxCountsTagHits : Field := ⟨.mxCounts, 23, 8, .ro, 0⟩
def mxCountsCheckErrs : Field := ⟨.mxCounts, 7, 0, .ro, 0⟩
-- MX_REPAIR (Table MX-7)
def mxRepairColExcl1V : Field := ⟨.mxRepair, 31, 31, .fw, 0⟩
def mxRepairColExcl1 : Field := ⟨.mxRepair, 30, 24, .fw, 0⟩
def mxRepairColExcl0V : Field := ⟨.mxRepair, 23, 23, .fw, 0⟩
def mxRepairColExcl0 : Field := ⟨.mxRepair, 22, 16, .fw, 0⟩
def mxRepairRowExcl1V : Field := ⟨.mxRepair, 15, 15, .fw, 0⟩
def mxRepairRowExcl1 : Field := ⟨.mxRepair, 14, 8, .fw, 0⟩
def mxRepairRowExcl0V : Field := ⟨.mxRepair, 7, 7, .fw, 0⟩
def mxRepairRowExcl0 : Field := ⟨.mxRepair, 6, 0, .fw, 0⟩
-- STILE_STATUS (Table SP-12)
def stileStatusQueue : Field := ⟨.stileStatus, 8, 5, .ro, 0⟩
def stileStatusFail : Field := ⟨.stileStatus, 4, 4, .w1c, 0⟩
def stileStatusPass : Field := ⟨.stileStatus, 3, 3, .w1c, 0⟩
def stileStatusDefer : Field := ⟨.stileStatus, 2, 2, .w1c, 0⟩
def stileStatusLogitInf : Field := ⟨.stileStatus, 1, 1, .w1c, 0⟩
def stileStatusLogitNan : Field := ⟨.stileStatus, 0, 0, .w1c, 0⟩
-- STILE_COUNTS (Table SP-13)
def stileCountsInvocations : Field := ⟨.stileCounts, 63, 48, .ro, 0⟩
def stileCountsFailCount : Field := ⟨.stileCounts, 47, 40, .ro, 0⟩
def stileCountsPassCount : Field := ⟨.stileCounts, 39, 32, .ro, 0⟩
def stileCountsDeferCount : Field := ⟨.stileCounts, 31, 24, .ro, 0⟩
def stileCountsInfCount : Field := ⟨.stileCounts, 23, 16, .ro, 0⟩
def stileCountsNanCount : Field := ⟨.stileCounts, 15, 8, .ro, 0⟩
-- VE_STATUS (Table VE-6)
def veStatusCheckErr : Field := ⟨.veStatus, 5, 5, .w1c, 0⟩
def veStatusRunning : Field := ⟨.veStatus, 4, 4, .ro, 0⟩
def veStatusWaitMx : Field := ⟨.veStatus, 3, 3, .ro, 0⟩
def veStatusQueue : Field := ⟨.veStatus, 2, 0, .ro, 0⟩
-- VE_COUNTS (Table VE-7)
def veCountsChains : Field := ⟨.veCounts, 63, 48, .ro, 0⟩
def veCountsFootWait : Field := ⟨.veCounts, 47, 24, .ro, 0⟩
def veCountsInWait : Field := ⟨.veCounts, 23, 8, .ro, 0⟩
def veCountsCheckErrs : Field := ⟨.veCounts, 7, 0, .ro, 0⟩
-- TG_STATUS (Table TG-6)
def tgStatusEccErr : Field := ⟨.tgStatus, 20, 20, .w1c, 0⟩
def tgStatusParked : Field := ⟨.tgStatus, 19, 14, .ro, 0⟩
def tgStatusReady : Field := ⟨.tgStatus, 13, 8, .ro, 0⟩
def tgStatusResident : Field := ⟨.tgStatus, 5, 0, .ro, 0⟩
-- TG_COUNTS (Table TG-7)
def tgCountsIssued : Field := ⟨.tgCounts, 127, 96, .ro, 0⟩
def tgCountsDual : Field := ⟨.tgCounts, 95, 72, .ro, 0⟩
def tgCountsRcHits : Field := ⟨.tgCounts, 71, 48, .ro, 0⟩
def tgCountsBankExtra : Field := ⟨.tgCounts, 47, 32, .ro, 0⟩
def tgCountsRotations : Field := ⟨.tgCounts, 31, 16, .ro, 0⟩
def tgCountsRfCorrected : Field := ⟨.tgCounts, 15, 8, .ro, 0⟩
def tgCountsEccErrs : Field := ⟨.tgCounts, 7, 0, .ro, 0⟩
-- HAY_CTRL (Table MS-6)
def hayCtrlScrubHours : Field := ⟨.hayCtrl, 23, 16, .fw, 0x18⟩
def hayCtrlPfEn : Field := ⟨.hayCtrl, 8, 8, .fw, 1⟩
def hayCtrlWaysOn : Field := ⟨.hayCtrl, 4, 0, .fw, 0x10⟩
-- HAY_STATUS (Table MS-7)
def hayStatusWaysPowered : Field := ⟨.hayStatus, 26, 22, .ro, 0x10⟩
def hayStatusLocked : Field := ⟨.hayStatus, 21, 19, .ro, 0⟩
def hayStatusCleaning : Field := ⟨.hayStatus, 18, 18, .ro, 0⟩
def hayStatusThermHold : Field := ⟨.hayStatus, 17, 17, .ro, 0⟩
def hayStatusRefreshRate : Field := ⟨.hayStatus, 16, 15, .ro, 0⟩
def hayStatusSpareLow : Field := ⟨.hayStatus, 4, 4, .w1c, 0⟩
def hayStatusThermal : Field := ⟨.hayStatus, 3, 3, .w1c, 0⟩
def hayStatusRowRepair : Field := ⟨.hayStatus, 2, 2, .w1c, 0⟩
def hayStatusUe : Field := ⟨.hayStatus, 1, 1, .w1c, 0⟩
def hayStatusCeThresh : Field := ⟨.hayStatus, 0, 0, .w1c, 0⟩
-- HAY_COUNTS (Table MS-8)
def hayCountsHits : Field := ⟨.hayCounts, 127, 104, .ro, 0⟩
def hayCountsMisses : Field := ⟨.hayCounts, 103, 80, .ro, 0⟩
def hayCountsPfIssued : Field := ⟨.hayCounts, 79, 56, .ro, 0⟩
def hayCountsCeCount : Field := ⟨.hayCounts, 55, 40, .ro, 0⟩
def hayCountsCeThreshCount : Field := ⟨.hayCounts, 39, 32, .ro, 0⟩
def hayCountsUeCount : Field := ⟨.hayCounts, 31, 24, .ro, 0⟩
def hayCountsRepairCount : Field := ⟨.hayCounts, 23, 16, .ro, 0⟩
def hayCountsThermalCount : Field := ⟨.hayCounts, 15, 8, .ro, 0⟩
def hayCountsSpareLowCount : Field := ⟨.hayCounts, 7, 0, .ro, 0⟩
-- CO_CTRL (Table CO-9)
def coCtrlBiasBase : Field := ⟨.coCtrl, 40, 16, .fw, 0⟩
def coCtrlTimeoutUs : Field := ⟨.coCtrl, 15, 8, .fw, 0x14⟩
def coCtrlBiasEn : Field := ⟨.coCtrl, 2, 2, .fw, 0⟩
def coCtrlMode : Field := ⟨.coCtrl, 0, 0, .fw, 0⟩
-- CO_STATUS (Table CO-10)
def coStatusSweep : Field := ⟨.coStatus, 11, 11, .ro, 0⟩
def coStatusMode : Field := ⟨.coStatus, 10, 10, .ro, 0⟩
def coStatusBiasAbandon : Field := ⟨.coStatus, 5, 5, .w1c, 0⟩
def coStatusProtoErr : Field := ⟨.coStatus, 4, 4, .w1c, 0⟩
def coStatusDirErr : Field := ⟨.coStatus, 3, 3, .w1c, 0⟩
def coStatusAgentLost : Field := ⟨.coStatus, 2, 2, .w1c, 0⟩
def coStatusPinFull : Field := ⟨.coStatus, 1, 1, .w1c, 0⟩
def coStatusTimeout : Field := ⟨.coStatus, 0, 0, .w1c, 0⟩
-- CO_COUNTS (Table CO-11)
def coCountsNacks : Field := ⟨.coCounts, 127, 108, .ro, 0⟩
def coCountsPended : Field := ⟨.coCounts, 107, 88, .ro, 0⟩
def coCountsRecalls : Field := ⟨.coCounts, 87, 76, .ro, 0⟩
def coCountsStale : Field := ⟨.coCounts, 75, 64, .ro, 0⟩
def coCountsAutoFlips : Field := ⟨.coCounts, 63, 48, .ro, 0⟩
def coCountsTimeoutCount : Field := ⟨.coCounts, 47, 40, .ro, 0⟩
def coCountsPinFullCount : Field := ⟨.coCounts, 39, 32, .ro, 0⟩
def coCountsAgentLostCount : Field := ⟨.coCounts, 31, 24, .ro, 0⟩
def coCountsDirErrCount : Field := ⟨.coCounts, 23, 16, .ro, 0⟩
def coCountsProtoErrCount : Field := ⟨.coCounts, 15, 8, .ro, 0⟩
def coCountsBiasAbandonCount : Field := ⟨.coCounts, 7, 0, .ro, 0⟩
-- RES_STATUS (Table SP-9)
def resStatusQuiesced : Field := ⟨.resStatus, 35, 20, .ro, 0⟩
def resStatusArmed : Field := ⟨.resStatus, 19, 4, .ro, 0⟩
def resStatusPoison : Field := ⟨.resStatus, 1, 1, .w1c, 0⟩
def resStatusStall : Field := ⟨.resStatus, 0, 0, .w1c, 0⟩
-- RES_COUNTS (Table SP-10)
def resCountsLifts : Field := ⟨.resCounts, 63, 40, .ro, 0⟩
def resCountsHits : Field := ⟨.resCounts, 39, 16, .ro, 0⟩
def resCountsStallCount : Field := ⟨.resCounts, 15, 8, .ro, 0⟩
def resCountsPoisonCount : Field := ⟨.resCounts, 7, 0, .ro, 0⟩
-- LM_STATUS (Table LM-8)
def lmStatusPoolFree : Field := ⟨.lmStatus, 63, 52, .ro, 0x800⟩
def lmStatusPoolLargest : Field := ⟨.lmStatus, 51, 40, .ro, 0x800⟩
def lmStatusPoison : Field := ⟨.lmStatus, 24, 24, .w1c, 0⟩
def lmStatusCheckErr : Field := ⟨.lmStatus, 23, 23, .w1c, 0⟩
def lmStatusPoolWait : Field := ⟨.lmStatus, 22, 22, .w1c, 0⟩
def lmStatusRunning : Field := ⟨.lmStatus, 21, 18, .ro, 0⟩
def lmStatusGated : Field := ⟨.lmStatus, 17, 11, .ro, 0⟩
def lmStatusQueued : Field := ⟨.lmStatus, 10, 4, .ro, 0⟩
-- LM_COUNTS (Table LM-9)
def lmCountsDescriptors : Field := ⟨.lmCounts, 63, 36, .ro, 0⟩
def lmCountsRetranslated : Field := ⟨.lmCounts, 35, 24, .ro, 0⟩
def lmCountsPoolWaits : Field := ⟨.lmCounts, 23, 16, .ro, 0⟩
def lmCountsCheckErrs : Field := ⟨.lmCounts, 15, 8, .ro, 0⟩
def lmCountsPoisonCount : Field := ⟨.lmCounts, 7, 0, .ro, 0⟩
-- TS_COUNTS (Table LM-10)
def tsCountsStoreWait : Field := ⟨.tsCounts, 63, 32, .ro, 0⟩
def tsCountsPoolCorrected : Field := ⟨.tsCounts, 15, 8, .ro, 0⟩
def tsCountsStoreCorrected : Field := ⟨.tsCounts, 7, 0, .ro, 0⟩
-- STEP_RATE (Table CF-12)
def stepRateSteps : Field := ⟨.stepRate, 31, 0, .ro, 0⟩
-- PW_CTRL (Table PW-10)
def pwCtrlCapW : Field := ⟨.pwCtrl, 47, 32, .fw, 0x1068⟩
def pwCtrlMgmtCapW : Field := ⟨.pwCtrl, 31, 16, .fw, 0⟩
def pwCtrlGateIdleUs : Field := ⟨.pwCtrl, 15, 8, .fw, 0x32⟩
def pwCtrlLearn : Field := ⟨.pwCtrl, 0, 0, .fw, 1⟩
-- PW_STATUS (Table PW-11)
def pwStatusThrottleCount : Field := ⟨.pwStatus, 63, 56, .ro, 0⟩
def pwStatusOvercapCount : Field := ⟨.pwStatus, 55, 48, .ro, 0⟩
def pwStatusSensorErrCount : Field := ⟨.pwStatus, 47, 40, .ro, 0⟩
def pwStatusAgeCount : Field := ⟨.pwStatus, 39, 32, .ro, 0⟩
def pwStatusInputW : Field := ⟨.pwStatus, 31, 16, .ro, 0⟩
def pwStatusPhase : Field := ⟨.pwStatus, 12, 7, .ro, 0⟩
def pwStatusPhaseV : Field := ⟨.pwStatus, 6, 6, .ro, 0⟩
def pwStatusAge : Field := ⟨.pwStatus, 3, 3, .w1c, 0⟩
def pwStatusSensorErr : Field := ⟨.pwStatus, 2, 2, .w1c, 0⟩
def pwStatusOvercap : Field := ⟨.pwStatus, 1, 1, .w1c, 0⟩
def pwStatusThrottle : Field := ⟨.pwStatus, 0, 0, .w1c, 0⟩
-- TUFT_CEIL (Table PW-12)
def tuftCeilCeil : Field := ⟨.tuftCeil, 31, 20, .fw, 0x960⟩
def tuftCeilFused : Field := ⟨.tuftCeil, 19, 8, .ro, 0x960⟩
def tuftCeilState : Field := ⟨.tuftCeil, 3, 2, .ro, 1⟩
-- SWARD_PW (Table PW-13)
def swardPwDroopEvents : Field := ⟨.swardPw, 63, 48, .ro, 0⟩
def swardPwBudgetW : Field := ⟨.swardPw, 47, 32, .ro, 0⟩
def swardPwSetpointMv : Field := ⟨.swardPw, 31, 22, .ro, 0x2EE⟩
def swardPwDuty : Field := ⟨.swardPw, 21, 19, .ro, 0⟩
def swardPwGated : Field := ⟨.swardPw, 18, 15, .ro, 0⟩
def swardPwGuard : Field := ⟨.swardPw, 14, 14, .ro, 0⟩
-- DIE_TEMP (Table PW-14)
def dieTempPeak : Field := ⟨.dieTemp, 23, 16, .ro, 0⟩
def dieTempTemp : Field := ⟨.dieTemp, 15, 8, .ro, 0⟩
def dieTempBand : Field := ⟨.dieTemp, 7, 6, .ro, 0⟩
def dieTempSensorsOk : Field := ⟨.dieTemp, 3, 0, .ro, 0⟩
-- SB_STATUS (Table SB-11)
def sbStatusStartCount : Field := ⟨.sbStatus, 63, 48, .ro, 0⟩
def sbStatusStartCause : Field := ⟨.sbStatus, 47, 40, .ro, 0⟩
def sbStatusStartType : Field := ⟨.sbStatus, 39, 38, .ro, 0⟩
def sbStatusWarmFails : Field := ⟨.sbStatus, 37, 36, .ro, 0⟩
def sbStatusColdFails : Field := ⟨.sbStatus, 35, 34, .ro, 0⟩
def sbStatusFullTest : Field := ⟨.sbStatus, 33, 33, .ro, 0⟩
def sbStatusDebugLocked : Field := ⟨.sbStatus, 32, 32, .ro, 0⟩
def sbStatusVerifyFailCount : Field := ⟨.sbStatus, 31, 24, .ro, 0⟩
def sbStatusFallbackCount : Field := ⟨.sbStatus, 23, 16, .ro, 0⟩
def sbStatusBanks : Field := ⟨.sbStatus, 15, 8, .ro, 0⟩
def sbStatusScrubPending : Field := ⟨.sbStatus, 2, 2, .ro, 0⟩
def sbStatusVerifyFail : Field := ⟨.sbStatus, 1, 1, .w1c, 0⟩
def sbStatusFallback : Field := ⟨.sbStatus, 0, 0, .w1c, 0⟩
-- HL_STATUS (Table HL-9)
def hlStatusLinkEpoch : Field := ⟨.hlStatus, 63, 48, .ro, 0⟩
def hlStatusWidth : Field := ⟨.hlStatus, 36, 32, .ro, 0⟩
def hlStatusSpeed : Field := ⟨.hlStatus, 31, 29, .ro, 0⟩
def hlStatusRole : Field := ⟨.hlStatus, 15, 15, .ro, 0⟩
def hlStatusMemActive : Field := ⟨.hlStatus, 14, 14, .ro, 0⟩
def hlStatusBme : Field := ⟨.hlStatus, 13, 13, .ro, 0⟩
def hlStatusLinkUp : Field := ⟨.hlStatus, 12, 12, .ro, 0⟩
def hlStatusBarErr : Field := ⟨.hlStatus, 7, 7, .w1c, 0⟩
def hlStatusLarkOvw : Field := ⟨.hlStatus, 6, 6, .w1c, 0⟩
def hlStatusDbErr : Field := ⟨.hlStatus, 5, 5, .w1c, 0⟩
def hlStatusNotVisible : Field := ⟨.hlStatus, 4, 4, .w1c, 0⟩
def hlStatusPeerRefused : Field := ⟨.hlStatus, 3, 3, .w1c, 0⟩
def hlStatusCplTimeout : Field := ⟨.hlStatus, 2, 2, .w1c, 0⟩
def hlStatusDegraded : Field := ⟨.hlStatus, 1, 1, .w1c, 0⟩
def hlStatusHostLost : Field := ⟨.hlStatus, 0, 0, .w1c, 0⟩
-- HL_COUNTS (Table HL-10)
def hlCountsRetrains : Field := ⟨.hlCounts, 127, 112, .ro, 0⟩
def hlCountsRereads : Field := ⟨.hlCounts, 111, 96, .ro, 0⟩
def hlCountsMemEarly : Field := ⟨.hlCounts, 95, 80, .ro, 0⟩
def hlCountsHostLostCount : Field := ⟨.hlCounts, 63, 56, .ro, 0⟩
def hlCountsDegradedCount : Field := ⟨.hlCounts, 55, 48, .ro, 0⟩
def hlCountsCplTimeoutCount : Field := ⟨.hlCounts, 47, 40, .ro, 0⟩
def hlCountsPeerRefusedCount : Field := ⟨.hlCounts, 39, 32, .ro, 0⟩
def hlCountsNotVisibleCount : Field := ⟨.hlCounts, 31, 24, .ro, 0⟩
def hlCountsDbErrCount : Field := ⟨.hlCounts, 23, 16, .ro, 0⟩
def hlCountsLarkOvwCount : Field := ⟨.hlCounts, 15, 8, .ro, 0⟩
def hlCountsBarErrCount : Field := ⟨.hlCounts, 7, 0, .ro, 0⟩
-- HL_RP_INWIN (Table HL-8)
def hlRpInwinEn : Field := ⟨.hlRpInwin, 63, 63, .rw, 0⟩
def hlRpInwinLimit : Field := ⟨.hlRpInwin, 62, 42, .rw, 0⟩
def hlRpInwinBase : Field := ⟨.hlRpInwin, 41, 21, .rw, 0⟩
-- NET_PORT_STATUS (Table ON-4)
def netPortStatusLinkDownCount : Field := ⟨.netPortStatus, 63, 56, .ro, 0⟩
def netPortStatusCnpReceived : Field := ⟨.netPortStatus, 55, 40, .ro, 0⟩
def netPortStatusRetransmits : Field := ⟨.netPortStatus, 39, 24, .ro, 0⟩
def netPortStatusState : Field := ⟨.netPortStatus, 15, 14, .ro, 0⟩
def netPortStatusFailover : Field := ⟨.netPortStatus, 1, 1, .ro, 0⟩
def netPortStatusLinkDown : Field := ⟨.netPortStatus, 0, 0, .w1c, 0⟩
-- NET_STATUS (Table ON-5)
def netStatusReparentCount : Field := ⟨.netStatus, 63, 56, .ro, 0⟩
def netStatusChunkBadCount : Field := ⟨.netStatus, 55, 48, .ro, 0⟩
def netStatusXgroupFailCount : Field := ⟨.netStatus, 47, 40, .ro, 0⟩
def netStatusPrefix : Field := ⟨.netStatus, 39, 20, .ro, 0⟩
def netStatusFetch : Field := ⟨.netStatus, 15, 14, .ro, 0⟩
def netStatusXgroupFail : Field := ⟨.netStatus, 2, 2, .w1c, 0⟩
def netStatusChunkBad : Field := ⟨.netStatus, 1, 1, .w1c, 0⟩
def netStatusReparent : Field := ⟨.netStatus, 0, 0, .w1c, 0⟩
-- TIMER_STATUS (Table CL-4)
def timerStatusBackupEventCount : Field := ⟨.timerStatus, 23, 16, .ro, 0⟩
def timerStatusSyncErrCount : Field := ⟨.timerStatus, 15, 8, .ro, 0⟩
def timerStatusSyncErr : Field := ⟨.timerStatus, 3, 3, .w1c, 0⟩
def timerStatusBackupEvent : Field := ⟨.timerStatus, 2, 2, .w1c, 0⟩
def timerStatusBackup : Field := ⟨.timerStatus, 1, 1, .ro, 0⟩
def timerStatusLocked : Field := ⟨.timerStatus, 0, 0, .ro, 0⟩
-- DD_LINK_STATUS (Table DD-8)
def ddLinkStatusReplays : Field := ⟨.ddLinkStatus, 63, 48, .ro, 0⟩
def ddLinkStatusLaneErrCount : Field := ⟨.ddLinkStatus, 47, 40, .ro, 0⟩
def ddLinkStatusDieB : Field := ⟨.ddLinkStatus, 31, 24, .ro, 0⟩
def ddLinkStatusDieA : Field := ⟨.ddLinkStatus, 23, 16, .ro, 0⟩
def ddLinkStatusSparesAb : Field := ⟨.ddLinkStatus, 15, 12, .ro, 8⟩
def ddLinkStatusSparesBa : Field := ⟨.ddLinkStatus, 11, 8, .ro, 8⟩
def ddLinkStatusState : Field := ⟨.ddLinkStatus, 5, 4, .ro, 0⟩
def ddLinkStatusLaneErr : Field := ⟨.ddLinkStatus, 0, 0, .w1c, 0⟩
-- DD_RING_STATUS (Table DD-9)
def ddRingStatusChanFailCount : Field := ⟨.ddRingStatus, 63, 56, .ro, 0⟩
def ddRingStatusLaserSwapCount : Field := ⟨.ddRingStatus, 55, 48, .ro, 0⟩
def ddRingStatusStopUp : Field := ⟨.ddRingStatus, 35, 8, .ro, 0⟩
def ddRingStatusLost : Field := ⟨.ddRingStatus, 3, 3, .ro, 0⟩
def ddRingStatusOnSpare : Field := ⟨.ddRingStatus, 2, 2, .ro, 0⟩
def ddRingStatusChanFail : Field := ⟨.ddRingStatus, 1, 1, .w1c, 0⟩
def ddRingStatusLaserSwap : Field := ⟨.ddRingStatus, 0, 0, .w1c, 0⟩
-- DD_DIE_STATUS (Table DD-10)
def ddDieStatusLeaveCount : Field := ⟨.ddDieStatus, 31, 24, .ro, 0⟩
def ddDieStatusCause : Field := ⟨.ddDieStatus, 15, 8, .ro, 0⟩
def ddDieStatusState : Field := ⟨.ddDieStatus, 3, 2, .ro, 0⟩
def ddDieStatusRefOk : Field := ⟨.ddDieStatus, 1, 1, .ro, 0⟩
def ddDieStatusLeft : Field := ⟨.ddDieStatus, 0, 0, .w1c, 0⟩
-- DD_STATUS (Table DD-11)
def ddStatusTestRefusedCount : Field := ⟨.ddStatus, 31, 24, .ro, 0⟩
def ddStatusDegraded : Field := ⟨.ddStatus, 2, 2, .ro, 0⟩
def ddStatusDebugLocked : Field := ⟨.ddStatus, 1, 1, .ro, 0⟩
def ddStatusTestRefused : Field := ⟨.ddStatus, 0, 0, .w1c, 0⟩
-- RE_STATUS (Table RE-11)
def reStatusLastingCount : Field := ⟨.reStatus, 63, 56, .ro, 0⟩
def reStatusEscalatedCount : Field := ⟨.reStatus, 55, 48, .ro, 0⟩
def reStatusCpRestartCount : Field := ⟨.reStatus, 47, 40, .ro, 0⟩
def reStatusPending : Field := ⟨.reStatus, 39, 24, .ro, 0⟩
def reStatusSpareSwards : Field := ⟨.reStatus, 23, 16, .ro, 0xFF⟩
def reStatusCpRestart : Field := ⟨.reStatus, 3, 3, .w1c, 0⟩
def reStatusEscalated : Field := ⟨.reStatus, 2, 2, .w1c, 0⟩
def reStatusLasting : Field := ⟨.reStatus, 1, 1, .w1c, 0⟩
def reStatusTestBusy : Field := ⟨.reStatus, 0, 0, .ro, 0⟩
-- RE_COUNTS (Table RE-12)
def reCountsRecords : Field := ⟨.reCounts, 127, 96, .ro, 0⟩
def reCountsTransient : Field := ⟨.reCounts, 95, 80, .ro, 0⟩
def reCountsTests : Field := ⟨.reCounts, 79, 64, .ro, 0⟩
def reCountsLogWraps : Field := ⟨.reCounts, 63, 48, .ro, 0⟩
-- MG_STATUS (Table MG-4)
def mgStatusLatchEarlyCount : Field := ⟨.mgStatus, 63, 56, .ro, 0⟩
def mgStatusButtonCount : Field := ⟨.mgStatus, 55, 48, .ro, 0⟩
def mgStatusLight : Field := ⟨.mgStatus, 15, 12, .ro, 5⟩
def mgStatusPanel : Field := ⟨.mgStatus, 11, 10, .ro, 0⟩
def mgStatusLatchOpen : Field := ⟨.mgStatus, 9, 9, .ro, 0⟩
def mgStatusButtonHeld : Field := ⟨.mgStatus, 8, 8, .ro, 0⟩
def mgStatusLatchEarly : Field := ⟨.mgStatus, 1, 1, .w1c, 0⟩
def mgStatusButton : Field := ⟨.mgStatus, 0, 0, .w1c, 0⟩
-- MG_CTRL (Table MG-5)
def mgCtrlQuiesceWaitS : Field := ⟨.mgCtrl, 15, 8, .rw, 0x1E⟩
def mgCtrlLocate : Field := ⟨.mgCtrl, 1, 1, .rw, 0⟩
def mgCtrlButtonEn : Field := ⟨.mgCtrl, 0, 0, .rw, 1⟩

/-- The fields of a register, reserved bits left out (R7). -/
def regFields : Reg → List Field
  | .obId => [obIdFwVersion, obIdDevice, obIdStepping]
  | .obStatus => [obStatusGraphs, obStatusOpen, obStatusReady, obStatusJob, obStatusDegraded, obStatusHeadErr, obStatusFwWrite, obStatusCqWait, obStatusEqLost, obStatusEqFull, obStatusRefused]
  | .obCounts => [obCountsAccepted, obCountsHeadErrCount, obCountsFwWriteCount, obCountsCqWaitCount, obCountsEqLostCount, obCountsEqFullCount, obCountsRefusedCount]
  | .obCtrl => [obCtrlPoolWdMs]
  | .sqState => [sqStateTail, sqStateHead, sqStateDepthLog2, sqStatePrio, sqStateState]
  | .cqState => [cqStateTail, cqStateHead, cqStateLost, cqStateDepthLog2, cqStateStopped, cqStateEn]
  | .eqState => [eqStateTail, eqStateHead, eqStateLost, eqStateDepthLog2, eqStateStopped, eqStateEn]
  | .evRoute => [evRoutePend, evRouteEiidFb, evRouteHartFb, evRouteFileFb, evRouteFbV, evRouteEiid, evRouteHart, evRouteFile, evRouteToHost, evRouteEn]
  | .atCtrl => [atCtrlRoot, atCtrlFqWatchdogMs, atCtrlPfEn, atCtrlEn]
  | .atFqBase => [atFqBaseBase]
  | .atFqPtr => [atFqPtrTail, atFqPtrHead]
  | .atStatus => [atStatusFqFullCount, atStatusWalkErrCount, atStatusInfoDropCount, atStatusFqOverflows, atStatusOpenFaults, atStatusInvalBusy, atStatusInfoDrop, atStatusWalkErr, atStatusFqFull, atStatusEn]
  | .atCounts => [atCountsBufHits, atCountsWalks, atCountsPfWalks, atCountsPfHits, atCountsMerged, atCountsInvals]
  | .tfPos => [tfPosHeathId, tfPosSparePlane, tfPosPlane, tfPosY, tfPosZ, tfPosLogicalX, tfPosRank, tfPosPartId, tfPosWhole, tfPosPartUp, tfPosStrapValid]
  | .tfPortStatus => [tfPortStatusMiswiredCount, tfPortStatusLaneFailCount, tfPortStatusFenceDropCount, tfPortStatusReplays, tfPortStatusLanesUsed, tfPortStatusWidth, tfPortStatusDisabled, tfPortStatusFenced, tfPortStatusFenceDrop, tfPortStatusLaneFail, tfPortStatusMiswired]
  | .tfStatus => [tfStatusPeerLostCount, tfStatusCollFailCount, tfStatusSwapCount, tfStatusCollectives, tfStatusStrapErr, tfStatusSwap, tfStatusCollFail, tfStatusPeerLost]
  | .arithFlags => [arithFlagsBn, arithFlagsSa, arithFlagsFz, arithFlagsIx, arithFlagsUf, arithFlagsOf, arithFlagsDz, arithFlagsIv]
  | .arithCounts => [arithCountsBnCount, arithCountsSaCount, arithCountsFzCount, arithCountsIxCount, arithCountsUfCount, arithCountsOfCount, arithCountsDzCount, arithCountsIvCount]
  | .mxStatus => [mxStatusShadowTag, mxStatusActiveTag, mxStatusPoisonSet, mxStatusCheckErr, mxStatusJoined, mxStatusMode, mxStatusShadowState, mxStatusActiveValid, mxStatusQueue]
  | .mxCounts => [mxCountsOps, mxCountsLoads, mxCountsTagHits, mxCountsCheckErrs]
  | .mxRepair => [mxRepairColExcl1V, mxRepairColExcl1, mxRepairColExcl0V, mxRepairColExcl0, mxRepairRowExcl1V, mxRepairRowExcl1, mxRepairRowExcl0V, mxRepairRowExcl0]
  | .stileStatus => [stileStatusQueue, stileStatusFail, stileStatusPass, stileStatusDefer, stileStatusLogitInf, stileStatusLogitNan]
  | .stileCounts => [stileCountsInvocations, stileCountsFailCount, stileCountsPassCount, stileCountsDeferCount, stileCountsInfCount, stileCountsNanCount]
  | .veStatus => [veStatusCheckErr, veStatusRunning, veStatusWaitMx, veStatusQueue]
  | .veCounts => [veCountsChains, veCountsFootWait, veCountsInWait, veCountsCheckErrs]
  | .tgStatus => [tgStatusEccErr, tgStatusParked, tgStatusReady, tgStatusResident]
  | .tgCounts => [tgCountsIssued, tgCountsDual, tgCountsRcHits, tgCountsBankExtra, tgCountsRotations, tgCountsRfCorrected, tgCountsEccErrs]
  | .hayCtrl => [hayCtrlScrubHours, hayCtrlPfEn, hayCtrlWaysOn]
  | .hayStatus => [hayStatusWaysPowered, hayStatusLocked, hayStatusCleaning, hayStatusThermHold, hayStatusRefreshRate, hayStatusSpareLow, hayStatusThermal, hayStatusRowRepair, hayStatusUe, hayStatusCeThresh]
  | .hayCounts => [hayCountsHits, hayCountsMisses, hayCountsPfIssued, hayCountsCeCount, hayCountsCeThreshCount, hayCountsUeCount, hayCountsRepairCount, hayCountsThermalCount, hayCountsSpareLowCount]
  | .coCtrl => [coCtrlBiasBase, coCtrlTimeoutUs, coCtrlBiasEn, coCtrlMode]
  | .coStatus => [coStatusSweep, coStatusMode, coStatusBiasAbandon, coStatusProtoErr, coStatusDirErr, coStatusAgentLost, coStatusPinFull, coStatusTimeout]
  | .coCounts => [coCountsNacks, coCountsPended, coCountsRecalls, coCountsStale, coCountsAutoFlips, coCountsTimeoutCount, coCountsPinFullCount, coCountsAgentLostCount, coCountsDirErrCount, coCountsProtoErrCount, coCountsBiasAbandonCount]
  | .resStatus => [resStatusQuiesced, resStatusArmed, resStatusPoison, resStatusStall]
  | .resCounts => [resCountsLifts, resCountsHits, resCountsStallCount, resCountsPoisonCount]
  | .lmStatus => [lmStatusPoolFree, lmStatusPoolLargest, lmStatusPoison, lmStatusCheckErr, lmStatusPoolWait, lmStatusRunning, lmStatusGated, lmStatusQueued]
  | .lmCounts => [lmCountsDescriptors, lmCountsRetranslated, lmCountsPoolWaits, lmCountsCheckErrs, lmCountsPoisonCount]
  | .tsCounts => [tsCountsStoreWait, tsCountsPoolCorrected, tsCountsStoreCorrected]
  | .stepRate => [stepRateSteps]
  | .pwCtrl => [pwCtrlCapW, pwCtrlMgmtCapW, pwCtrlGateIdleUs, pwCtrlLearn]
  | .pwStatus => [pwStatusThrottleCount, pwStatusOvercapCount, pwStatusSensorErrCount, pwStatusAgeCount, pwStatusInputW, pwStatusPhase, pwStatusPhaseV, pwStatusAge, pwStatusSensorErr, pwStatusOvercap, pwStatusThrottle]
  | .tuftCeil => [tuftCeilCeil, tuftCeilFused, tuftCeilState]
  | .swardPw => [swardPwDroopEvents, swardPwBudgetW, swardPwSetpointMv, swardPwDuty, swardPwGated, swardPwGuard]
  | .dieTemp => [dieTempPeak, dieTempTemp, dieTempBand, dieTempSensorsOk]
  | .sbStatus => [sbStatusStartCount, sbStatusStartCause, sbStatusStartType, sbStatusWarmFails, sbStatusColdFails, sbStatusFullTest, sbStatusDebugLocked, sbStatusVerifyFailCount, sbStatusFallbackCount, sbStatusBanks, sbStatusScrubPending, sbStatusVerifyFail, sbStatusFallback]
  | .hlStatus => [hlStatusLinkEpoch, hlStatusWidth, hlStatusSpeed, hlStatusRole, hlStatusMemActive, hlStatusBme, hlStatusLinkUp, hlStatusBarErr, hlStatusLarkOvw, hlStatusDbErr, hlStatusNotVisible, hlStatusPeerRefused, hlStatusCplTimeout, hlStatusDegraded, hlStatusHostLost]
  | .hlCounts => [hlCountsRetrains, hlCountsRereads, hlCountsMemEarly, hlCountsHostLostCount, hlCountsDegradedCount, hlCountsCplTimeoutCount, hlCountsPeerRefusedCount, hlCountsNotVisibleCount, hlCountsDbErrCount, hlCountsLarkOvwCount, hlCountsBarErrCount]
  | .hlRpInwin => [hlRpInwinEn, hlRpInwinLimit, hlRpInwinBase]
  | .netPortStatus => [netPortStatusLinkDownCount, netPortStatusCnpReceived, netPortStatusRetransmits, netPortStatusState, netPortStatusFailover, netPortStatusLinkDown]
  | .netStatus => [netStatusReparentCount, netStatusChunkBadCount, netStatusXgroupFailCount, netStatusPrefix, netStatusFetch, netStatusXgroupFail, netStatusChunkBad, netStatusReparent]
  | .timerStatus => [timerStatusBackupEventCount, timerStatusSyncErrCount, timerStatusSyncErr, timerStatusBackupEvent, timerStatusBackup, timerStatusLocked]
  | .ddLinkStatus => [ddLinkStatusReplays, ddLinkStatusLaneErrCount, ddLinkStatusDieB, ddLinkStatusDieA, ddLinkStatusSparesAb, ddLinkStatusSparesBa, ddLinkStatusState, ddLinkStatusLaneErr]
  | .ddRingStatus => [ddRingStatusChanFailCount, ddRingStatusLaserSwapCount, ddRingStatusStopUp, ddRingStatusLost, ddRingStatusOnSpare, ddRingStatusChanFail, ddRingStatusLaserSwap]
  | .ddDieStatus => [ddDieStatusLeaveCount, ddDieStatusCause, ddDieStatusState, ddDieStatusRefOk, ddDieStatusLeft]
  | .ddStatus => [ddStatusTestRefusedCount, ddStatusDegraded, ddStatusDebugLocked, ddStatusTestRefused]
  | .reStatus => [reStatusLastingCount, reStatusEscalatedCount, reStatusCpRestartCount, reStatusPending, reStatusSpareSwards, reStatusCpRestart, reStatusEscalated, reStatusLasting, reStatusTestBusy]
  | .reCounts => [reCountsRecords, reCountsTransient, reCountsTests, reCountsLogWraps]
  | .mgStatus => [mgStatusLatchEarlyCount, mgStatusButtonCount, mgStatusLight, mgStatusPanel, mgStatusLatchOpen, mgStatusButtonHeld, mgStatusLatchEarly, mgStatusButton]
  | .mgCtrl => [mgCtrlQuiesceWaitS, mgCtrlLocate, mgCtrlButtonEn]

def flObStatusHeadErr : Flag := ⟨obStatusHeadErr, obCountsHeadErrCount⟩
def flObStatusFwWrite : Flag := ⟨obStatusFwWrite, obCountsFwWriteCount⟩
def flObStatusCqWait : Flag := ⟨obStatusCqWait, obCountsCqWaitCount⟩
def flObStatusEqLost : Flag := ⟨obStatusEqLost, obCountsEqLostCount⟩
def flObStatusEqFull : Flag := ⟨obStatusEqFull, obCountsEqFullCount⟩
def flObStatusRefused : Flag := ⟨obStatusRefused, obCountsRefusedCount⟩
def flAtStatusInfoDrop : Flag := ⟨atStatusInfoDrop, atStatusInfoDropCount⟩
def flAtStatusWalkErr : Flag := ⟨atStatusWalkErr, atStatusWalkErrCount⟩
def flAtStatusFqFull : Flag := ⟨atStatusFqFull, atStatusFqFullCount⟩
def flTfPortStatusFenceDrop : Flag := ⟨tfPortStatusFenceDrop, tfPortStatusFenceDropCount⟩
def flTfPortStatusLaneFail : Flag := ⟨tfPortStatusLaneFail, tfPortStatusLaneFailCount⟩
def flTfPortStatusMiswired : Flag := ⟨tfPortStatusMiswired, tfPortStatusMiswiredCount⟩
def flTfStatusSwap : Flag := ⟨tfStatusSwap, tfStatusSwapCount⟩
def flTfStatusCollFail : Flag := ⟨tfStatusCollFail, tfStatusCollFailCount⟩
def flTfStatusPeerLost : Flag := ⟨tfStatusPeerLost, tfStatusPeerLostCount⟩
def flArithFlagsBn : Flag := ⟨arithFlagsBn, arithCountsBnCount⟩
def flArithFlagsSa : Flag := ⟨arithFlagsSa, arithCountsSaCount⟩
def flArithFlagsFz : Flag := ⟨arithFlagsFz, arithCountsFzCount⟩
def flArithFlagsIx : Flag := ⟨arithFlagsIx, arithCountsIxCount⟩
def flArithFlagsUf : Flag := ⟨arithFlagsUf, arithCountsUfCount⟩
def flArithFlagsOf : Flag := ⟨arithFlagsOf, arithCountsOfCount⟩
def flArithFlagsDz : Flag := ⟨arithFlagsDz, arithCountsDzCount⟩
def flArithFlagsIv : Flag := ⟨arithFlagsIv, arithCountsIvCount⟩
def flStileStatusFail : Flag := ⟨stileStatusFail, stileCountsFailCount⟩
def flStileStatusPass : Flag := ⟨stileStatusPass, stileCountsPassCount⟩
def flStileStatusDefer : Flag := ⟨stileStatusDefer, stileCountsDeferCount⟩
def flStileStatusLogitInf : Flag := ⟨stileStatusLogitInf, stileCountsInfCount⟩
def flStileStatusLogitNan : Flag := ⟨stileStatusLogitNan, stileCountsNanCount⟩
def flVeStatusCheckErr : Flag := ⟨veStatusCheckErr, veCountsCheckErrs⟩
def flTgStatusEccErr : Flag := ⟨tgStatusEccErr, tgCountsEccErrs⟩
def flHayStatusSpareLow : Flag := ⟨hayStatusSpareLow, hayCountsSpareLowCount⟩
def flHayStatusThermal : Flag := ⟨hayStatusThermal, hayCountsThermalCount⟩
def flHayStatusRowRepair : Flag := ⟨hayStatusRowRepair, hayCountsRepairCount⟩
def flHayStatusUe : Flag := ⟨hayStatusUe, hayCountsUeCount⟩
def flHayStatusCeThresh : Flag := ⟨hayStatusCeThresh, hayCountsCeThreshCount⟩
def flCoStatusBiasAbandon : Flag := ⟨coStatusBiasAbandon, coCountsBiasAbandonCount⟩
def flCoStatusProtoErr : Flag := ⟨coStatusProtoErr, coCountsProtoErrCount⟩
def flCoStatusDirErr : Flag := ⟨coStatusDirErr, coCountsDirErrCount⟩
def flCoStatusAgentLost : Flag := ⟨coStatusAgentLost, coCountsAgentLostCount⟩
def flCoStatusPinFull : Flag := ⟨coStatusPinFull, coCountsPinFullCount⟩
def flCoStatusTimeout : Flag := ⟨coStatusTimeout, coCountsTimeoutCount⟩
def flResStatusPoison : Flag := ⟨resStatusPoison, resCountsPoisonCount⟩
def flResStatusStall : Flag := ⟨resStatusStall, resCountsStallCount⟩
def flLmStatusPoison : Flag := ⟨lmStatusPoison, lmCountsPoisonCount⟩
def flLmStatusCheckErr : Flag := ⟨lmStatusCheckErr, lmCountsCheckErrs⟩
def flLmStatusPoolWait : Flag := ⟨lmStatusPoolWait, lmCountsPoolWaits⟩
def flPwStatusAge : Flag := ⟨pwStatusAge, pwStatusAgeCount⟩
def flPwStatusSensorErr : Flag := ⟨pwStatusSensorErr, pwStatusSensorErrCount⟩
def flPwStatusOvercap : Flag := ⟨pwStatusOvercap, pwStatusOvercapCount⟩
def flPwStatusThrottle : Flag := ⟨pwStatusThrottle, pwStatusThrottleCount⟩
def flSbStatusVerifyFail : Flag := ⟨sbStatusVerifyFail, sbStatusVerifyFailCount⟩
def flSbStatusFallback : Flag := ⟨sbStatusFallback, sbStatusFallbackCount⟩
def flHlStatusBarErr : Flag := ⟨hlStatusBarErr, hlCountsBarErrCount⟩
def flHlStatusLarkOvw : Flag := ⟨hlStatusLarkOvw, hlCountsLarkOvwCount⟩
def flHlStatusDbErr : Flag := ⟨hlStatusDbErr, hlCountsDbErrCount⟩
def flHlStatusNotVisible : Flag := ⟨hlStatusNotVisible, hlCountsNotVisibleCount⟩
def flHlStatusPeerRefused : Flag := ⟨hlStatusPeerRefused, hlCountsPeerRefusedCount⟩
def flHlStatusCplTimeout : Flag := ⟨hlStatusCplTimeout, hlCountsCplTimeoutCount⟩
def flHlStatusDegraded : Flag := ⟨hlStatusDegraded, hlCountsDegradedCount⟩
def flHlStatusHostLost : Flag := ⟨hlStatusHostLost, hlCountsHostLostCount⟩
def flNetPortStatusLinkDown : Flag := ⟨netPortStatusLinkDown, netPortStatusLinkDownCount⟩
def flNetStatusXgroupFail : Flag := ⟨netStatusXgroupFail, netStatusXgroupFailCount⟩
def flNetStatusChunkBad : Flag := ⟨netStatusChunkBad, netStatusChunkBadCount⟩
def flNetStatusReparent : Flag := ⟨netStatusReparent, netStatusReparentCount⟩
def flTimerStatusSyncErr : Flag := ⟨timerStatusSyncErr, timerStatusSyncErrCount⟩
def flTimerStatusBackupEvent : Flag := ⟨timerStatusBackupEvent, timerStatusBackupEventCount⟩
def flDdLinkStatusLaneErr : Flag := ⟨ddLinkStatusLaneErr, ddLinkStatusLaneErrCount⟩
def flDdRingStatusChanFail : Flag := ⟨ddRingStatusChanFail, ddRingStatusChanFailCount⟩
def flDdRingStatusLaserSwap : Flag := ⟨ddRingStatusLaserSwap, ddRingStatusLaserSwapCount⟩
def flDdDieStatusLeft : Flag := ⟨ddDieStatusLeft, ddDieStatusLeaveCount⟩
def flDdStatusTestRefused : Flag := ⟨ddStatusTestRefused, ddStatusTestRefusedCount⟩
def flReStatusCpRestart : Flag := ⟨reStatusCpRestart, reStatusCpRestartCount⟩
def flReStatusEscalated : Flag := ⟨reStatusEscalated, reStatusEscalatedCount⟩
def flReStatusLasting : Flag := ⟨reStatusLasting, reStatusLastingCount⟩
def flMgStatusLatchEarly : Flag := ⟨mgStatusLatchEarly, mgStatusLatchEarlyCount⟩
def flMgStatusButton : Flag := ⟨mgStatusButton, mgStatusButtonCount⟩

/-- Value of a register that its fields' reset values make up. -/
def regReset (r : Reg) : Nat := (regFields r).foldl (fun v f => v + f.rst * 2 ^ f.lo) 0

/-- The register a REG_ID names. -/
def regOfId (i : Nat) : Option Reg := allRegs.find? (fun r => regId r == i)

end Sys2Proof.Machine
end

