-- ==== Sys2Proof/Machine/Bits.lean ====
section
/-! DEFINITION. Sys2Proof/Machine/Bits.lean: bit fields, sign extension and packing, by which every layout is read and
written. -/
namespace Sys2Proof.Machine

/-- Bits [hi:lo] of a number, as Table layouts give them (R4). -/
def bitsOf (v hi lo : Nat) : Nat := (v >>> lo) % 2 ^ (hi + 1 - lo)

/-- `v` with bits [hi:lo] replaced by `x`. -/
def withBits (v hi lo x : Nat) : Nat :=
  v - ((v >>> lo) % 2 ^ (hi + 1 - lo)) * 2 ^ lo + (x % 2 ^ (hi + 1 - lo)) * 2 ^ lo

/-- A Bool as a one-bit number. -/
def bit (b : Bool) : Nat := if b then 1 else 0

/-- A w-bit pattern read as a two's-complement integer. -/
def signedOf (w v : Nat) : Int := if v % 2 ^ w < 2 ^ (w - 1) then (v % 2 ^ w : Nat) else (v % 2 ^ w : Nat) - (2 ^ w : Nat)

/-- An integer as the two's-complement pattern of w bits. -/
def ofSigned (w : Nat) (x : Int) : Nat := (x % (2 ^ w : Nat)).toNat

/-- The parts of a word: (value, low bit) pairs placed and added. -/
def packBits (parts : List (Nat × Nat)) : Nat := parts.foldl (fun a p => a + p.1 * 2 ^ p.2) 0

end Sys2Proof.Machine
end

