-- ==== Sys2Proof/Machine/Tables.lean ====
section
/-! DEFINITION. Sys2Proof/Machine/Tables.lean: sparse tables by number, in one canonical form: keys strictly rising. -/
namespace Sys2Proof.Machine

/-- A sparse table: (number, entry) pairs, numbers strictly rising. -/
abbrev Table (α : Type) := List (Nat × α)

/-- The entry of number `k`, if the table lists one. -/
def tget {α : Type} : Table α → Nat → Option α
  | [], _ => none
  | (j, a) :: t, k => if j = k then some a else tget t k

/-- The entry of number `k`, or `d`. -/
def tgetD {α : Type} (t : Table α) (k : Nat) (d : α) : α := (tget t k).getD d

/-- The table with entry `a` at number `k`. -/
def tput {α : Type} : Table α → Nat → α → Table α
  | [], k, a => [(k, a)]
  | (j, b) :: t, k, a => if k < j then (k, a) :: (j, b) :: t else if k = j then (k, a) :: t else (j, b) :: tput t k a

/-- The table without an entry at number `k`. -/
def tdel {α : Type} : Table α → Nat → Table α
  | [], _ => []
  | (j, b) :: t, k => if j = k then t else (j, b) :: tdel t k

/-- The table whose entry at `k` is `f` of the present one, or of `d`. -/
def tmod {α : Type} (t : Table α) (k : Nat) (d : α) (f : α → α) : Table α := tput t k (f (tgetD t k d))

/-- The numbers of a table are strictly rising. -/
def tableWf {α : Type} : Table α → Bool
  | [] => true
  | [_] => true
  | (j, _) :: (k, b) :: t => decide (j < k) && tableWf ((k, b) :: t)

/-- A sorted set of numbers with `k` in it. -/
def setAdd : List Nat → Nat → List Nat
  | [], k => [k]
  | j :: t, k => if k < j then k :: j :: t else if k = j then j :: t else j :: setAdd t k

/-- A set of numbers without `k`. -/
def setDel (l : List Nat) (k : Nat) : List Nat := l.filter (· != k)

/-- The `n` numbers from `a` on. -/
def span (a n : Nat) : List Nat := (List.range n).map (a + ·)

end Sys2Proof.Machine
end

