-- ==== Sys2Proof/Machine/State.lean ====
section
/-! DEFINITION. Sys2Proof/Machine/State.lean: every piece of state the spec gives the module, as plain data, and the
state at reset. Registers of the spec lie in `regs`, one entry for each (REG_ID, UNIT) whose value is not the reset value
that Machine/Regs.lean gives; device memory lies in `mem`. -/
namespace Sys2Proof.Machine

/-- Reasons a command stops the machine with a fault. The spec lets no command stop the module (an error is a record,
a refusal code or a trip, each of them a next state), so there is none. -/
inductive Fault where
  deriving DecidableEq, Repr

/-- Reasons for which a command is refused by the model. -/
inductive Refusal where
  /-- Raised by an arm of `exec` whose row has no meaning yet; safe. -/
  | notModelled (mnemonic : String)
  deriving DecidableEq, Repr

/-- A write to device memory that the command being executed makes: one byte, or a range of zeros. -/
inductive MemOp where
  | put (a : Nat) (b : Byte)
  | zero (a n : Nat)
  deriving DecidableEq, Repr

/-- A message the module sends out over the host link: kind, address or vector, length in bytes, value, poisoned (EP), Relaxed
Ordering (R371). -/
inductive HostMsg where
  | memWrite (addr len val : Nat) (poisoned relaxed : Bool)
  | memRead (addr len tag : Nat)
  | msix (vector : Nat)
  | d2h (kind addr : Nat)
  | completion (len val : Nat) (poisoned : Bool)
  | unsupported
  | snoopAnswer
  | cfgRead (bus fn off : Nat)
  | cfgWrite (bus fn off len val : Nat)
  deriving DecidableEq, Repr

/-- One hop of a burst through the tensor fabric: the port it leaves by and its dateline class (R427). -/
structure FabHop where
  port : Nat := 0
  cls : Nat := 0
  deriving DecidableEq, Repr

/-- A message the module sends into the tensor fabric: a burst of a copy, dispatch counts, a segment start, an
acknowledgement, a refusal, a barrier message, collective fields, a member's data for a collective with its poisoned 32-byte pieces,
a read of another module by a copy or a COMBINE, what an end of a link sends while the link trains (R419); ranks name modules. A
burst names its poisoned 32-byte pieces, counted from its first byte, and its route. -/
inductive FabMsg where
  | burst (rank seq va len val : Nat) (poisoned : List Nat) (route : List FabHop)
  | count (rank buf round expert source count : Nat)
  | segment (source buf round expert start : Nat)
  | readRow (rank va len : Nat)
  | ack (source burst : Nat)
  | refuse (source burst : Nat)
  | barrier (rank : Nat)
  | fields (rank : Nat) (words : List Nat)
  | collData (rank val : Nat) (poisoned : List Nat)
  | hello (port heath plane y z spare part : Nat)
  deriving DecidableEq, Repr

/-- An error record before it is laid out in 32 bytes (Table RE-2). -/
structure ErrRec where
  time : Nat := 0
  detail : Nat := 0
  reason : Nat := 0
  id : Nat := 0
  link : Nat := 0
  unit : Nat := 0
  subunit : Nat := 0xFFFF
  cls : Nat := 0
  level : Nat := 0
  verdict : Nat := 0
  injected : Bool := false
  repaired : Bool := false
  out : Bool := false
  start : Bool := false
  deriving DecidableEq, Repr, Inhabited

/-- An event record before it is laid out in 64 bytes (Table CF-19). -/
structure EvRec where
  time : Nat := 0
  detail : Nat := 0
  reason : Nat := 0
  unit : Nat := 0
  kind : Nat := 0
  body : Nat := 0
  deriving DecidableEq, Repr, Inhabited

/-- What stands behind a completion or event queue beside its register (R395, R396): ring base, records reserved, an
interrupt raised and not yet answered by a HEAD write. -/
structure RingQ where
  base : Nat := 0
  resv : Nat := 0
  irqOut : Bool := false
  deriving DecidableEq, Repr, Inhabited

/-- What stands behind a submission queue beside SQ_STATE: ring base, the entry of the head command that is not visible, its
re-reads left, a fresh budget granted meanwhile, the budget exhausted, whether REREADS has counted it (R374); the head command waits, and its wait is
counted (R396). -/
structure SubQ where
  base : Nat := 0
  entry : Nat := 0
  rereads : Nat := 0
  fresh : Bool := false
  gone : Bool := false
  counted : Bool := false
  blocked : Bool := false
  waitCounted : Bool := false
  deriving DecidableEq, Repr, Inhabited

/-- A command accepted and not completed (R390): its door, words, the epoch at acceptance, the records it reserves as
(queue, number), whether its execution has begun, and its place in the order of acceptance. -/
structure OpenCmd where
  id : Nat
  door : Door
  words : List W64
  epoch : Nat := 0
  want : List (Nat × Nat) := []
  resv : List (Nat × Nat) := []
  started : Bool := false
  deriving DecidableEq, Repr

/-- The job record the control processor keeps (R400). -/
structure JobRec where
  seed : Nat := 0
  arith : Nat := 0x11
  jobId : Nat := 0
  rank : Nat := 0
  areaBase : Nat := 0
  areaBytes : Nat := 0
  fqBase : Nat := 0
  deriving DecidableEq, Repr, Inhabited

/-- The control processor and the Obiolo interface (R389–R413). -/
structure ObState where
  sq : Table SubQ := []
  cq : Table RingQ := []
  eq : RingQ := {}
  held : List EvRec := []
  dropped : Nat := 0
  openCmds : List OpenCmd := []
  nextId : Nat := 0
  lastSq : Table Nat := []
  job : JobRec := {}
  /-- JOB_DESTROY in progress: commands accepted after it that need a job are refused (R401). -/
  destroying : Option Nat := none
  /-- The control processor restarts (R511); package-timer time of its last restart. -/
  restarting : Bool := false
  lastRestart : Option Nat := none
  deriving DecidableEq, Repr

/-- A unit out of service: level, unit and subunit as in Table RE-2, whether UNIT_CTRL withdrew it. -/
structure OutUnit where
  level : Nat
  unit : Nat
  subunit : Nat := 0xFFFF
  software : Bool := false
  deriving DecidableEq, Repr

/-- Error handling (R499–R516): next RECORD_ID, records without a verdict, the flash error log ring with its read marks. -/
structure ErrState where
  nextId : Nat := 0
  pend : List ErrRec := []
  log : Table (ErrRec × Bool) := []
  logCount : Nat := 0
  /-- Units out of service with, for each, whether software withdrew it (R507–R509, R514). -/
  out : List OutUnit := []
  /-- Transient verdicts kept in module flash (R504): level, unit, what of the unit, class, package-timer time; a warm start
  shifts the times below zero. -/
  hist : List (Nat × Nat × Nat × Nat × Int) := []
  /-- Targeted self-tests that SELF_TEST started: command, level, unit, subunit (R514). -/
  selfTests : List (Nat × Nat × Nat × Nat) := []
  /-- UNIT_CTRL commands that wait for running work: command, level, unit. -/
  drains : List (Nat × Nat × Nat) := []
  /-- Firmware's map of logical Swards, Meadow × 16 + Sward, to physical positions 0–16 (R3, R508): those that do not stand at the
  position of their own number. The spare position is 16 (log entry 141). -/
  swardPos : Table Nat := []
  /-- Swards being remapped onto the spare: Sward, subunit, LINK, reason (R508). -/
  remaps : List (Nat × Nat × Nat × Nat) := []
  deriving DecidableEq, Repr

/-- The package timer (R36–R41): the master count, each die's skew against it and causal floor. -/
structure TimerState where
  master : Nat := 0
  skew : Table Int := []
  /-- Of each copy: the difference that its last synchronisation found and that it has not yet made good by holding or counting
  at double rate (R38). -/
  slew : Table Int := []
  /-- Of each copy: nanoseconds by which it is still to drift before its next synchronisation. -/
  drift : Table Int := []
  floor : Table Nat := []
  deriving DecidableEq, Repr

/-- An MSI-X table entry (R378). -/
structure MsixEntry where
  addr : Nat := 0
  data : Nat := 0
  masked : Bool := true
  deriving DecidableEq, Repr, Inhabited

/-- A Lark slot (R375): request and answer of 256 bytes each, whether it is busy (R377), whether its request has been
accepted, re-reads left while it is not visible (R376). -/
structure LarkSlot where
  req : Nat := 0
  ans : Nat := 0
  busy : Bool := false
  taken : Bool := false
  rereads : Nat := 0
  deriving DecidableEq, Repr, Inhabited

/-- A contiguous stretch of a copy: source and destination (physical address or offset) with the virtual addresses they
were translated from, and length. -/
structure Piece where
  src : Nat
  srcVa : Nat := 0
  dst : Nat
  dstVa : Nat := 0
  len : Nat
  deriving DecidableEq, Repr

/-- Configuration space of function 0 in the attached role (R357, R359, R360, R363): identifiers; BAR0, 64-bit and non-prefetchable, and
BAR2, 64-bit and prefetchable, with their base addresses; error status of AER, completion timeout in ms; base, size and commitment of
the HDM decoder. The host's configuration writes are no command (log entry 190). -/
structure FnConfig where
  deviceId : Nat := 0x9416
  revision : Nat := 0xA0
  classCode : Nat := 0x120000
  bar0 : Nat := 0x4
  bar2 : Nat := 0xC
  aerUncorrectable : Nat := 0
  aerCorrectable : Nat := 0
  timeoutMs : Nat := 50
  hdmBase : Nat := 0
  hdmSize : Nat := 0
  hdmOn : Bool := false
  deriving DecidableEq, Repr, Inhabited

/-- The host link beside its registers. -/
structure LinkState where
  fn : FnConfig := {}
  msix : Table MsixEntry := []
  pba : List Nat := []
  msixEn : Bool := false
  dState : Nat := 0
  lark : Table LarkSlot := []
  /-- Self-hosted role: the root port's Type 1 configuration header by 4-byte word (R366). -/
  rpCfg : Table Nat := []
  /-- Reads of host memory that copies have outstanding, by tag: copy and what it moves (R379). -/
  reads : Table (Nat × Piece) := []
  nextRead : Nat := 1
  /-- SPEED_CAP in force since the last cold start (R358). -/
  speedCap : Nat := 0
  /-- Requests held while the function is in D3hot (R359), newest first. -/
  heldOut : List HostMsg := []
  /-- What the last configuration read through ECAM returned. -/
  lastCfg : Nat := 0
  deriving DecidableEq, Repr

/-- A hart: what its last access returned, kind of the fault it took (access faults 1 instruction, 2 load, 3 store/AMO; 4 an illegal
instruction), privilege mode (3 M, 1 S, 0 U), satp, timer comparators and the timer interrupts raised, running, entry address and a0
at its start, F and D registers, fcsr, cycle and instruction counters (R341–R355). -/
structure Hart where
  result : Nat := 0
  fault : Nat := 0
  mode : Nat := 3
  satp : Nat := 0
  mtimecmp : Nat := 0
  stimecmp : Nat := 0
  mtip : Bool := false
  stip : Bool := false
  running : Bool := false
  pc : Nat := 0
  a0 : Nat := 0
  fregs : Table Nat := []
  fcsr : Nat := 0
  mcycle : Nat := 0
  minstret : Nat := 0
  deriving DecidableEq, Repr, Inhabited

/-- Registers of an interrupt file beside its pending identities (R352): delivery, threshold, enabled identities. -/
structure ImsicFile where
  delivery : Bool := false
  threshold : Nat := 0
  enabled : List Nat := []
  deriving DecidableEq, Repr, Inhabited

/-- The application cores; interrupt files by hart × 2, plus one at M level. -/
structure CoreState where
  imsic : Table (List Nat) := []
  files : Table ImsicFile := []
  /-- Load reservations: hart and reserved line (R346). -/
  resv : Table Nat := []
  harts : Table Hart := []
  deriving DecidableEq, Repr

/-- A line of a Hayloft slice: its tag, a valid bit and a dirty bit for each sector, and the prefetch stream that brought it
(R270, R274). Data is held once, in `mem` (log entry 4). -/
structure SliceLine where
  tag : Nat := 0
  valid : Nat := 0
  dirty : Nat := 0
  stream : Option Nat := none
  deriving DecidableEq, Repr, Inhabited

/-- What a home asks of its slice for one line: its port, sectors read and the one of them first asked for, sectors written whole,
sectors written in part. -/
structure SliceReq where
  line : Nat
  port : Nat
  read : Nat := 0
  first : Nat := 0
  full : Nat := 0
  part : Nat := 0
  deriving DecidableEq, Repr

/-- A miss entry: line, sectors still to arrive in order, those of them that a merged write makes dirty, requests merged, whether
it holds a prefetch credit, port whose credit it holds (R271, R272). -/
structure MissEntry where
  line : Nat
  todo : List Nat := []
  after : Nat := 0
  merged : Nat := 0
  prefetch : Bool := false
  port : Nat := 0
  deriving DecidableEq, Repr

/-- A prefetch stream (R274): number, requester, last line, delta, times seen, distance, misses without use, when it was last trained or hit,
and when last trained. -/
structure PfStream where
  id : Nat := 0
  requester : Nat
  last : Nat
  delta : Int := 0
  seen : Nat := 0
  dist : Nat := 2
  idle : Nat := 0
  stamp : Nat := 0
  trained : Nat := 0
  deriving DecidableEq, Repr

/-- A request of a channel's controller: number, channel, address, write, gone ahead after 2 µs (R267). -/
structure CtrlReq where
  id : Nat
  chan : Nat
  addr : Nat
  write : Bool := false
  first : Bool := false
  deriving DecidableEq, Repr

/-- One Hayloft die with its stack, beside its registers (R266–R283). -/
structure HayState where
  lines : Table SliceLine := []
  plru : Table Nat := []
  powered : Nat := 0xFFFF
  lockedWays : Nat := 0
  cleaning : Nat := 0
  /-- Sets below this one have been visited by the cleaning of ways (R273). -/
  cleanPos : Nat := 0
  waking : Nat := 0
  disabledWays : Nat := 0
  retiredLocs : List Nat := []
  misses : List MissEntry := []
  /-- Requests without a credit, a way or room in a miss entry, oldest first (R272). -/
  held : List SliceReq := []
  streams : List PfStream := []
  pfClock : Nat := 0
  pfNext : Nat := 0
  /-- Requests to the stack in the order issued; the first 64 of a channel stand in its command queue (R267). -/
  ctrlQueue : List CtrlReq := []
  ctrlNext : Nat := 0
  /-- The row open in each bank, by channel, rank and bank. -/
  openRows : Table Nat := []
  /-- Package-timer times of the corrected errors of each row, newest first, since the start (R278). -/
  ceTimes : Table (List Nat) := []
  /-- Spare rows used in each bank, and rows mapped onto a spare (R280). -/
  sparesUsed : Table Nat := []
  rowMap : Table Nat := []
  band : StackBand := .upTo85
  scrubPos : Nat := 0
  deriving DecidableEq, Repr

/-- A directory entry (Table CO-1) without its check code; `stamp` orders use. STATE 0 U, 1 S, 2 X. -/
structure DirEnt where
  st : Nat := 0
  resv : Option Nat := none
  sharers : Nat := 0
  tag : Nat := 0
  /-- Slot of the transaction open on the line, if one is. -/
  txn : Option Nat := none
  stamp : Nat := 0
  deriving DecidableEq, Repr, Inhabited

/-- Who makes a request of a home: the agent of a port as a row brings it; the outside host over CXL.mem (R308); the control
processor, which waits for no answer; an access that a larger effect makes as a whole, with what it asks of the slice. -/
inductive ReqBy where
  | row
  | cxl
  | cp
  | whole (q : SliceReq)
  deriving DecidableEq, Repr

/-- Requests of Table CO-2, a directory recall (R291), and a host read that may modify (R308). -/
inductive ReqKind where
  | rds | rdx | upg | ncrd | ncwr | recall | hostOwn | eccSweep
  deriving DecidableEq, Repr

/-- A request at a home: kind, requester's port (agents 0–9 are ports 0–9), sectors, the sector of the first byte asked for
(R271), write payload, and who makes it (R308). Log entry 155. -/
structure HomeReq where
  kind : ReqKind
  port : Nat
  line : Nat
  sectors : Nat := 15
  first : Nat := 0
  write : Option NcWrite := none
  by_ : ReqBy := .row
  deriving DecidableEq, Repr

/-- Open states of a transaction (Tables CO-6, CO-7). -/
inductive TxnPhase where
  | os | ow | om | oa
  deriving DecidableEq, Repr

/-- An open transaction: its request, phase, agents whose response is awaited, owner snooped, the owner's answers, a
device-to-host request outstanding. -/
structure Txn where
  req : HomeReq
  phase : TxnPhase
  await : Nat := 0
  owner : Option Nat := none
  ownerKeepsS : Bool := false
  wbp : Bool := false
  wbApplied : Bool := false
  dirty : Nat := 0
  d2h : Bool := false
  wasSharer : Bool := false
  deriving DecidableEq, Repr

/-- Messages between homes and agents (Table CO-2), as sent. -/
inductive CohMsgKind where
  | rds | rdx | upg | ncrd | ncwr | wbm | wbc | evs | snps | snpi | rsps | rspi | rspsd | rspid | cmpack
  | datas | datax | gntx | ncdata | ncack | nack | wback
  deriving DecidableEq, Repr

/-- What a message takes between two dies: electrical links in order, or an optical ring (R461). -/
inductive LoamPath where
  | links (ls : List Nat)
  | ring (r : Nat)
  deriving DecidableEq, Repr

/-- What NcData and NcAck bring: sectors, their bytes, or the old value of an atomic; poison of each sector; who asked. -/
structure NcAnswer where
  sectors : Nat := 0
  value : Nat := 0
  poison : Nat := 0
  by_ : ReqBy := .row
  deriving DecidableEq, Repr

/-- A message in flight: kind, port of the agent, line, whether it travels to the agent, a flag (WBP of RspI; a Nack of a
non-caching request; a completion that grants nothing and is poisoned), the path it takes, what it brings, of a REQ the sector of
the first byte asked for, and the low 16 bits of the sending die's timer copy as it left (R39). -/
structure CohMsg where
  kind : CohMsgKind
  port : Nat
  line : Nat
  toAgent : Bool
  flag : Bool := false
  via : LoamPath := .links []
  answer : NcAnswer := {}
  first : Nat := 0
  stamp : Nat := 0
  deriving DecidableEq, Repr

/-- States of a line at a caching agent (Tables CO-3, CO-4); a line not listed is I with nothing outstanding. -/
inductive CacheSt where
  | i | s | e | m | w
  deriving DecidableEq, Repr

/-- A line at a caching agent: state, request outstanding, held for want of a credit, nacked and waiting to re-send,
stores and loads that wait, the sector of the first byte asked for. -/
structure CacheLine where
  st : CacheSt := .i
  req : Option ReqKind := none
  held : Bool := false
  nacked : Bool := false
  stores : List LineWrite := []
  loads : Nat := 0
  first : Nat := 0
  deriving DecidableEq, Repr, Inhabited

/-- Pages on their way to device bias (R309): pages left, pages touched by the host, lines with a device-to-host request
outstanding and lines still to be sent one, pages abandoned. -/
structure BiasFlip where
  cmd : Nat
  pages : List Nat
  touched : List Nat := []
  awaiting : List Nat := []
  todo : List Nat := []
  abandoned : Nat := 0
  deriving DecidableEq, Repr

/-- What a command waits for at a home: an access with what it asks of the slice, or an agent's cleaning or giving up of a line. -/
inductive Stuck where
  | access (k : ReqKind) (q : SliceReq)
  | settle (line : Nat)
  | clean (a line : Nat)
  | flush (a line : Nat)
  deriving DecidableEq, Repr

/-- Coherence: directories, transactions, pending lists, agents' lines, credits in use, messages in flight (R286–R310). -/
structure CohState where
  dir : Table DirEnt := []
  txns : Table Txn := []
  waiting : List HomeReq := []
  lines : Table CacheLine := []
  credits : Table Nat := []
  msgs : List CohMsg := []
  clock : Nat := 0
  /-- Homes that sweep, with the agents they sweep for as a mask. -/
  sweeping : Table Nat := []
  flips : List BiasFlip := []
  pointer : Table Nat := []
  /-- Bias caches: bias-table lines that each home holds, newest first (R306). -/
  biasCache : Table (List Nat) := []
  /-- What NcData and NcAck brought: (port, line, answer), newest first. -/
  answers : List (Nat × Nat × NcAnswer) := []
  /-- Non-caching requests that their port holds for want of a credit, oldest first (R293). -/
  ncHeld : List HomeReq := []
  /-- Non-caching requests that their home has nacked. -/
  ncNacked : List HomeReq := []
  /-- Writes to device memory that the control processor has issued and its port has not sent yet: address, bytes, value, oldest
  first. -/
  cpWrites : List (Nat × Nat × Nat) := []
  /-- What the command under way waits for at a home. -/
  stuck : Option Stuck := none
  deriving DecidableEq, Repr

/-- Who waits for a translation (R326): a path of a thread group (Tuft, group, path's lowest lane), an instruction fetch,
a copy submission or entry by number, a Stile's invocation, a command whose buffers are translated as it starts, nobody (remote,
network, probes). -/
inductive Waiter where
  | path (tuft group lane : Nat)
  | copy (id : Nat)
  | stile (meadow : Nat)
  | cmd (id : Nat)
  | none
  deriving DecidableEq, Repr

/-- An access to be translated: unit, logical Sward, Tuft, AGENT code of Table AT-7, address, kinds, sequence, waiter, made for a
command of the control processor. -/
structure XAcc where
  unit : Nat
  sward : Nat := 0
  tuft : Nat := 0
  agent : Nat
  va : Nat
  r : Bool := false
  w : Bool := false
  x : Bool := false
  seq : Option Nat := none
  who : Waiter := .none
  cp : Bool := false
  deriving DecidableEq, Repr

/-- A buffered leaf or run (R320): base address, bytes covered, physical base, rights, brought by a prefetch walk. -/
structure BufEnt where
  va : Nat
  size : Nat
  pa : Nat
  r : Bool
  w : Bool
  x : Bool
  pf : Bool := false
  deriving DecidableEq, Repr

/-- A pointer entry in a walk cache: level of the entry, address prefix, table it points to. -/
structure WalkEnt where
  level : Nat
  idx : Nat
  pa : Nat
  deriving DecidableEq, Repr

/-- An open fault (R327): its FAULT_ID, 4 KiB page, code, accesses stalled on it. -/
structure FaultSlot where
  id : Nat
  page : Nat
  reason : Nat
  accs : List XAcc
  deriving DecidableEq, Repr

/-- A translation prefetch stream (R325): submitter, last start, delta, times seen. -/
structure XStream where
  key : Nat
  last : Nat
  delta : Int := 0
  seen : Nat := 1
  deriving DecidableEq, Repr

/-- A translation unit (Table AT-3, R325, R327). -/
structure XUnit where
  sward : Table (List BufEnt) := []
  main : Table (List BufEnt) := []
  walk : List WalkEnt := []
  streams : List XStream := []
  slots : List FaultSlot := []
  noSlot : List (XAcc × Nat) := []
  deriving DecidableEq, Repr, Inhabited

/-- An INVALIDATE in progress (R332): range, units whose report is awaited, and what it serves: a command's number and
result, or a step of the running PREFETCH. -/
structure InvalRun where
  lo : Nat
  hi : Nat
  await : Nat
  cmd : Option (Nat × Nat) := none
  deriving DecidableEq, Repr

/-- A running PREFETCH (R335): command, leaves with their destinations, leaves done, whether to the host, link epoch. -/
structure PrefetchRun where
  cmd : Nat
  lo : Nat
  hi : Nat
  todo : List (Nat × Nat × Nat)
  moved : Nat := 0
  lowering : Bool := true
  toHost : Bool := false
  deriving DecidableEq, Repr

/-- Address translation beside its registers (R313–R339). -/
structure AtState where
  units : Table XUnit := []
  area : Nat := 0
  areaBytes : Nat := 0
  pages : List Nat := []
  nextFault : Nat := 0
  /-- Fault records, laid out without PHASE, that wait for queue space (R329). -/
  fqWait : List Nat := []
  irqOut : Bool := false
  ovfOut : Bool := false
  inval : Option InvalRun := none
  prefetch : Option PrefetchRun := none
  /-- Writes that met a page a PREFETCH is moving (R335). -/
  moveWait : List XAcc := []
  deriving DecidableEq, Repr

/-- Why a path of a thread group is parked: at a JOIN or BAR.W (the program counter is that after the instruction), at a
Tuft or Sward barrier, on an arrival counter, on a full queue or a lacking copy credit (the instruction issues again),
on a translation fault. -/
inductive Park where
  | run
  | join
  | barW
  | bar (sward : Bool) (idx : Nat)
  | arv (ctr target : Nat)
  | queue
  | credit (copy : Nat)
  | fault
  deriving DecidableEq, Repr

/-- A path (R214): its threads as a lane mask, program counter, park, whether the instruction there has issued and waits. -/
structure TPath where
  lanes : Nat
  pc : Nat
  park : Park := .run
  issued : Bool := false
  deriving DecidableEq, Repr

/-- A resident thread group (R187): paths in order of their lowest lane, lowest lane of the running path, vector
registers by register × 32 + lane, poison of lane words (1 read, 2 from a register-file error), scalars, predicates with the
poison of their bits by predicate × 32 + lane. -/
structure Group where
  idx : Nat
  task : Nat
  paths : List TPath
  cur : Nat := 0
  vregs : Table W32 := []
  vpoison : Table Nat := []
  sregs : Table W64 := []
  preds : Table W32 := []
  ppoison : Table Nat := []
  deriving DecidableEq, Repr

/-- A register of a group: vector, scalar, predicate. -/
inductive RegName where
  | v (n : Nat)
  | s (n : Nat)
  | p (n : Nat)
  deriving DecidableEq, Repr

/-- The instruction that one pipe issued in the present Tuft step, the other pipe being free: group, pipe B, PAIR, the registers
it writes (R190). -/
structure StepIssue where
  group : Nat
  pipeB : Bool
  pair : Bool
  writes : List RegName
  deriving DecidableEq, Repr

/-- A Tuft or Sward barrier (R212): its task, participant count, groups arrived in this phase, exited groups that count in every one. -/
structure Barrier where
  task : Nat
  count : Nat
  arrived : List Nat := []
  gone : List Nat := []
  deriving DecidableEq, Repr

/-- A weight set (R99–R103): what a candidate is compared on, whether poisoned, and, where one set holds all of B, the bytes it
was loaded from and the descriptor of the operation that loaded it. -/
structure WSet where
  key : Option (List Nat) := none
  poisoned : Bool := false
  image : Option (List Host.Cell) := none
  desc : W512 := 0
  deriving DecidableEq, Repr

/-- A matrix operation: place in the order of issue, task, descriptor, loads still to do, the set it multiplies by, blocks
handed over by each Tuft's foot, ordinals of its results among those for each Tuft's vector engine, flags raised
by blocks handed over. -/
structure MxOp where
  stamp : Nat
  task : Nat
  desc : W512
  loads : Nat := 0
  wset : Option WSet := none
  handed : Table Nat := []
  ords : Table Nat := []
  flags : Nat := 0
  deriving DecidableEq, Repr

/-- The matrix array of a Tuft (R84–R117): operations not started and running, sets by quadrant, quadrants loading (for
the operation of that stamp) and their order at the shadow port, mode in force, operations with OUT_VE issued. -/
structure MxTuft where
  queue : List MxOp := []
  running : List MxOp := []
  active : Table WSet := []
  shadow : Table WSet := []
  loading : Table Nat := []
  loadQ : List Nat := []
  mode : Nat := 0
  outOrd : Nat := 0
  deriving DecidableEq, Repr, Inhabited

/-- A vector chain: place in the order of issue, task, descriptor, ordinal among chains fed by the array, rows received
from the foot, poison received, FMT_C code of the operation they came from. -/
structure VeChain where
  stamp : Nat
  task : Nat
  desc : W1024
  ord : Nat := 0
  rows : List (List Nat) := []
  poison : Bool := false
  srcCode : Nat := 0
  deriving DecidableEq, Repr

/-- The vector engine of a Tuft: waiting and running chains, the input buffer with the ordinal
and FMT_C of its operation and its poison, chains with SRC_MX issued. -/
structure VeTuft where
  queue : List VeChain := []
  running : Option VeChain := none
  buf : Option (Nat × Nat × List (List Nat) × Bool) := none
  ord : Nat := 0
  deriving DecidableEq, Repr, Inhabited

/-- One lane's part of an ACPY.L: physical and virtual address, store offset, bytes, poison of the addresses it was given. -/
structure LaneMove where
  src : Nat
  va : Nat
  dst : Nat
  len : Nat
  bad : Nat := 0
  deriving DecidableEq, Repr

/-- An ACPY.L in flight (R211): counter, task, host-link epoch, what its lanes move. -/
structure LaneCopy where
  ctr : Nat
  task : Nat
  epoch : Nat := 0
  moves : List LaneMove
  deriving DecidableEq, Repr

/-- A Tuft beside its registers. -/
structure TuftState where
  task : Option Nat := none
  stamp : Nat := 0
  groups : Table Group := []
  waiting : List Nat := []
  arv : Table Nat := []
  bars : Table Barrier := []
  /-- Register caches of pipes A and B: (group, register), most recent first. -/
  rcA : List (Nat × Nat) := []
  rcB : List (Nat × Nat) := []
  /-- Groups by their last issue to pipes A and B, most recent first (R191), and the issue that the step may still pair (R190). -/
  issA : List Nat := []
  issB : List Nat := []
  step : Option StepIssue := none
  /-- Lines of the instruction cache by virtual line number, most recent first (R197). -/
  icache : List Nat := []
  mx : MxTuft := {}
  ve : VeTuft := {}
  laneCopies : List LaneCopy := []
  deriving DecidableEq, Repr, Inhabited

/-- Space in a Sward pool (R228–R233): Sward, first block, blocks, name while it has one, tasks that hold it, TEMP of a
task, lost with its Sward. -/
structure PoolAlloc where
  sward : Nat
  off : Nat
  blocks : Nat
  name : Option Nat := none
  holders : List Nat := []
  lost : Bool := false
  deriving DecidableEq, Repr

/-- Who submits a copy (R243): a Tuft, a residency-manager slice, the control processor. -/
inductive Submitter where
  | tuft (t : Nat)
  | resid (meadow : Nat)
  | cp
  deriving DecidableEq, Repr

/-- A queue entry of a copy engine (R242–R247): its pieces left and at first; moving; translations to be made again; stalled. -/
structure CopyEnt where
  id : Nat
  copy : Nat
  first : Bool
  pieces : List Piece
  whole : List Piece := []
  moving : Bool := false
  stale : Bool := false
  stalled : Bool := false
  /-- For an exchange: rows or tokens already moved, and whether all of them have been. -/
  next : Nat := 0
  spent : Bool := false
  deriving DecidableEq, Repr

/-- What a copy belongs to: a task, a node (graph, node), a unit copy of the residency manager. -/
inductive CopyOwner where
  | task (id : Nat)
  | node (graph node : Nat)
  | unit (region unit sward : Nat) (lift : Bool)
  deriving DecidableEq, Repr

/-- A submitted descriptor: engine (Sward), submitter, owner, descriptor, entries not yet queued and whether an invalidation
made them stale, entries in the queue,
reason so far, poison read; for an exchange the segment starts received by expert, the exchange block, the offsets of its
round, the ranks of the experts it sends to and the runs its global sides were translated to, as (virtual, physical, bytes,
written); the bursts it sent, as (rank, number); the host-link epoch in which its command was accepted; translated. -/
structure CopyRec where
  id : Nat
  sward : Nat
  sub : Submitter
  owner : CopyOwner
  desc : W512
  rest : List (List Piece) := []
  restStale : Bool := false
  queued : Bool := false
  code : Nat := 0
  poison : Bool := false
  starts : Table Nat := []
  block : Nat := 0
  offs : List Nat := []
  ranks : Table Nat := []
  runs : List (Nat × Nat × Nat × Bool) := []
  out : List (Nat × Nat) := []
  epoch : Nat := 0
  translated : Bool := true
  listBad : Bool := false
  deriving DecidableEq, Repr

/-- Copy engines of all Swards. -/
structure CopyState where
  recs : List CopyRec := []
  ents : List CopyEnt := []
  nextId : Nat := 0
  deriving DecidableEq, Repr

/-- States of a task (R236–R238): waiting to start, running, aborting with a code. -/
inductive TaskPhase where
  | waiting
  | running
  | aborting (code : Nat)
  deriving DecidableEq, Repr

/-- A task: graph and node, descriptor, priority, place in the order of readiness, first Tuft, groups left to exit, codes
reported, arithmetic flags, Sward it waits on for pool space. -/
structure TaskRec where
  id : Nat
  graph : Nat
  node : Nat
  desc : W1024
  prio : Nat
  ready : Nat := 0
  phase : TaskPhase := .waiting
  tuft0 : Nat := 0
  groupsLeft : Nat := 0
  code : Nat := 0
  flags : Nat := 0
  allocs : List (Nat × Nat) := []
  poolWait : Option Nat := none
  hit : Bool := false
  deriving DecidableEq, Repr

/-- States of a graph node: not ready, with a predecessor that did not end done, ready to be submitted, submitted or running, ended with (status, reason). -/
inductive NodeSt where
  | blocked
  | doomed
  | ready
  | going
  | ended (status reason : Nat)
  deriving DecidableEq, Repr

/-- A node of a graph in flight: kind, descriptor, TOKEN, successors, predecessors left, Meadow, REPORT. -/
structure NodeRec where
  kind : Nat
  desc : Nat
  token : Nat
  succ : List Nat
  preds : Nat
  meadow : Nat
  report : Bool
  st : NodeSt := .blocked
  deriving DecidableEq, Repr

/-- A graph in flight, by the number of its GRAPH_SUBMIT (R402, R403). -/
structure GraphRec where
  id : Nat
  sq : Nat
  token : Nat
  epoch : Nat
  prio : Nat
  cq : Nat
  nodes : List NodeRec
  cancelled : Nat := 0
  deriving DecidableEq, Repr

/-- A sequence table entry (Table SP-11) with the order in which it became ready. -/
structure SeqEnt where
  kv : Nat
  position : Nat := 0
  prio : Nat
  cq : Nat
  st : Nat := 1
  stamp : Nat := 0
  deriving DecidableEq, Repr

/-- Tasks, graphs, sequences, pools (R156, R228–R238, R402). -/
structure WorkState where
  graphs : List GraphRec := []
  tasks : List TaskRec := []
  nextTask : Nat := 0
  clock : Nat := 0
  seqs : Table SeqEnt := []
  pool : List PoolAlloc := []
  swardBars : Table Barrier := []
  /-- BUF_CREATE commands that wait for space: command, Sward it was counted on. -/
  bufWait : List (Nat × Nat) := []
  deriving DecidableEq, Repr

/-- What a router invocation belongs to: a task and the counter it increments on a Tuft, or a node. -/
inductive InvOwner where
  | task (id tuft ctr : Nat)
  | node (graph node : Nat)
  deriving DecidableEq, Repr

/-- What an invocation has decided and not yet written: parts of the output area as (offset, bytes, value), ROUTED,
DEFERRED, PASSED and FAILED, poison read, runs of the output area and of the counter block, flags of STILE_STATUS
(0 NaN, 1 infinity), experts with a nonzero count. -/
structure RouteRes where
  parts : List (Nat × Nat × Nat) := []
  totals : List Nat := []
  bad : Bool := false
  outRuns : List (Nat × Nat × Nat) := []
  cntRuns : List (Nat × Nat × Nat) := []
  flags : List Nat := []
  experts : List Nat := []
  deriving DecidableEq, Repr

/-- A router invocation (R130): its place in the order, descriptor, owner, started with what it decided, stalled on a
fault, translations to be made again. -/
structure Invocation where
  id : Nat
  desc : W512
  owner : InvOwner
  started : Bool := false
  stalled : Bool := false
  stale : Bool := false
  res : RouteRes := {}
  deriving DecidableEq, Repr

/-- Dispatch counts received from one source for one expert (R142): expert buffers, round, expert, source as
rank × 2^32 + Meadow × 2^28 + invocation order, count. -/
structure SegCount where
  buf : Nat
  round : Nat
  expert : Nat
  source : Nat
  count : Nat
  deriving DecidableEq, Repr

/-- The Stile routers: queues by Meadow, invocations that wrote lists (output address, Meadow, number, descriptor),
dispatch counts received. -/
structure StileState where
  queue : Table (List Invocation) := []
  nextId : Nat := 0
  lists : List (Nat × Nat × Nat × W512) := []
  counts : List SegCount := []
  /-- Input buffers and rounds whose sources' counts are all in (R142). -/
  closed : List (Nat × Nat) := []
  deriving DecidableEq, Repr

/-- Package states of a unit (Table SP-7). -/
inductive UnitPkg where
  | home | staging | staged | locked (staged : Bool) (way : Nat)
  deriving DecidableEq, Repr

/-- A unit of an expert region: package state, poisoned, score, place in the staging area, rank of a remote home. -/
structure UnitSt where
  pkg : UnitPkg := .home
  poisoned : Bool := false
  score : Nat := 0
  slot : Nat := 0
  rank : Option Nat := none
  deriving DecidableEq, Repr, Inhabited

/-- States of a replica in a Sward (Table SP-7); one not listed is ABSENT. -/
inductive RepSt where
  | lifting | pooled | draining
  deriving DecidableEq, Repr

/-- A replica: state, pool offset in bytes, references, poisoned, when it was lifted on the scheduler's clock. -/
structure Replica where
  st : RepSt
  off : Nat
  refs : Nat := 0
  poisoned : Bool := false
  stamp : Nat := 0
  deriving DecidableEq, Repr

/-- A declared region: descriptor, armed or quiesced, command that quiesces or releases it, first byte of its share in
every Sward pool. -/
structure ExpertRegion where
  desc : W512
  armed : Bool := true
  closing : Option (Nat × Bool) := none
  share : Nat := 0
  deriving DecidableEq, Repr

/-- The residency manager: regions, units by region × 4096 + unit, replicas by Sward × 65536 + region × 4096 + unit, hints
as region × 4096 + unit (sent by a Stile, and received), lifts that wait for space by the key of their replica. -/
structure ResState where
  regions : Table ExpertRegion := []
  units : Table UnitSt := []
  reps : Table Replica := []
  hints : List Nat := []
  wanted : List Nat := []
  waitingLifts : List Nat := []
  deriving DecidableEq, Repr

/-- A tensor port beside TF_PORT_STATUS: lanes that failed (mask), lane under test and lanes that wait for a test, PORT_CTRL and
PATTERN commands that wait for it, the partition its neighbour reported, and whether its last training left it down. -/
structure FabPort where
  bad : Nat := 0
  testing : Option Nat := none
  toTest : List Nat := []
  cmd : Option Nat := none
  pattern : Option Nat := none
  nbrPart : Nat := 0
  failed : Bool := false
  deriving DecidableEq, Repr, Inhabited

/-- A partition (R421, R423): first plane, planes, WHOLE, ID, timeout, physical plane of each logical plane, and whether this
module is a standby member. -/
structure Partition where
  first : Nat
  planes : Nat
  whole : Bool
  id : Nat
  timeoutMs : Nat
  planeOf : List Nat
  standby : Bool
  deriving DecidableEq, Repr

/-- A barrier of the partition's members: command it completes, members expected and arrived as plane × 16 + y × 4 + z. -/
structure FabBarrier where
  cmd : Nat
  want : List Nat
  got : List Nat := []
  deriving DecidableEq, Repr

/-- A member's part in a collective: rank, its fields (words 3 to 5 of COLL), data and poisoned 32-byte pieces of it. -/
structure CollPart where
  rank : Nat
  fields : List Nat
  data : Nat
  poison : List Nat
  deriving DecidableEq, Repr

/-- A collective that runs (R434) or a network collective (R453): command, words, group for the network (none for the fabric),
translated source and destination, parts received. -/
structure CollRun where
  cmd : Nat
  words : List W64
  xgroup : Option Nat := none
  src : List (Nat × Nat × Nat)
  dst : List (Nat × Nat × Nat)
  parts : List CollPart := []
  deriving DecidableEq, Repr

/-- The tensor fabric (R414–R440): ports, partition, barrier and barrier messages ahead of it as (partition, member),
collectives and fields ahead of them, members whose fields for a failed collective of a group are still to come, burst numbers by
destination, bursts not acknowledged, bursts that wait for a credit of their link (R144), bursts applied as (source rank, number). -/
structure FabState where
  ports : Table FabPort := []
  part : Option Partition := none
  barrier : Option FabBarrier := none
  earlyBar : List (Nat × Nat) := []
  colls : List CollRun := []
  earlyColl : List CollPart := []
  lateColl : List (Nat × List Nat) := []
  nextSeq : Table Nat := []
  unacked : List FabMsg := []
  held : List FabMsg := []
  seen : List (Nat × Nat) := []
  deriving DecidableEq, Repr

/-- Pins and straps (R23, R418, R558–R569). -/
structure Pins where
  posX : Nat := 0
  posY : Nat := 0
  posZ : Nat := 0
  posPar : Nat := 1
  heathId : Nat := 0
  present : Bool := false
  latchOpen : Bool := false
  buttonHeld : Bool := false
  service : Bool := false
  testReset : Bool := false
  deriving DecidableEq, Repr

/-- An Ethernet port beside NET_PORT_STATUS: addresses and MTU (Table ON-3). -/
structure EthPort where
  ip : Nat := 0
  ip4 : Nat := 0
  mtu : Nat := 0
  deriving DecidableEq, Repr, Inhabited

/-- A queue pair (R442, R444): its port and the port it runs on, class HOST, FAILOVER, enabled, peer, congestion
notifications that have lowered its send rate. -/
structure QPair where
  port : Nat := 0
  now : Nat := 0
  hostClass : Bool := false
  failover : Bool := false
  en : Bool := false
  peer : Nat := 0
  peerQp : Nat := 0
  key : Nat := 0
  lowered : Nat := 0
  deriving DecidableEq, Repr, Inhabited

/-- Work posted on a queue pair: command, queue pair, kind (0 read, 1 write, 2 send), local address, bytes. -/
structure NetPost where
  cmd : Nat
  qp : Nat
  kind : Nat
  va : Nat
  len : Nat
  deriving DecidableEq, Repr

/-- A message the module sends on the ordinary network. A read of storage names the target's IPv6 address, queue pair, remote key and
address (Tables ON-2, ON-3); a hello the versions the module supports (R452); a member of a collective sends its fields, then its data
(R434, R453). -/
inductive NetOut where
  | rdmaRead (qp addr len : Nat)
  | rdmaWrite (qp addr len val : Nat)
  | send (qp len val : Nat)
  | readData (qp len val : Nat)
  | ack (qp : Nat)
  | accessError (qp : Nat)
  | congestion (qp : Nat)
  | readStore (ip qpn key addr len : Nat)
  | readChunk (node chunk : Nat)
  | chunkData (node chunk len val : Nat)
  | progress (node count : Nat)
  | hello (group member low high : Nat)
  | coll (group member : Nat) (fields : List Nat)
  | collData (group member val : Nat)
  deriving DecidableEq, Repr

/-- The traffic classes of the network (Table ON-1). -/
inductive NetClass where
  | ctrl | coll | start | store | host
  deriving DecidableEq, Repr

/-- A message as it leaves by a port: class, with the 802.1p priority and the DSCP it is marked with (R445). -/
structure NetFrame where
  port : Nat
  mac : Nat
  cls : NetClass
  priority : Nat
  dscp : Nat
  msg : NetOut
  deriving DecidableEq, Repr

/-- A node of a manifest (Table ON-2). -/
structure ManNode where
  addr : Nat
  parent : Nat
  alt : Nat
  deriving DecidableEq, Repr

/-- A manifest (Table ON-2). -/
structure Manifest where
  bytes : Nat
  chunkLog2 : Nat
  admitMib : Nat
  timeoutMs : Nat
  fallback : Bool
  storeIp : Nat
  storeQpn : Nat
  storeKey : Nat
  storeAddr : Nat
  nodes : List ManNode
  hashes : List Nat
  deriving DecidableEq, Repr

/-- A child of this module in the broadcast tree: node, verified prefix it reported, given up. -/
structure FetchKid where
  node : Nat
  prog : Nat := 0
  gone : Bool := false
  deriving DecidableEq, Repr

/-- A running IMAGE_FETCH (R448–R450): command, words, manifest once checked, present parent (none: storage), failed nodes,
chunks verified and the prefix of them, the prefix its parent has sent, chunks asked for, chunks read once more, failed reads
from storage, children, requests held, chunks served, re-parents. -/
structure Fetch where
  cmd : Nat
  words : List W64
  man : Option Manifest := none
  parent : Option Nat := none
  failed : List Nat := []
  verified : List Nat := []
  front : Nat := 0
  limit : Nat := 0
  asked : List Nat := []
  again : List Nat := []
  tries : Table Nat := []
  kids : List FetchKid := []
  held : List (Nat × Nat) := []
  served : Nat := 0
  reparents : Nat := 0
  deriving DecidableEq, Repr

/-- A network group (R452): its open command while it runs, members, own index, hellos as (member, lowest, highest), agreed
version, 0 while none is. -/
structure NetGroup where
  cmd : Option Nat
  members : List Nat
  own : Nat
  hellos : List (Nat × Nat × Nat) := []
  version : Nat := 0
  deriving DecidableEq, Repr

/-- The ordinary network (R441–R456). -/
structure NetState where
  ports : Table EthPort := []
  qps : Table QPair := []
  posts : List NetPost := []
  /-- Messages that wait for a port, oldest first. -/
  queue : List NetOut := []
  /-- Bytes each port has sent of each class since its queue was last empty, by port × 8 + class (R445). -/
  sent : Table Nat := []
  /-- Messages sent, newest first. -/
  out : List NetFrame := []
  fetch : Option Fetch := none
  groups : Table NetGroup := []
  /-- Hellos ahead of XGROUP_OPEN: group, member, lowest, highest. -/
  early : List (Nat × Nat × Nat × Nat) := []
  /-- Members' parts of network collectives that came ahead: group and part. -/
  earlyColl : List (Nat × CollPart) := []
  /-- Members whose parts in a network collective that failed here are still to come, by group (R434, R453). -/
  lateColl : List (Nat × List Nat) := []
  deriving DecidableEq, Repr

/-- An electrical link beside DD_LINK_STATUS (R459–R464): a move under way (onto optical, or back), traffic on optical,
lasting-degraded, lanes under test or waiting for it as direction × 256 + lane, lanes replaced, replay buffers as
(direction, frame), oldest first. -/
structure LoamLink where
  move : Option Bool := none
  optical : Bool := false
  degraded : Bool := false
  tests : List Nat := []
  gone : List Nat := []
  buf : List (Nat × Nat × Nat) := []
  deriving DecidableEq, Repr, Inhabited

/-- An optical ring beside DD_RING_STATUS (R465): channels under test and channels failed, as die × 64 + channel. -/
structure LoamRing where
  tests : List Nat := []
  failed : List Nat := []
  deriving DecidableEq, Repr, Inhabited

/-- The Loam: links, rings, die-down messages under way (receiver: 0–15 homes, 16 the control processor, 32 + die a die), Swards
whose fence to the Meadow network is closed (R35, R468). -/
structure LoamState where
  links : Table LoamLink := []
  rings : Table LoamRing := []
  down : List (Nat × Nat × Nat) := []
  fences : List Nat := []
  deriving DecidableEq, Repr

/-- Lane and channel maps (R431, R467): of a link its condition and the spare lanes left in each direction, of a ring its failed
channels and its status register, of a tensor port its bad lanes. -/
structure LaneMaps where
  links : Table (LoamLink × Nat × Nat) := []
  rings : Table (LoamRing × Nat) := []
  ports : Table Nat := []
  deriving DecidableEq, Repr

/-- Repairs that module flash records and fuses make permanent: MX_REPAIR of the Tufts, Sward positions and the Meadows whose
spare is unused, spare rows, slice locations and ways, retired rows, lanes (R115, R281, R467, R507). Log entry 152. -/
structure RepairMaps where
  mx : Table W128 := []
  swards : Table Nat := []
  spares : Nat := 255
  hay : Table HayState := []
  retired : List Nat := []
  lanes : LaneMaps := {}
  deriving DecidableEq, Repr

/-- Starts. -/
structure StartState where
  running : Bool := false
  /-- Configuration items in module flash that differ from their defaults, by CFG_ID (R406). -/
  cfg : Table Nat := []
  /-- A start that is due: type of Table SB-11 and cause of Table SB-5. -/
  due : Option (Nat × Nat) := none
  /-- START_REQUEST waits for a flash write to end (Table SB-10). -/
  waits : Bool := false
  /-- A start failed in recovery: the module is halted (R529). -/
  halted : Bool := false
  /-- Starts in module flash: spare plane, last job's JOB_ID, last timer value written, a lasting record since READY. -/
  spare : Nat := 8
  lastJob : Option Nat := none
  lastTime : Nat := 0
  errorEnd : Bool := false
  scrubDue : Bool := false
  hayLost : Bool := false
  westLost : Bool := false
  /-- Repair and lane maps as the fuses hold them, and those of module flash while a recovery start runs on the fuses (R281, R467,
  R507). -/
  fused : RepairMaps := {}
  flashMaps : Option RepairMaps := none
  /-- Training parameters of the stacks' interfaces: in module flash, and in force (R268). -/
  stored : Table Nat := []
  trained : Table Nat := []
  deriving DecidableEq, Repr

/-- The test access port (R475–R477): what it shifts out, dies selected, instruction in force (0 BYPASS, 1 IDCODE, 2
SAMPLE/PRELOAD, 3 EXTEST, 4 INTEST, 5 die-internal), Test-Logic-Reset, READY when test reset began. -/
structure TapState where
  out : Nat := 0
  selected : List Nat := []
  ir : Nat := 1
  idle : Bool := true
  ready : Bool := false
  deriving DecidableEq, Repr

/-- The power controller (R481–R498): phase table entries, droop firings of a Sward (times), ceilings in flash, ceilings that
wait for a Tuft to have no task, DUTY 4 on every Meadow, a trip in force, power measured: Meadows, Hayloft dies, host dies. -/
structure PwState where
  phases : Table Nat := []
  fires : Table (List Nat) := []
  flashCeil : Table Nat := []
  dueCeil : Table Nat := []
  hold : Bool := false
  tripped : Bool := false
  meadowsW : Nat := 0
  hayloftW : Nat := 0
  hostsW : Nat := 0
  /-- Shares in force (Table PW-8), host dies first. -/
  shares : Nat := 0
  deriving DecidableEq, Repr

/-- An image in a bank (Table SB-4): there and not marked invalid, header bytes 0–527, whole length. -/
structure BankImage where
  ok : Bool := true
  header : Nat := 0
  bytes : Nat := 0
  deriving DecidableEq, Repr, Inhabited

/-- A flash write under way: what ends with it. -/
inductive FlashJob where
  | stage (cmd : Option Nat) (key header bytes : Nat)
  | config (cmd cfgId value : Nat)
  deriving DecidableEq, Repr

/-- Gorse and module flash (R517–R540): images by type × 2 + bank, banks active for the next start, fuses SVN_MIN and
KEY_REVOKE with their shadows (log entry 165), nonce given out, measurement slots, transcript hash of the last signed answer, flash write under way. -/
structure SecState where
  images : Table BankImage := []
  active : Nat := 0
  svnMin : Nat := 0
  revoked : Nat := 0
  nonce : Option Nat := none
  slots : List Nat := [0, 0, 0, 0, 0, 0, 0, 0]
  transcript : Option Nat := none
  writing : Option FlashJob := none
  deriving DecidableEq, Repr

/-- A message of the management endpoint (R541–R543): MCTP control and PLDM answers as (type, command, value) or with an error
code, platform events (1 an error record, 2 PANEL, 3 a start), SPDM answers as (code, parts). -/
inductive MgmtMsg where
  | answer (type command value : Nat)
  | reject (type command code : Nat)
  | event (kind detail : Nat)
  | spdm (code : Nat) (parts : List Nat)
  deriving DecidableEq, Repr

/-- Management and the front panel (R541–R550): messages sent, newest first; QUIESCE command that runs, forced removal, links
due to go down, start that waits for safe to remove, latch opened early and not closed since. -/
structure MgmtState where
  out : List MgmtMsg := []
  quiesce : Option Nat := none
  forced : Bool := false
  linkDown : Bool := false
  start : Option Nat := none
  early : Bool := false
  deriving DecidableEq, Repr

/-- Electrical state (R557–R566): input in range and switched on, rails risen (in the order of R560), start sequence under way,
regulators that latched a fault, PCIe reference chosen at power-up. -/
structure ElecState where
  input : Bool := false
  rails : Nat := 0
  latches : List Nat := []
  refclk : Bool := false
  deriving DecidableEq, Repr


/-- The state of the module. -/
structure State where
  /-- Commands that wait, first in, first out. -/
  pending : List Instr := []
  /-- Device memory (Table MS-1) at its physical addresses, the Tuft stores and the Sward pools at the keys of
  Machine/Ops.lean: (address, byte) pairs, addresses strictly rising, zero bytes not listed. -/
  mem : List Host.Cell := []
  /-- Writes of the command being executed to device memory, newest first; empty between commands. -/
  wq : List MemOp := []
  /-- Poisoned sectors of device memory, stores and pools, key / 32, strictly rising (R510). -/
  poison : List Nat := []
  /-- Registers that do not hold their reset value, by REG_ID × 65536 + UNIT. -/
  regs : Table W128 := []
  /-- MODEL'S OWN: how many free values have been drawn (log entry 1). -/
  freeCtr : Nat := 0
  /-- Messages sent over the host link, newest first. -/
  hostOut : List HostMsg := []
  /-- Messages sent into the tensor fabric, newest first. -/
  fabOut : List FabMsg := []
  ob : ObState := {}
  err : ErrState := {}
  timer : TimerState := {}
  link : LinkState := {}
  cores : CoreState := {}
  start : StartState := {}
  /-- Granules of retired DRAM rows: reads return poison, writes are discarded (R280). -/
  retired : List Nat := []
  /-- Hayloft dies lost (R283). -/
  lostHomes : List Nat := []
  hay : Table HayState := []
  coh : CohState := {}
  xl : AtState := {}
  tufts : Table TuftState := []
  copies : CopyState := {}
  work : WorkState := {}
  stile : StileState := {}
  res : ResState := {}
  fab : FabState := {}
  pins : Pins := {}
  net : NetState := {}
  loam : LoamState := {}
  tap : TapState := {}
  pw : PwState := {}
  sec : SecState := {}
  mg : MgmtState := {}
  elec : ElecState := {}
  deriving DecidableEq, Repr

/-- The module right after reset: 54 V input applied, every rail still to rise, a cold start with cause 0x00 due (R558, R560);
every register at its reset value, every queue and buffer empty. -/
def State.reset : State :=
  { pins := { present := true }, elec := { input := true }, start := { due := some (0, 0) } }

end Sys2Proof.Machine
end

