-- ==== Sys2Proof/Machine/Ops.lean ====
section
/-! DEFINITION. Sys2Proof/Machine/Ops.lean: the named operations every command is built from: registers and flags,
device memory and poison, free values, the package timer, interrupts, requests that leave over the host link. -/
namespace Sys2Proof.Machine

/-! ## Device memory -/

/-- The byte at address `a`; an address the list does not hold reads zero (log entry 3). -/
def memGet : List Host.Cell → Nat → Byte
  | [], _ => 0
  | (j, b) :: t, a => if j = a then b else memGet t a

/-- Memory without a listed byte at `a`. -/
def memDrop : List Host.Cell → Nat → List Host.Cell
  | [], _ => []
  | (j, b) :: t, a => if j = a then t else (j, b) :: memDrop t a

/-- Memory with byte `b`, not zero, listed at `a`. -/
def memIns : List Host.Cell → Nat → Byte → List Host.Cell
  | [], a, b => [(a, b)]
  | (j, c) :: t, a, b => if a < j then (a, b) :: (j, c) :: t else if a = j then (a, b) :: t else (j, c) :: memIns t a b

/-- Memory with byte `b` at address `a`; a zero byte is not listed. -/
def memPut (m : List Host.Cell) (a : Nat) (b : Byte) : List Host.Cell :=
  if b = 0 then memDrop m a else memIns m a b

/-- Memory with the `n` bytes from `a` zero. -/
def memZero (m : List Host.Cell) (a n : Nat) : List Host.Cell := m.filter (fun c => c.1 < a || a + n ≤ c.1)

/-- Memory after one write. -/
def memOp (o : MemOp) (m : List Host.Cell) : List Host.Cell :=
  match o with
  | .put a b => memPut m a b
  | .zero a n => memZero m a n

/-- Memory after a command's writes, which are listed newest first. -/
def memCommit (w : List MemOp) (m : List Host.Cell) : List Host.Cell := w.foldr memOp m

/-- Canonical form of device memory: addresses strictly rising, no byte zero. -/
def memWf : List Host.Cell → Bool
  | [] => true
  | [(_, b)] => b != 0
  | (j, b) :: (k, c) :: t => b != 0 && decide (j < k) && memWf ((k, c) :: t)

/-- The byte of device memory at `a` as the command being executed sees it: its own writes first. -/
def wqGet : List MemOp → Nat → Option Byte
  | [], _ => none
  | .put j b :: t, a => if j = a then some b else wqGet t a
  | .zero j n :: t, a => if j ≤ a ∧ a < j + n then some 0 else wqGet t a

/-- The byte of device memory at `a`. -/
def readByte (s : State) (a : Nat) : Byte := (wqGet s.wq a).getD (memGet s.mem a)

/-- The little-endian number in the `n` bytes at `a` (R4). -/
def readNum (s : State) (a : Nat) : Nat → Nat
  | 0 => 0
  | n + 1 => readNum s a n + (readByte s (a + n)).toNat * 256 ^ n

/-- Sectors (32 bytes, R4) that the `n` bytes at `a` touch. -/
def sectorsOf (a n : Nat) : List Nat := if n = 0 then [] else span (a / 32) ((a + n - 1) / 32 + 1 - a / 32)


/-- XOR of the 4-bit nibbles of a number, its lowest `n` nibbles. -/
def foldNibbles (x : Nat) : Nat → Nat
  | 0 => 0
  | n + 1 => (foldNibbles x n) ^^^ ((x >>> (4 * n)) % 16)

/-- The home, and stack, of a physical address in device memory (R262). -/
def homeOf (pa : Nat) : Nat := foldNibbles ((pa >>> 10) % 2 ^ 31) 8

/-- End of device memory (Table MS-1). -/
def devMemEnd : Nat := 0x18000000000

/-- A home has left service: every access to its lines completes with poison (R283). -/
def homeLost (s : State) (pa : Nat) : Bool := decide (pa < devMemEnd) && s.lostHomes.contains (homeOf pa)

/-- Some byte of the range reads poison: a poisoned sector, a retired row (R280), or a lost home (R283). -/
def poisoned (s : State) (a n : Nat) : Bool :=
  s.poison.any (fun k => a < 32 * k + 32 && 32 * k < a + n) ||
  s.retired.any (fun g => a < 1024 * g + 1024 && 1024 * g < a + n) ||
  (!s.lostHomes.isEmpty && (sectorsOf a n).any (fun k => homeLost s (32 * k)))

/-- Writes to this address are discarded: a retired row or a lost home (R280, R283). -/
def deadAddr (s : State) (a : Nat) : Bool :=
  s.retired.contains (a / 1024) || (!s.lostHomes.isEmpty && homeLost s a)

/-- Mark every sector the range touches poisoned (R510). -/
def poisonRange (a n : Nat) (s : State) : State := { s with poison := (sectorsOf a n).foldl setAdd s.poison }

/-- End poison in the sectors a write covers whole (R279). -/
def unpoison (a n : Nat) (s : State) : State :=
  { s with poison := s.poison.filter (fun k => !(a ≤ 32 * k && 32 * k + 32 ≤ a + n && !deadAddr s (32 * k))) }

/-- Write the low `n` bytes of `v` at `a`, little-endian; whole sectors lose their poison. -/
def writeNum (a n v : Nat) (s : State) : State :=
  unpoison a n { s with wq := ((List.range n).filterMap (fun i =>
    if deadAddr s (a + i) then none else some (MemOp.put (a + i) (BitVec.ofNat 8 (v >>> (8 * i)))))).reverse ++ s.wq }

/-- Zero the `n` bytes at `a`. -/
def zeroMem (a n : Nat) (s : State) : State := unpoison a n { s with wq := .zero a n :: s.wq }

/-- The end of a command: its writes reach device memory; the queue is the one it was given. -/
def finish (s t : State) : Host.Outcome State Fault Refusal :=
  .next { t with pending := s.pending, mem := memCommit t.wq s.mem, wq := [] }

/-- What a command leaves: its effect `t` on `s`, unless the module has no input power or is held in test reset, in which no
handshake runs and nothing happens (R477). -/
def act (s t : State) : Host.Outcome State Fault Refusal := finish s (if s.pins.testReset || !s.elec.input then s else t)

/-! ## The physical address map (Table MS-1) -/

def isDevMem (a n : Nat) : Bool := a + n ≤ devMemEnd
def obioloBase : Nat := 0x100000000000
def isObiolo (a n : Nat) : Bool := obioloBase ≤ a && a + n ≤ obioloBase + 0x4000000
def imsicBase : Nat := 0x100004000000
def isImsic (a n : Nat) : Bool := imsicBase ≤ a && a + n ≤ imsicBase + 0x4000000
def timerBase : Nat := 0x100008000000
def isTimerPage (a n : Nat) : Bool := timerBase ≤ a && a + n ≤ timerBase + 0x1000
def hostWinBase : Nat := 0x1000000000000
def isHostWin (a n : Nat) : Bool := hostWinBase ≤ a && a + n ≤ hostWinBase + 0x1000000000000

/-- Die register window `w` (R260): 0–7 Meadows, 8–23 Hayloft dies, 24–25 host dies, 26–27 I/O dies, 28 the Loam; 29–63 reserved. -/
def dieWindow (w : Nat) : Nat := 0x100040000000 + w * 0x1000000
/-- A range in one die register window. -/
def isDieWindow (a n : Nat) : Bool := (List.range 29).any (fun w => dieWindow w ≤ a && a + n ≤ dieWindow w + 0x1000000)

/-- Key of byte `off` of a Tuft's store (R221): stores have no physical address. -/
def storeKey (tuft off : Nat) : Nat := 0x40000000000000 + tuft * 0x80000 + off
/-- Key of byte `off` of a Sward's pool (R228): pools have no physical address. -/
def poolKey (sward off : Nat) : Nat := 0x80000000000000 + sward * 0x800000 + off

/-! ## Registers -/

def regKey (r : Reg) (u : Nat) : Nat := regId r * 65536 + u

/-- A register as stored. Fields that mirror other state are filled in when a register is read (Machine/RegFile.lean). -/
def regRaw (s : State) (r : Reg) (u : Nat) : Nat :=
  match tget s.regs (regKey r u) with
  | some v => v.toNat
  | none => regReset r

def setRegRaw (r : Reg) (u v : Nat) (s : State) : State :=
  { s with regs := tput s.regs (regKey r u) (BitVec.ofNat 128 v) }

/-- The value of a field. -/
def getF (s : State) (f : Field) (u : Nat) : Nat := bitsOf (regRaw s f.reg u) f.hi f.lo

/-- Set a field. -/
def setF (f : Field) (u x : Nat) (s : State) : State :=
  setRegRaw f.reg u (withBits (regRaw s f.reg u) f.hi f.lo x) s

def flagSet (s : State) (f : Field) (u : Nat) : Bool := getF s f u != 0

/-- The largest value of a field. -/
def fieldMax (f : Field) : Nat := 2 ^ (f.hi + 1 - f.lo) - 1

/-- Add `n` to a counter that wraps. -/
def bump (f : Field) (u : Nat) (n : Nat := 1) (s : State) : State := setF f u (getF s f u + n) s

/-- Add `n` to a counter that saturates. -/
def bumpSat (f : Field) (u : Nat) (n : Nat := 1) (s : State) : State := setF f u (min (getF s f u + n) (fieldMax f)) s

/-- An event that sets a flag: the flag is set and its companion counter counts, whether or not it was set (R408). -/
def raise (fl : Flag) (u : Nat) (s : State) : State := bumpSat fl.count u 1 (setF fl.flag u 1 s)

/-- Zero a register in every unit. -/
def zeroReg (r : Reg) (s : State) : State := { s with regs := s.regs.filter (fun e => e.1 / 65536 != regId r) }

/-! ## Free values -/

/-- The next free value of the run. -/
def freshVal (s : State) : Nat := Config.free s.freeCtr

/-- The state after a free value has been drawn. -/
def drawn (s : State) : State := { s with freeCtr := s.freeCtr + 1 }

/-! ## The package timer (R36–R42) -/

/-- The local copy of the timer on a die. -/
def localTime (s : State) (die : Nat) : Nat := ((s.timer.master : Int) + tgetD s.timer.skew die 0).toNat

/-- What a timer read on a die returns: the larger of the local copy and the causal floor (R39). -/
def timeOn (s : State) (die : Nat) : Nat := max (localTime s die) (tgetD s.timer.floor die 0)

/-- The number nearest to `own` whose low 16 bits are `stamp` (R39): of those in the block of 65,536 that holds `own` and in its
neighbours. -/
def nearStamp (own stamp : Nat) : Nat :=
  let base := own / 65536 * 65536
  let dist := fun (x : Nat) => (x - own) + (own - x)
  let up := if dist (base + 65536 + stamp) < dist (base + stamp) then base + 65536 + stamp else base + stamp
  if 65536 ≤ base ∧ dist (base - 65536 + stamp) < dist up then base - 65536 + stamp else up

/-- The floor of a die is at least `v`; it never decreases. -/
def floorAt (d v : Nat) (s : State) : State := { s with timer.floor := tput s.timer.floor d (max (tgetD s.timer.floor d 0) v) }

/-- What a frame carries that leaves die `d`: the low 16 bits of its local timer copy (R39). -/
def loamStampOf (s : State) (d : Nat) : Nat := localTime s d % 65536

/-- A frame reaches die `d`: its stamp, reconstructed from the die's own copy, raises the causal floor (R39). -/
def loamStamp (stamp d : Nat) (s : State) : State := floorAt d (nearStamp (localTime s d) stamp + 1) s

/-- The timer as the control processor on the west I/O die reads it. -/
def cpTime (s : State) : Nat := timeOn s 26

/-! ## Units and dies -/

/-- LEVEL of an error record (Table RE-2). -/
def lvTuft : Nat := 0
def lvSward : Nat := 1
def lvMeadow : Nat := 2
def lvPackage : Nat := 3

/-- The die that carries a unit of an error record (Tables RE-2, RE-3, CF-19). -/
def dieOfUnit (level unit : Nat) : Nat :=
  if level = 0 then unit / 128 else if level = 1 then unit / 16 else if level = 2 then unit
  else if unit ≤ 28 then unit else if unit < 0x180 then 28
  else if unit < 0x1C0 then 26 + (unit - 0x180) / 8 else if unit < 0x1E0 then 26 + (unit - 0x1C0) / 2 else 26

/-- The die is in service (Table DD-10). -/
def dieUp (s : State) (d : Nat) : Bool := getF s ddDieStatusState d == 0

/-- The dies take steps: the module is not tripped, not halted and not safe to remove. -/
def moduleRuns (s : State) : Bool := !s.pw.tripped && !s.start.halted && getF s mgStatusPanel 0 != 3

/-- What a message of the coherence protocol or an event of a stack leaves: its effect, while the dies take steps. -/
def homeAct (s t : State) : Host.Outcome State Fault Refusal := act s (if moduleRuns s then t else s)

/-- The home, Meadow or host die in service. -/
def homeUp (s : State) (h : Nat) : Bool := dieUp s (8 + h)
def meadowUp (s : State) (m : Nat) : Bool := dieUp s m

/-- Self-hosted role (R21). -/
def selfHosted (s : State) : Bool := flagSet s hlStatusRole 0

/-! ## Interrupts (R353, R354, R378) -/

/-- An MSI written into an interrupt file: hart, M level or S level, identity (R352). -/
def msiToFile (hart file eiid : Nat) (s : State) : State :=
  { s with cores.imsic := tput s.cores.imsic (hart * 2 + file) (setAdd (tgetD s.cores.imsic (hart * 2 + file) []) eiid) }

/-- MSI-X vector sent to the host; a masked vector sets its pending bit; vector 0 is never signalled (R378). -/
def msixSend (v : Nat) (s : State) : State :=
  if v = 0 then s
  else if ((tgetD s.link.msix v {}).masked) then { s with link.pba := setAdd s.link.pba v }
  else { s with hostOut := .msix v :: s.hostOut }

/-- The host link can carry an MSI-X: link up, Bus Master Enable, MSI-X enabled (R378). -/
def msixReady (s : State) : Bool :=
  flagSet s hlStatusLinkUp 0 && flagSet s hlStatusBme 0 && s.link.msixEn && s.link.dState == 0

/-- Send an event to a route's primary target, if it can take it (R354 step 1). -/
def routePrimary (src : Nat) (s : State) : Option State :=
  if getF s evRouteEn src = 0 then none
  else if getF s evRouteToHost src = 1 then
    if msixReady s then some (msixSend (getF s evRouteEiid src) s) else none
  else if dieUp s (24 + getF s evRouteHart src / 48) then
    some (msiToFile (getF s evRouteHart src) (getF s evRouteFile src) (getF s evRouteEiid src) s)
  else none

/-- Send an event to a route's fallback target, if it is in force and its die in service (R354 step 2). -/
def routeFallback (src : Nat) (s : State) : Option State :=
  if getF s evRouteFbV src = 1 ∧ getF s evRouteHartFb src ≤ 95 ∧ dieUp s (24 + getF s evRouteHartFb src / 48) then
    some (msiToFile (getF s evRouteHartFb src) (getF s evRouteFileFb src) (getF s evRouteEiidFb src) s)
  else none

/-- An event routed to the host that the link cannot carry now is held, not sent to the fallback (R378). -/
def heldForHost (src : Nat) (s : State) : Bool := getF s evRouteEn src = 1 && getF s evRouteToHost src = 1 && !msixReady s

/-- Deliver an event of source `src` to exactly one target, or hold it under PEND (R354). -/
def deliverEvent (src : Nat) (s : State) : State :=
  match routePrimary src s with
  | some t => setF evRoutePend src 0 t
  | none =>
    if heldForHost src s then setF evRoutePend src 1 s
    else match routeFallback src s with
      | some t => setF evRoutePend src 0 t
      | none => setF evRoutePend src 1 s

/-- Events held under PEND are tried again. -/
def retryHeld (s : State) : State :=
  (List.range 72).foldl (fun t src => if getF t evRoutePend src = 1 then deliverEvent src t else t) s

/-! ## The host link from inside (R359, R367) -/

/-- A 4-byte word of the root port's configuration header. -/
def rpWord (s : State) (off : Nat) : Nat := tgetD s.link.rpCfg (off / 4) 0

/-- A host address lies within the root port's bridge windows: the memory and prefetchable windows of its Type 1 header
(log entry 23). -/
def bridgeHolds (s : State) (a n : Nat) : Bool :=
  let inside := fun (base limit : Nat) => base ≤ limit && base * 1048576 ≤ a && a + n ≤ (limit + 1) * 1048576
  inside (bitsOf (rpWord s 0x20) 15 4) (bitsOf (rpWord s 0x20) 31 20) ||
    inside (bitsOf (rpWord s 0x24) 15 4 + rpWord s 0x28 * 4096) (bitsOf (rpWord s 0x24) 31 20 + rpWord s 0x2C * 4096)

/-- An access to the host-link window leaves: in the self-hosted role only within the bridge windows (R367). -/
def hostReach (s : State) (a n : Nat) : Bool := !selfHosted s || bridgeHolds s (a - hostWinBase) n

/-- A request leaves over the host link; in D3hot no host-directed transfer starts, and it is held (R359). -/
def hostSend (m : HostMsg) (s : State) : State :=
  if s.link.dState = 3 then { s with link.heldOut := m :: s.link.heldOut } else { s with hostOut := m :: s.hostOut }

/-- The `n` bytes at `a` by naturally aligned units of `u` bytes: offset and length of each part. -/
def unitParts (u a n : Nat) : List (Nat × Nat) :=
  (span (a / u) ((a + n + u - 1) / u - a / u)).map (fun k => let lo := max a (u * k); (lo - a, min (a + n) (u * k + u) - lo))

/-- Requests for `n` bytes of the host-link window, of at most 4,096 bytes each (R357), that are answered within their command. -/
def hostAsk (pa n : Nat) (s : State) : State :=
  (unitParts 4096 pa n).foldl (fun t p => hostSend (.memRead (pa + p.1 - hostWinBase) p.2 0) t) s

/-! ## Page bias (R305, R310) -/

def biasTable (s : State) : Nat := getF s coCtrlBiasBase 0 * 65536
def pageOf (pa : Nat) : Nat := pa / 4096
def biasOn (s : State) : Bool := getF s coCtrlBiasEn 0 == 1

/-- The page is in host bias (R305). -/
def hostBias (s : State) (page : Nat) : Bool :=
  biasOn s && ((readByte s (biasTable s + page / 8)).toNat >>> (page % 8)) % 2 == 1

/-- An address in the bias table (R306). -/
def inBiasTable (s : State) (a n : Nat) : Bool :=
  biasOn s && biasTable s < a + n && a < biasTable s + 0x3000000

/-- Pages that the `n` bytes at `a` touch. -/
def pagesOf (a n : Nat) : List Nat := if n = 0 then [] else span (a / 4096) ((a + n - 1) / 4096 + 1 - a / 4096)

/-- Reads of a host-bias page while the link is down return poison, and its writes are not performed, with 0x0525 (R310). -/
def biasLost (s : State) (a n : Nat) : Bool :=
  biasOn s && getF s hlStatusLinkUp 0 == 0 && (pagesOf a n).any (hostBias s)

/-- A write of `n` bytes to device memory; what it writes to pages that the homes cannot ask the host for is lost (R310). -/
def devWrite (a n v : Nat) (s : State) : State :=
  if !biasLost s a n then writeNum a n v s
  else (pagesOf a n).foldl (fun t p =>
    let lo := max a (p * 4096)
    let hi := min (a + n) (p * 4096 + 4096)
    if hostBias s p then t else writeNum lo (hi - lo) (v / 256 ^ (lo - a) % 256 ^ (hi - lo)) t) s

/-- Write `n` bytes at a physical address: to device memory, or over the host link while it is up; bulk data goes with Relaxed
Ordering, a record, a flag or an interrupt without it (R371). -/
def writePhys (a n v : Nat) (s : State) (poison : Bool := false) (relaxed : Bool := true) : State :=
  if isDevMem a n then devWrite a n v s
  else if isHostWin a n then
    if flagSet s hlStatusLinkUp 0 && hostReach s a n then hostSend (.memWrite (a - hostWinBase) n v poison relaxed) s else s
  else s

end Sys2Proof.Machine
end

