-- ==== Sys2Proof/Machine/Hayloft.lean ====
section
/-! DEFINITION. Sys2Proof/Machine/Hayloft.lean: the Hayloft slices, the stacks and their controllers (R262–R285). -/
namespace Sys2Proof.Machine

/-! ## Interleave (R262–R265) -/

/-- Stack-local address of a physical address (R262). -/
def localOf (pa : Nat) : Nat := (((pa >>> 10) % 2 ^ 31) / 16) * 1024 + pa % 1024

/-- Stack-local line number (R270). -/
def llineOf (pa : Nat) : Nat := localOf pa / 128

/-- DRAM channel of a stack-local granule (Table MS-2). -/
def chanOf (lg : Nat) : Nat := foldNibbles (lg % 2 ^ 27) 7

/-- The DRAM location word of an address (Tables MS-2, MS-3). -/
def locWord (pa : Nat) : Nat :=
  let l := localOf pa
  let lg := l / 1024
  let c := lg / 16
  let row := bitsOf c 20 5
  packBits [(chanOf lg, 28), (bitsOf c 22 21, 26), (bitsOf c 4 1 ^^^ bitsOf c 8 5, 22), (row, 6), (c % 2, 5),
    (bitsOf l 9 7, 2), (bitsOf l 6 5, 0)]

/-- The physical granule of a DRAM location (R265). -/
def granuleOf (stack ch rank bank row half : Nat) : Nat :=
  let c := (rank <<< 21) ||| (row <<< 5) ||| ((bank ^^^ (row % 16)) <<< 1) ||| half
  let hi := c <<< 4
  let lg := hi ||| (ch ^^^ foldNibbles hi 8)
  let gh := lg <<< 4
  gh ||| (stack ^^^ foldNibbles gh 9)

/-- The row of an address: its location word without half, line and sector. -/
def rowKey (pa : Nat) : Nat := locWord pa / 64

/-- The bank of a row key. -/
def bankOfRow (row : Nat) : Nat := row / 65536

/-- Both granules of an address's row: halves 0 and 1 (R280). -/
def rowGranules (pa : Nat) : Nat × Nat :=
  let w := locWord pa
  let g := granuleOf (homeOf pa) (bitsOf w 31 28) (bitsOf w 27 26) (bitsOf w 25 22) (bitsOf w 21 6)
  (g 0, g 1)

/-- The check region's 32 bits for the sector at an address (R266, R277): they follow from what the sector holds, and no address
reaches them. An error that the code corrects or detects comes in as its event (log entry 136). -/
def checkBits (s : State) (pa : Nat) : Nat :=
  (if poisoned s (pa / 32 * 32) 32 then Config.poisonCheck (localOf (pa / 32 * 32)) (readNum s (pa / 32 * 32) 32)
   else Config.dramCheck (localOf (pa / 32 * 32)) (readNum s (pa / 32 * 32) 32)) % 2 ^ 32

/-! ## The slice (R270–R273) -/

def hayGet (s : State) (h : Nat) : HayState := tgetD s.hay h {}
def hayPut (h : Nat) (y : HayState) (s : State) : State := { s with hay := tput s.hay h y }

/-- What module flash and the fuses keep of a Hayloft die: its repairs (R281, R282). -/
def hayRepairs (y : HayState) : HayState :=
  { disabledWays := y.disabledWays, retiredLocs := y.retiredLocs, sparesUsed := y.sparesUsed, rowMap := y.rowMap
    powered := 65535 - y.disabledWays }

/-- An address in the row of a location word. -/
def rowPa (stack word : Nat) : Nat :=
  granuleOf stack (bitsOf word 31 28) (bitsOf word 27 26) (bitsOf word 25 22) (bitsOf word 21 6) (bitsOf word 5 5) * 1024 +
    bitsOf word 4 2 * 128 + bitsOf word 1 0 * 32

def sliceSet (pa : Nat) : Nat := llineOf pa % 12288
def sliceTag (pa : Nat) : Nat := llineOf pa / 12288

/-- A way may take new lines: powered, not locked, not being cleaned, not disabled, its location not retired. -/
def wayOpen (y : HayState) (set w : Nat) : Bool :=
  y.powered.testBit w && !y.lockedWays.testBit w && !y.cleaning.testBit w && !y.disabledWays.testBit w
    && !y.retiredLocs.contains (set * 16 + w)

/-- The way that holds a line or is taken for one that is on its way. -/
def findWay (y : HayState) (pa : Nat) : Option Nat :=
  (List.range 16).find? (fun w => match tget y.lines (sliceSet pa * 16 + w) with
    | some l => l.tag == sliceTag pa
    | none => false)

/-- Tree pseudo-LRU of 16 ways: the bits after way `w` is used, each pointing away from it (R271). -/
def plruTouch (bits w : Nat) : Nat :=
  (List.range 4).foldl (fun b lvl =>
    let node := 2 ^ lvl - 1 + w / 2 ^ (4 - lvl)
    withBits b node node (1 - (w / 2 ^ (3 - lvl)) % 2)) bits

/-- The way the tree points to among the open ones: `lvl` levels left, subtree `idx` at depth 4 − lvl. -/
def plruPick (bits : Nat) (ok : Nat → Bool) : Nat → Nat → Option Nat
  | 0, idx => if ok idx then some idx else none
  | l + 1, idx =>
    let b := bitsOf bits (2 ^ (3 - l) - 1 + idx) (2 ^ (3 - l) - 1 + idx)
    match plruPick bits ok l (2 * idx + b) with
    | some w => some w
    | none => plruPick bits ok l (2 * idx + (1 - b))

/-! ## The controllers' command queues (R267, R276, R280) -/

/-- A request to the stack joins its channel's queue. -/
def ctrlPush (addr : Nat) (write : Bool) (y : HayState) : HayState :=
  { y with
    ctrlQueue := y.ctrlQueue ++ [{ id := y.ctrlNext, chan := chanOf (localOf addr / 1024), addr := addr, write := write }]
    ctrlNext := y.ctrlNext + 1 }

/-- A bank is held: the self-test of one of its rows is under way (R280). Log entry 148. -/
def bankHeld (s : State) (h bank : Nat) : Bool :=
  s.err.pend.any (fun p => p.level == lvPackage && p.unit == 8 + h && (p.reason == 0x0510 || p.reason == 0x0511) &&
    bankOfRow (p.detail % 2 ^ 32 / 64) == bank)

/-- The controller issues no command to the bank: above 105 °C, or while a row of the bank is tested (R276, R280). -/
def ctrlHolds (s : State) (h bank : Nat) : Bool := flagSet s hayStatusThermHold h || bankHeld s h bank

/-- The command queue of a channel: the first 64 of its requests (R267). -/
def chanQueue (y : HayState) (chan : Nat) : List CtrlReq := (y.ctrlQueue.filter (fun q => q.chan == chan)).take 64

/-- The request of a channel that goes next: one promoted, else the oldest to an open row, else the oldest; never one to a held
bank, nor one behind an earlier request to its sector (R267). Log entry 147. -/
def ctrlPick (holds : Nat → Bool) (y : HayState) (chan : Nat) : Option CtrlReq :=
  let q := chanQueue y chan
  let may := q.filter (fun r => !holds (bankOfRow (rowKey r.addr)) && !q.any (fun x => x.addr == r.addr && decide (x.id < r.id)))
  match may.find? (·.first) with
  | some r => some r
  | none => match may.find? (fun r => tget y.openRows (bankOfRow (rowKey r.addr)) == some (rowKey r.addr % 65536)) with
    | some r => some r
    | none => may.head?

/-- A request is performed: it leaves the queue, and its row is open. -/
def ctrlDo (r : CtrlReq) (y : HayState) : HayState :=
  { y with
    ctrlQueue := y.ctrlQueue.filter (fun x => x.id != r.id)
    openRows := tput y.openRows (bankOfRow (rowKey r.addr)) (rowKey r.addr % 65536) }

/-- A channel performs the writes that go next, at most `n`. -/
def ctrlWrites (holds : Nat → Bool) (chan : Nat) : Nat → HayState → HayState
  | 0, y => y
  | n + 1, y => match ctrlPick holds y chan with
    | some r => if r.write then ctrlWrites holds chan n (ctrlDo r y) else y
    | none => y

/-! ## Allocation and eviction (R271) -/

/-- Sectors of a mask in ascending order. -/
def maskSectors (m : Nat) : List Nat := (List.range 4).filter (fun k => m.testBit k)

/-- Physical line number of a stack-local line on a stack. -/
def physLine (stack ll : Nat) : Nat :=
  let gh := (ll / 8) <<< 4
  (gh ||| (stack ^^^ foldNibbles gh 9)) * 8 + ll % 8

/-- Sectors of the line at a location are still on their way. -/
def locBusy (y : HayState) (loc : Nat) : Bool :=
  match tget y.lines loc with
  | some l => y.misses.any (fun m => sliceSet (m.line * 128) == loc / 16 && sliceTag (m.line * 128) == l.tag)
  | none => false

/-- The line at a location leaves the slice of home `h`, its dirty sectors written back; one with sectors on their way stays. -/
def sliceEvict (h loc : Nat) (y : HayState) : HayState :=
  match tget y.lines loc with
  | none => y
  | some l =>
    if locBusy y loc then y
    else
      let line := physLine h (l.tag * 12288 + loc / 16)
      (maskSectors l.dirty).foldl (fun y k => ctrlPush (line * 128 + 32 * k) true y) { y with lines := tdel y.lines loc }

/-- The way a line would be allocated in: an empty open way, else the tree's victim; never a line with an outstanding miss. -/
def victimWay (y : HayState) (pa : Nat) : Option Nat :=
  let set := sliceSet pa
  let ok := fun w => wayOpen y set w && !locBusy y (set * 16 + w)
  match (List.range 16).find? (fun w => ok w && (tget y.lines (set * 16 + w)).isNone) with
  | some w => some w
  | none => plruPick (tgetD y.plru set 0) ok 4 0

/-- The way is used: the tree of its set points away from it. -/
def sliceTouch (set w : Nat) (y : HayState) : HayState := { y with plru := tput y.plru set (plruTouch (tgetD y.plru set 0) w) }

/-- A line in a way of its set, the way's line evicted. -/
def slicePlace (h pa w : Nat) (l : SliceLine) (y : HayState) : HayState :=
  let loc := sliceSet pa * 16 + w
  let y := sliceEvict h loc y
  sliceTouch (sliceSet pa) w { y with lines := tput y.lines loc l }

/-- Sectors a request fetches where `valid` ones are there, in the order of R271: a read that misses fetches the whole line, the
first sector asked for and the others ascending, wrapping; a write only the sectors that it writes in part. -/
def sliceNeeds (q : SliceReq) (valid : Nat) : List Nat :=
  if (maskSectors q.read).all (fun k => valid.testBit k) then (maskSectors q.part).filter (fun k => !valid.testBit k)
  else
    let first := if q.read.testBit q.first then q.first else (maskSectors q.read).headD 0
    ((List.range 4).map (fun i => (first + i) % 4)).filter (fun k => !valid.testBit k)

/-- Credits of the miss entries (R272): a Meadow 24, a host die 16, an I/O die 8; the home's own accesses need none. Log entry 151. -/
def missCredits (port : Nat) : Nat := if port < 8 then 24 else if port < 10 then 16 else if port < 12 then 8 else 256

/-- A miss entry is free for a port, within the port's credits. -/
def missFree (y : HayState) (port : Nat) : Bool :=
  decide ((y.misses.filter (fun m => m.port == port && !m.prefetch)).length < missCredits port) && decide (y.misses.length < 256)

/-- Reads of the sectors of a line join the controller's queue. -/
def ctrlReads (line : Nat) (ks : List Nat) (y : HayState) : HayState :=
  ks.foldl (fun y k => ctrlPush (line * 128 + 32 * k) false y) y

/-- A line's miss entry after its outstanding sectors and reads change: none left, the entry retires. -/
def missMod (line : Nat) (f : MissEntry → MissEntry) (y : HayState) : HayState :=
  { y with misses := (y.misses.map (fun m => if m.line == line then f m else m)).filter (fun m => !m.todo.isEmpty) }

/-- A request served by the slice of home `h`: a hit, a line allocated without a read, a miss entry opened or joined; `none` while
it must be held for want of a credit, a way, or room in the line's entry (R271, R272). -/
def sliceTry (h : Nat) (q : SliceReq) (y : HayState) : Option HayState :=
  let pa := q.line * 128
  match findWay y pa with
  | none =>
    let needs := sliceNeeds q q.full
    match victimWay y pa with
    | none => none
    | some w =>
      if !needs.isEmpty && !missFree y q.port then none
      else
        let y := slicePlace h pa w { tag := sliceTag pa, valid := q.full, dirty := q.full } y
        if needs.isEmpty then some y
        else some (ctrlReads q.line needs { y with misses := y.misses ++ [{ line := q.line, todo := needs, after := q.part, port := q.port }] })
  | some w =>
    let loc := sliceSet pa * 16 + w
    let l := tgetD y.lines loc {}
    let valid := l.valid ||| q.full
    let needs := sliceNeeds q valid
    let written := { y with lines := tput y.lines loc { l with valid := valid, dirty := l.dirty ||| q.full ||| (q.part &&& valid) } }
    let u := missMod q.line (fun m => { m with todo := m.todo.filter (fun k => !q.full.testBit k) }) (sliceTouch (sliceSet pa) w written)
    let u := { u with ctrlQueue := u.ctrlQueue.filter (fun r => r.write || r.addr / 128 != q.line || !q.full.testBit (r.addr / 32 % 4)) }
    if needs.isEmpty then some u
    else match y.misses.find? (fun m => m.line == q.line) with
      | some m =>
        if 8 ≤ m.merged then none
        else
          let more := needs.filter (fun k => !m.todo.contains k)
          some (ctrlReads q.line more (missMod q.line (fun m =>
            { m with todo := m.todo ++ more, after := m.after ||| (q.part &&& (15 ^^^ (valid % 16))), merged := m.merged + 1 }) u))
      | none =>
        if !missFree y q.port then none
        else some (ctrlReads q.line needs { u with
          misses := u.misses ++ [{ line := q.line, todo := needs, after := q.part &&& (15 ^^^ (valid % 16)), port := q.port }] })

/-- Held requests are tried again, oldest first. -/
def sliceRetry (h : Nat) (y : HayState) : HayState :=
  y.held.foldl (fun acc q =>
    if acc.held.any (fun x => x.line == q.line) then { acc with held := acc.held ++ [q] }
    else match sliceTry h q acc with
      | some u => u
      | none => { acc with held := acc.held ++ [q] }) { y with held := [] }

/-! ## Stride prefetch (R274, R275) -/

/-- Train the streams of a requester on a demand miss of a stack-local line; a new stream replaces the least recently trained one. -/
def pfTrain (y : HayState) (req line : Nat) : HayState :=
  let clk := y.pfClock + 1
  let near := fun (p : PfStream) => p.requester == req && decide (-64 ≤ (line : Int) - p.last ∧ (line : Int) - p.last ≤ 64) && line != p.last
  let hit := match y.streams.find? (fun p => near p && (line : Int) - p.last == p.delta) with
    | some p => some p
    | none => y.streams.find? near
  let used := hit.map (·.id)
  let aged := (y.streams.map (fun p => if p.requester == req && some p.id != used then { p with idle := p.idle + 1 } else p)).filter
    (fun p => decide (p.idle < 4096))
  match hit with
  | some p =>
    let d := (line : Int) - p.last
    let q := { p with last := line, delta := d, seen := if d = p.delta then p.seen + 1 else 1, stamp := clk, trained := clk, idle := 0 }
    { y with pfClock := clk, streams := q :: aged.filter (fun x => x.id != p.id) }
  | none =>
    let keep := if aged.length < 32 then aged else
      let oldest := aged.foldl (fun m p => min m p.trained) clk
      aged.filter (fun p => p.trained != oldest)
    { y with pfClock := clk, pfNext := y.pfNext + 1, streams := { id := y.pfNext, requester := req, last := line, stamp := clk, trained := clk } :: keep }

/-- A demand hits a line that stream `i` prefetched: its distance doubles, up to 16, and it goes on from that line. Log entry 149. -/
def pfHit (i line : Nat) (y : HayState) : HayState :=
  { y with
    pfClock := y.pfClock + 1
    streams := y.streams.map (fun p => if p.id == i then { p with dist := min 16 (2 * p.dist), idle := 0, last := line, stamp := y.pfClock + 1 } else p) }

/-- The stack-local line that the trained stream used last fetches: its distance in deltas ahead. -/
def pfNextLine (y : HayState) : Option (Nat × Nat) :=
  match y.streams.find? (fun p => decide (3 ≤ p.seen) && p.stamp == y.pfClock) with
  | some p =>
    let l := (p.last : Int) + p.delta * (p.dist : Int)
    if 0 ≤ l ∧ l < 805306368 then some (p.id, l.toNat) else none
  | none => none

/-- The line that the stream fetches ahead opens a miss entry where the prefetcher has one of its 16 credits, a way is open, and
the slice does not hold the line (R274, R275). -/
def pfLaunch (h : Nat) (s : State) : State :=
  let y := hayGet s h
  match pfNextLine y with
  | none => s
  | some (i, ll) =>
    let line := physLine h ll
    let pa := line * 128
    match victimWay y pa with
    | none => s
    | some w =>
      if getF s hayCtrlPfEn h = 0 ∨ (findWay y pa).isSome ∨ 16 ≤ (y.misses.filter (·.prefetch)).length ∨ 256 ≤ y.misses.length then s
      else
        let y := slicePlace h pa w { tag := sliceTag pa, stream := some i } y
        bump hayCountsPfIssued h 1 (hayPut h (ctrlReads line [0, 1, 2, 3]
          { y with misses := y.misses ++ [{ line := line, todo := [0, 1, 2, 3], prefetch := true, port := 12 }] }) s)

/-! ## Accesses of the home -/

/-- Sets visited by the cleaning of ways so far: their lines have been written back and are gone (R273). How far the cleaning has
come is a free value (log entry 130). -/
def cleanStep (h : Nat) (s : State) : State :=
  let y := hayGet s h
  if y.cleaning = 0 then s
  else
    let pos := min 12288 (y.cleanPos + freshVal s)
    let gone := y.lines.filter (fun e => y.cleaning.testBit (e.1 % 16) && decide (e.1 / 16 < pos) && !locBusy y e.1)
    drawn (hayPut h (gone.foldl (fun y e => sliceEvict h e.1 y) { y with cleanPos := pos }) s)

/-- The slice serves a request without DRAM. -/
def sliceHit (y : HayState) (q : SliceReq) : Bool :=
  match findWay y (q.line * 128) with
  | some w => (sliceNeeds q ((tgetD y.lines (sliceSet (q.line * 128) * 16 + w) {}).valid ||| q.full)).isEmpty
  | none => false

/-- The stream that prefetched a line the slice holds; the line is the demand's from then on. -/
def sliceStream (y : HayState) (line : Nat) : Option Nat × HayState :=
  match findWay y (line * 128) with
  | some w =>
    let loc := sliceSet (line * 128) * 16 + w
    let l := tgetD y.lines loc {}
    match l.stream with
    | some i => (some i, { y with lines := tput y.lines loc { l with stream := none } })
    | none => (none, y)
  | none => (none, y)

/-- A home's access to its slice: the hit or miss counts, the request is served or held, and demand trains the prefetcher
(R271–R275, R284). Log entry 150. -/
def sliceAccess (q : SliceReq) (s : State) : State :=
  let h := homeOf (q.line * 128)
  let s := cleanStep h s
  let y := hayGet s h
  let hit := sliceHit y q
  let t := bump (if hit then hayCountsHits else hayCountsMisses) h 1 s
  let served := if y.held.any (fun x => x.line == q.line) then none else sliceTry h q y
  let y := served.getD { y with held := y.held ++ [q] }
  if 10 ≤ q.port then hayPut h y t
  else if hit then
    match sliceStream y q.line with
    | (some i, y) => pfLaunch h (hayPut h (pfHit i (llineOf (q.line * 128)) y) t)
    | (none, y) => hayPut h y t
  else pfLaunch h (hayPut h (pfTrain y q.port (llineOf (q.line * 128))) t)

/-- Everything that a request waits for in the slice is there (R271). -/
def sliceReady (q : SliceReq) (s : State) : Bool :=
  let y := hayGet s (homeOf (q.line * 128))
  !y.held.contains q && (match y.misses.find? (fun m => m.line == q.line) with
    | some m => !m.todo.any (fun k => (q.read ||| q.part).testBit k)
    | none => true)

/-- The controller's request for a sector is performed: a sector read arrives in its line, the last one of a missed line retires the
miss entry, and held requests are tried again (R271, R272). -/
def sectorArrives (h : Nat) (r : CtrlReq) (y0 : HayState) : HayState :=
  let y := ctrlDo r y0
  let line := r.addr / 128
  let sector := r.addr / 32 % 4
  match findWay y r.addr with
  | none => y
  | some w =>
    let loc := sliceSet r.addr * 16 + w
    let dirty := y.misses.any (fun m => m.line == line && m.after.testBit sector)
    let l := tgetD y.lines loc {}
    let y := { y with lines := tput y.lines loc { l with valid := l.valid ||| 2 ^ sector, dirty := l.dirty ||| (if dirty then 2 ^ sector else 0) } }
    sliceRetry h (missMod line (fun m => { m with todo := m.todo.filter (· != sector) }) y)

/-- SLICE_MISS_FILL (R267, R271): the sector of a missed line that the controller of its channel reads next arrives, after the
writes that go before it. A sector that is not the one to come next does not arrive. -/
def doSliceMissFill (pa sector : Nat) (s : State) : State :=
  let h := homeOf pa
  let chan := chanOf (localOf pa / 1024)
  let y0 := hayGet s h
  let y := ctrlWrites (ctrlHolds s h) chan y0.ctrlQueue.length y0
  match ctrlPick (ctrlHolds s h) y chan with
  | some r => if r.write ∨ r.addr ≠ pa / 128 * 128 + 32 * sector then s else hayPut h (sectorArrives h r y) s
  | none => s

/-- The request that a channel performs next is performed; none while it has none that may go (R267). -/
def ctrlStep (h chan : Nat) (s : State) : Option State :=
  let y := hayGet s h
  (ctrlPick (ctrlHolds s h) y chan).map (fun r => hayPut h (if r.write then ctrlDo r y else sectorArrives h r y) s)

/-- The next request that any channel of a stack may perform, that of channel `chan` first. -/
def stackStep (h chan : Nat) (s : State) : Option State :=
  if (hayGet s h).ctrlQueue.isEmpty then none
  else ((List.range 16).map (fun i => (chan + i) % 16)).findSome? (fun c => ctrlStep h c s)

/-- The controllers go on in their own order until a request to the slice has what it waits for, or none may go on; `n` bounds the
steps (log entry 131). -/
def sliceRun (q : SliceReq) : Nat → State → State
  | 0, s => s
  | n + 1, s =>
    if sliceReady q s then s
    else match stackStep (homeOf (q.line * 128)) (chanOf (localOf (q.line * 128) / 1024)) s with
      | some t => sliceRun q n t
      | none => s

/-- A home's own access to its slice, made to its end in one step unless a controller holds it (log entry 131). -/
def sliceWhole (q : SliceReq) (s : State) : State := sliceRun q 1024 (sliceAccess q s)

/-- The controllers of a stack go on until no sector is on its way, or none may go on. -/
def stackRun (h : Nat) : Nat → State → State
  | 0, s => s
  | n + 1, s =>
    if (hayGet s h).misses.isEmpty then s
    else match stackStep h 0 s with
      | some t => stackRun h n t
      | none => s

def execSliceMissFill (pa : PA) (sector : BitVec 2) (s : State) : Host.Outcome State Fault Refusal :=
  homeAct s (doSliceMissFill pa.toNat sector.toNat s)

/-- CTRL_AGE_PROMOTE (R267): a request in a channel's queue that has waited 2 µs behind row hits goes first, behind no more than
the earlier requests to its own sector. -/
def doCtrlAgePromote (h id : Nat) (s : State) : State :=
  let y := hayGet s h
  match y.ctrlQueue.find? (fun q => q.id == id) with
  | none => s
  | some q =>
    if !(chanQueue y q.chan).contains q then s
    else hayPut h { y with
      ctrlQueue := y.ctrlQueue.map (fun x => if x.addr == q.addr && decide (x.id ≤ q.id) then { x with first := true } else x) } s

def execCtrlAgePromote (h : HomeNo) (request : Nat) (s : State) : Host.Outcome State Fault Refusal :=
  homeAct s (doCtrlAgePromote h request s)

/-! ## Ways (R273, R284) -/

def popCount (m n : Nat) : Nat := ((List.range n).filter (fun i => m.testBit i)).length

/-- Start the power-down or power-up that leaves `on` ways powered; a locked or disabled way is left as it is (R273). -/
def waysTarget (h on : Nat) (s : State) : State :=
  let y := hayGet s h
  let usable := (List.range 16).filter (fun w => !y.disabledWays.testBit w)
  let lockedN := usable.filter (fun w => y.lockedWays.testBit w)
  let keep := lockedN ++ ((usable.filter (fun w => !y.lockedWays.testBit w)).take (on - lockedN.length))
  let off := usable.filter (fun w => !keep.contains w && y.powered.testBit w)
  let up := keep.filter (fun w => !y.powered.testBit w)
  let clean := off.foldl (fun m w => m + 2 ^ w) 0
  let wake := up.foldl (fun m w => m + 2 ^ w) 0
  setF hayStatusCleaning h (bit (clean != 0)) (hayPut h { y with cleaning := clean, cleanPos := 0, waking := wake } s)

/-- HAY_WAY_CLEAN_DONE (R273): the named ways lose power, their lines gone after dirty sectors were written back. -/
def doHayWayCleanDone (h : Nat) (s : State) : State :=
  let y := hayGet s h
  if y.cleaning = 0 ∨ y.lines.any (fun e => y.cleaning.testBit (e.1 % 16) && locBusy y e.1) then s
  else
    let powered := y.powered &&& ((2 ^ 16 - 1) ^^^ y.cleaning)
    setF hayStatusCleaning h 0 (setF hayStatusWaysPowered h (popCount powered 16)
      (hayPut h ((y.lines.filter (fun e => y.cleaning.testBit (e.1 % 16))).foldl (fun y e => sliceEvict h e.1 y)
        { y with powered := powered, cleaning := 0, cleanPos := 0 }) s))

def execHayWayCleanDone (h : HomeNo) (s : State) : Host.Outcome State Fault Refusal := homeAct s (doHayWayCleanDone h s)

/-- HAY_WAY_POWER_UP_DONE (R273): ways powered up again return empty. -/
def doHayWayPowerUpDone (h : Nat) (s : State) : State :=
  let y := hayGet s h
  if y.waking = 0 then s
  else
    let powered := y.powered ||| y.waking
    setF hayStatusWaysPowered h (popCount powered 16)
      (hayPut h { y with powered := powered, waking := 0, lines := y.lines.filter (fun e => !y.waking.testBit (e.1 % 16)) } s)

def execHayWayPowerUpDone (h : HomeNo) (s : State) : Host.Outcome State Fault Refusal := homeAct s (doHayWayPowerUpDone h s)

/-- Check of a requested HAY_CTRL value (R284): 0x0518 for WAYS_ON that leaves fewer than 4 powered ways beyond those
locked, disabled ways left out of the count (R282), or beyond 16, or a SCRUB_HOURS of zero. -/
def hayCtrlCheck (h v : Nat) (s : State) : Option Nat :=
  let on := bitsOf v 4 0
  let y := hayGet s h
  if bitsOf v 23 16 = 0 ∨ 16 < on ∨ min on (16 - popCount y.disabledWays 16) < popCount y.lockedWays 16 + 4 then some 0x0518 else none

/-- Apply a checked HAY_CTRL value. -/
def hayCtrlApply (h v : Nat) (s : State) : State :=
  waysTarget h (bitsOf v 4 0) (setF hayCtrlScrubHours h (bitsOf v 23 16) (setF hayCtrlPfEn h (bitsOf v 8 8) (setF hayCtrlWaysOn h (bitsOf v 4 0) s)))

end Sys2Proof.Machine
end

