-- ==== Sys2Proof/Machine/Lines.lean ====
section
/-! DEFINITION. Sys2Proof/Machine/Lines.lean: directory entries, caching agents' lines, and accesses of whole lines and ranges
(R286–R291, R296, R299). Data is held once, in `mem`: a byte of `mem` is the value a coherent read of it returns (log entry 4). -/
namespace Sys2Proof.Machine

/-! ## Lines and entries -/

def homeOfLine (line : Nat) : Nat := homeOf (line * 128)
def dirSetOf (line : Nat) : Nat := llineOf (line * 128) % 32768
def dirTagOf (line : Nat) : Nat := llineOf (line * 128) / 32768
def dirBase (home set : Nat) : Nat := home * 524288 + set * 16

/-- The directory entry of a line, with its key. -/
def dirFind (s : State) (line : Nat) : Option (Nat × DirEnt) :=
  let b := dirBase (homeOfLine line) (dirSetOf line)
  (List.range 16).findSome? (fun w => match tget s.coh.dir (b + w) with
    | some e => if e.tag = dirTagOf line then some (b + w, e) else none
    | none => none)

def dirPut (key : Nat) (e : DirEnt) (s : State) : State := { s with coh.dir := tput s.coh.dir key e }
def dirDel (key : Nat) (s : State) : State := { s with coh.dir := tdel s.coh.dir key }

/-- The line a directory key and entry name. -/
def lineOfEntry (key : Nat) (e : DirEnt) : Nat := physLine (key / 524288) (e.tag * 32768 + key % 524288 / 16)

/-- PIN: a transaction is open or a reservation held (Table CO-1, R290). -/
def DirEnt.pinned (e : DirEnt) : Bool := e.txn.isSome || e.resv.isSome

/-- An entry in the layout of Table CO-1, its check code zero (R289). -/
def encodeDir (e : DirEnt) : Nat :=
  packBits [(1, 63), (e.st % 4, 61), (bit e.pinned, 60), (bit e.resv.isSome, 59), (e.resv.getD 0 % 16, 55), (e.sharers % 1024, 45),
    (e.tag % 32768, 30), (e.txn.getD 0 % 1024, 20)]

def lineKey (a line : Nat) : Nat := a * 2 ^ 34 + line
def cacheLine (s : State) (a line : Nat) : CacheLine := tgetD s.coh.lines (lineKey a line) {}

/-- Store a line's record at an agent; a line in I with nothing outstanding is not listed. -/
def setCacheLine (a line : Nat) (c : CacheLine) (s : State) : State :=
  if c = {} then { s with coh.lines := tdel s.coh.lines (lineKey a line) }
  else { s with coh.lines := tput s.coh.lines (lineKey a line) c }

/-- Bytes of a masked line write, applied to memory; sectors written poisoned become poisoned, whole sectors lose poison. -/
def applyLineWrite (line : Nat) (w : LineWrite) (s : State) : State :=
  (List.range 4).foldl (fun t k =>
    let m := bitsOf w.mask.toNat (32 * k + 31) (32 * k)
    let a := line * 128 + 32 * k
    if w.poison.getLsbD k && m != 0 then poisonRange a 32 t
    else if m = 2 ^ 32 - 1 then writeNum a 32 (bitsOf w.data.toNat (256 * k + 255) (256 * k)) t
    else (List.range 32).foldl (fun t i =>
      if m.testBit i then writeNum (a + i) 1 (bitsOf w.data.toNat (256 * k + 8 * i + 7) (256 * k + 8 * i)) t else t) t) s

/-- A whole line of data from a response or writeback, the sectors of `mask`. -/
def applyLineData (line : Nat) (d : LineData) (mask : Nat) (s : State) : State :=
  let m := (List.range 4).foldl (fun v k => if mask.testBit k then v + (2 ^ 32 - 1) * 2 ^ (32 * k) else v) 0
  applyLineWrite line { data := d.data, mask := BitVec.ofNat 128 m, poison := d.poison } s

/-- The transaction open on an entry. -/
def entryTxn (s : State) (key : Nat) (e : DirEnt) : Option Txn := e.txn.bind (fun k => tget s.coh.txns (key / 524288 * 1024 + k))

def openTxn (s : State) (line : Nat) : Option (Nat × DirEnt × Txn) :=
  match dirFind s line with
  | some (key, e) => (entryTxn s key e).map (fun t => (key, e, t))
  | none => none

/-- A line has an open transaction. -/
def lineOpen (s : State) (line : Nat) : Bool := (openTxn s line).isSome

/-- An entry with no transaction: the slot of one that was open is free, a line of which nobody holds a copy is in U, and in U
without a reservation it holds no entry (R290, R300). -/
def closeTxn (key : Nat) (e0 : DirEnt) (s : State) : State :=
  let t := match e0.txn with
    | some k => { s with coh.txns := tdel s.coh.txns (key / 524288 * 1024 + k) }
    | none => s
  let e : DirEnt := { e0 with txn := none, st := if e0.sharers = 0 then 0 else e0.st }
  if e.st = 0 ∧ e.resv = none then dirDel key t else dirPut key e t

def isCaching (k : ReqKind) : Bool := k == .rds || k == .rdx || k == .upg

/-- Sectors written whole into the slice: a writeback, the data of a response, data of the host. -/
def slicePut (line port mask : Nat) : SliceReq := { line := line, port := port, full := mask }

/-- The unpinned entry used least recently among the ways of the set whose entries start at `b` (R291). -/
def dirVictim (s : State) (b : Nat) : Option (Nat × DirEnt) :=
  (List.range 16).foldl (fun acc w => match tget s.coh.dir (b + w), acc with
    | some e, none => if e.pinned then none else some (b + w, e)
    | some e, some old => if !e.pinned && decide (e.stamp < old.2.stamp) then some (b + w, e) else some old
    | none, _ => acc) none

/-- Lines that an agent's caches hold: a Meadow cache 16 MiB; a host die its shared cache of 96 MiB and 48 L2 caches of 2 MiB (R10,
R286, R289). -/
def cacheLines (a : Nat) : Nat := if a < 8 then 131072 else 1572864

/-- A copy that stands in an agent's caches; a line in W stands in its writeback buffer (R296). -/
def cached (c : CacheLine) : Bool := c.st == .s || c.st == .e || c.st == .m

/-- The line that makes room for another where an agent's caches are full: a free value chooses it among those with no request
outstanding (log entry 133). -/
def cacheVictim (a line : Nat) (s : State) : Option Nat :=
  if cached (cacheLine s a line) then none
  else
    let held := s.coh.lines.filter (fun e => e.1 / 2 ^ 34 == a && cached e.2)
    if held.length < cacheLines a then none
    else
      let may := held.filter (fun e => e.2.req.isNone)
      may[freshVal s % (max may.length 1)]?.map (fun e => e.1 % 2 ^ 34)

/-! ## Accesses to ranges -/

/-- Load reservations of a die on a line are lost with its copy (R346). -/
def resvLost (a line : Nat) (s : State) : State :=
  { s with cores.resv := s.cores.resv.filter (fun r => !(8 + r.1 / 48 == a && r.2 == line)) }

/-- Sectors of a line that the `n` bytes at `a` cover whole, and touch. -/
def rangeSectors (a n line : Nat) : Nat × Nat :=
  (List.range 4).foldl (fun acc k =>
    let p := line * 128 + 32 * k
    (if a ≤ p ∧ p + 32 ≤ a + n then acc.1 + 2 ^ k else acc.1, if p < a + n ∧ a < p + 32 then acc.2 + 2 ^ k else acc.2)) (0, 0)

/-- What an access to a range asks of the slice for one of its lines. -/
def rangeSlice (k : ReqKind) (port a n line : Nat) : SliceReq :=
  let (full, touched) := rangeSectors a n line
  if k = .ncwr then { line := line, port := port, full := full, part := touched ^^^ full }
  else { line := line, port := port, read := touched }

/-- Lines that the `n` bytes at `a` touch. -/
def linesOf (a n : Nat) : List Nat := if n = 0 then [] else span (a / 128) ((a + n - 1) / 128 + 1 - a / 128)

end Sys2Proof.Machine
end

