-- ==== Sys2Proof/Machine/Events.lean ====
section
/-! DEFINITION. Sys2Proof/Machine/Events.lean: what the control processor writes: event records, error records and notices,
completion records (R395, R396, R409, R500–R503, R571). -/
namespace Sys2Proof.Machine

/-! ## Queues (R395, R396, R409) -/

/-- A write by the control processor: to device memory through its home as a non-caching request of the west I/O die, which sends
it (R287; log entry 168), or over the host link. -/
def cpWrite (a n v : Nat) (s : State) : State :=
  if isDevMem a n then { s with coh.cpWrites := s.coh.cpWrites ++ [(a, n, v)] } else writePhys a n v s (relaxed := false)

/-- PHASE of ring index `i`: the inverse of bit DEPTH_LOG2 of `i` (R395). -/
def ringPhase (i depthLog2 : Nat) : Nat := 1 - (i >>> depthLog2) % 2

/-- Records in a completion or event queue, written and not consumed. -/
def ringUsed (head tail : Nat) : Nat := (tail + 65536 - head) % 65536

/-- An event record laid out in 64 bytes (Table CF-19), its PHASE given. -/
def encodeEvent (e : EvRec) (phase : Nat) : Nat :=
  packBits [(e.time % 2 ^ 64, 448), (e.detail % 2 ^ 64, 384), (e.reason % 65536, 368), (e.unit % 256, 352),
    (e.kind % 256, 344), (phase % 2, 256), (e.body % 2 ^ 256, 0)]

/-- The event queue can take a record now: enabled, not stopped, not full. -/
def eqRoom (s : State) : Bool :=
  flagSet s eqStateEn 0 && !flagSet s eqStateStopped 0 &&
    ringUsed (getF s eqStateHead 0) (getF s eqStateTail 0) < 2 ^ getF s eqStateDepthLog2 0

/-- Write one record to the event queue and interrupt if the last interrupt was answered (R396, R409). -/
def eqWrite (e : EvRec) (s : State) : State :=
  let i := getF s eqStateTail 0
  let d := getF s eqStateDepthLog2 0
  let t := setF eqStateTail 0 (i + 1) (cpWrite (s.ob.eq.base + i % 2 ^ d * 64) 64 (encodeEvent e (ringPhase i d)) s)
  if t.ob.eq.irqOut then t else deliverEvent 2 { t with ob.eq.irqOut := true }

/-- The lost-records notice that goes first after a drop (R409). -/
def lostNotice (s : State) : EvRec := { time := cpTime s, detail := s.ob.dropped, unit := 26, kind := 2 }

/-- Write held records while the event queue has room (R409); `n` bounds their number. -/
def eqFlush : Nat → State → State
  | 0, s => s
  | n + 1, s =>
    if eqRoom s then
      if s.ob.dropped != 0 then eqFlush n (eqWrite (lostNotice s) { s with ob.dropped := 0 })
      else match s.ob.held with
        | [] => s
        | e :: r => eqFlush n (eqWrite e { s with ob.held := r })
    else s

/-- A record for the event queue: written, held while the queue is full or not enabled, or dropped beyond 256 held (R409).
EQ_FULL is set once as holding begins (DEDUCED, log entry 43). -/
def pushEvent (e : EvRec) (s : State) : State :=
  if eqRoom s && s.ob.held.isEmpty && s.ob.dropped == 0 then eqWrite e s
  else if s.ob.held.length < 256 then
    let t := if s.ob.held.isEmpty then raise flObStatusEqFull 0 s else s
    { t with ob.held := t.ob.held ++ [e] }
  else
    raise flObStatusEqLost 0 (bump eqStateLost 0 1 { s with ob.dropped := s.ob.dropped + 1 })

/-! ## Error records and notices (R500–R503, R571) -/

/-- An error record laid out in 32 bytes (Table RE-2). -/
def encodeErr (e : ErrRec) : Nat :=
  packBits [(e.time % 2 ^ 64, 192), (e.detail % 2 ^ 64, 128), (e.reason % 65536, 112), (e.id % 65536, 96),
    (e.link % 65536, 80), (e.unit % 65536, 64), (e.subunit % 65536, 48), (e.cls % 256, 40), (e.level % 4, 38),
    (e.verdict % 4, 36), (bit e.injected, 35), (bit e.repaired, 34), (bit e.out, 33), (bit e.start, 32)]

def vTransient : Nat := 0
def vLasting : Nat := 1
def vPending : Nat := 2

/-- Append a record to the error log in flash; overwriting one that no ERR_LOG_READ has copied counts LOG_WRAPS (R501). -/
def logAppend (e : ErrRec) (s : State) : State :=
  let i := s.err.logCount % 4096
  let t := match tget s.err.log i with
    | some (_, false) => bump reCountsLogWraps 0 1 s
    | _ => s
  { t with err.log := tput t.err.log i (e, false), err.logCount := t.err.logCount + 1 }

/-- Write an error record (R500): number it, count it, log it where R501 says so, deliver it on the event queue. A
record whose `link` is `none` links to itself. -/
def writeErr (e : ErrRec) (link : Option Nat) (s : State) : State :=
  let id := s.err.nextId
  let r : ErrRec := { e with
    id := id, link := link.getD id, time := timeOn s (dieOfUnit e.level e.unit), start := e.start || s.start.running }
  let t := bump reCountsRecords 0 1 { s with err.nextId := (id + 1) % 65536 }
  let t := if r.verdict = vPending then { t with err.pend := t.err.pend ++ [r] }
    else match link with
      | some l => { t with err.pend := t.err.pend.filter (fun p => p.link != l) }
      | none => t
  let t := if r.verdict = vLasting then raise flReStatusLasting 0 t
    else if r.verdict = vTransient then bump reCountsTransient 0 1 t else t
  let t := if r.verdict = vLasting || r.level = lvPackage || r.start then logAppend r t else t
  -- a platform event reports records of the package level and lasting ones (R542)
  let t := if r.level = lvPackage || r.verdict = vLasting then { t with mg.out := .event 1 r.reason :: t.mg.out } else t
  -- every verdict writes the package timer to the start record (R504); a lasting one marks the run (R526)
  let t := if r.verdict = vPending then t
    else { t with start.lastTime := cpTime t, start.errorEnd := t.start.errorEnd || r.verdict == vLasting }
  pushEvent { time := r.time, reason := r.reason, unit := dieOfUnit r.level r.unit, kind := 0, body := encodeErr r } t


/-- A unit is withdrawn from scheduling (R505, R508, R514): a pending record names it, SELF_TEST or UNIT_CTRL waits for it, or
its Sward is being remapped. -/
def underTest (s : State) (level unit : Nat) : Bool :=
  s.err.pend.any (fun p => p.level == level && p.unit == unit) || s.err.selfTests.any (fun x => x.2.1 == level && x.2.2.1 == unit) ||
    s.err.drains.any (fun x => x.2.1 == level && x.2.2 == unit) || (level == lvSward && s.err.remaps.any (fun x => x.1 == unit))

/-- A pending record of a faulty unit; a further error on a unit under test links to its first pending record (R502, R512). -/
def pendErr (e : ErrRec) (s : State) : State :=
  let first := s.err.pend.find? (fun p => p.level == e.level && p.unit == e.unit && (e.level != lvPackage || p.subunit == e.subunit))
  writeErr { e with verdict := vPending } (first.map (·.link)) s

/-- A notice on the event path (KIND 0x01 of Table CF-19). -/
def notice (reason detail die : Nat) (s : State) : State :=
  pushEvent { time := timeOn s die, detail := detail, reason := reason, unit := die, kind := 1 } s

/-! ## Completion records (R395) -/

/-- A completion record's parts (Table CF-5). -/
structure CompRec where
  r1 : Nat := 0
  r0 : Nat := 0
  token : Nat := 0
  reason : Nat := 0
  opcode : Nat := 0
  sq : Nat := 0
  epoch : Nat := 0
  flags : Nat := 0
  kind : Nat := 0
  status : Nat := 0
  deriving DecidableEq, Repr, Inhabited

def encodeComp (c : CompRec) (phase : Nat) : Nat :=
  packBits [(c.r1 % 2 ^ 64, 192), (c.r0 % 2 ^ 64, 128), (c.token % 2 ^ 32, 96), (c.reason % 65536, 80), (c.opcode % 256, 72),
    (c.sq % 256, 64), (c.epoch % 65536, 48), (c.flags % 256, 40), (c.kind % 8, 37), (c.status % 4, 35), (phase % 2, 0)]

/-- Write a completion record to queue `q`; records for a stopped queue are discarded and counted in LOST (R396). -/
def cqWrite (q : Nat) (c : CompRec) (s : State) : State :=
  if flagSet s cqStateStopped q then bump cqStateLost q 1 s
  else if !flagSet s cqStateEn q then s
  else
    let i := getF s cqStateTail q
    let d := getF s cqStateDepthLog2 q
    let k := tgetD s.ob.cq q {}
    let t := setF cqStateTail q (i + 1) (cpWrite (k.base + i % 2 ^ d * 32) 32 (encodeComp c (ringPhase i d)) s)
    if k.irqOut then t else deliverEvent (8 + q) { t with ob.cq := tput t.ob.cq q { k with irqOut := true } }

end Sys2Proof.Machine
end

