-- ==== Sys2Proof/Machine/ObCore.lean ====
section
/-! DEFINITION. Sys2Proof/Machine/ObCore.lean: the Obiolo command interface: header, common checks, acceptance,
reservations, completion records and Lark answers (R389–R398, R570). -/
namespace Sys2Proof.Machine

/-! ## Command words (Table CF-2) -/

/-- Word `i` of a command, zero past its end. -/
def wordAt (ws : List W64) (i : Nat) : Nat := (ws.getD i 0).toNat

/-- Bits [hi:lo] of word `i`. -/
def wordBits (ws : List W64) (i hi lo : Nat) : Nat := bitsOf (wordAt ws i) hi lo

def cmdOpcode (ws : List W64) : Nat := wordBits ws 0 7 0
def cmdLen (ws : List W64) : Nat := wordBits ws 0 12 8
def cmdQuiet (ws : List W64) : Bool := wordBits ws 0 22 22 == 1
def cmdFence (ws : List W64) : Bool := wordBits ws 0 23 23 == 1
def cmdCq (ws : List W64) : Nat := wordBits ws 0 29 24
def cmdToken (ws : List W64) : Nat := wordBits ws 0 63 32

/-- What Table CF-6 and the tables of the later chapters say of an opcode: LEN, Lark-eligible, needs a job, and the bits of
words 1 onwards that its arguments use. -/
structure CmdShape where
  len : Nat
  lark : Bool
  job : Bool
  args : List Nat
  deriving DecidableEq, Repr

def allBits : Nat := 0xFFFFFFFFFFFFFFFF
def low32 : Nat := 0xFFFFFFFF
/-- Bits of COLL word 4 (Table TF-5). -/
def collBits : Nat := 0xFFF3337

/-- Commands 0x00–0x1F. -/
def shapeA : Nat → Option CmdShape
  | 0x00 => some ⟨1, true, false, []⟩
  | 0x01 => some ⟨1, true, false, []⟩
  | 0x02 => some ⟨4, true, false, [allBits, 0x13FFF, 0xFFFF]⟩
  | 0x03 => some ⟨3, true, false, [allBits, 0x10F3F]⟩
  | 0x04 => some ⟨3, true, false, [allBits, 0x10F00]⟩
  | 0x08 => some ⟨2, true, false, [low32]⟩
  | 0x09 => some ⟨4, true, false, [low32, allBits, allBits]⟩
  | 0x0A => some ⟨2, true, false, [0xFFFF]⟩
  | 0x0B => some ⟨3, false, false, [0xFFFF, allBits]⟩
  | 0x10 => some ⟨7, false, false, [allBits, low32, allBits, allBits, allBits, 0xFFFFFFFFFFF]⟩
  | 0x11 => some ⟨2, false, true, [1]⟩
  | 0x18 => some ⟨2, false, true, [allBits]⟩
  | 0x19 => some ⟨2, true, true, [0xFFFFFFFFFF]⟩
  | 0x1C => some ⟨3, true, true, [allBits, 0x3FFF]⟩
  | 0x1D => some ⟨2, true, true, [0x1FF]⟩
  | _ => none

/-- Commands 0x20–0x4F. -/
def shapeB : Nat → Option CmdShape
  | 0x20 => some ⟨3, false, true, [low32, 0x1F77FF]⟩
  | 0x21 => some ⟨2, false, true, [low32]⟩
  | 0x24 => some ⟨2, false, true, [allBits]⟩
  | 0x25 => some ⟨2, false, true, [0xF]⟩
  | 0x26 => some ⟨2, false, true, [0xF]⟩
  | 0x30 => some ⟨5, false, true, [allBits, allBits, allBits, 0x37FF]⟩
  | 0x31 => some ⟨5, false, true, [allBits, allBits, allBits, 0x37FF]⟩
  | 0x32 => some ⟨2, true, true, [0x1FFFF]⟩
  | 0x33 => some ⟨5, false, true, [allBits, allBits, allBits, 1]⟩
  | 0x34 => some ⟨4, false, true, [allBits, allBits, 3]⟩
  | 0x38 => some ⟨4, false, false, [allBits, allBits, 1]⟩
  | 0x40 => some ⟨4, false, false, [1, allBits, allBits]⟩
  | 0x41 => some ⟨2, true, false, [1]⟩
  | 0x48 => some ⟨2, true, false, [0x7FFFFF]⟩
  | _ => none

/-- Commands 0x60–0x7F (Tables SB-9, TF-4, ON-3). -/
def shapeC : Nat → Option CmdShape
  | 0x60 => some ⟨2, true, false, [3]⟩
  | 0x61 => some ⟨3, false, false, [allBits, allBits]⟩
  | 0x62 => some ⟨2, false, false, [0x7F]⟩
  | 0x63 => some ⟨2, false, false, [0x7F]⟩
  | 0x64 => some ⟨2, true, false, [allBits]⟩
  | 0x65 => some ⟨4, false, false, [allBits, allBits, allBits]⟩
  | 0x66 => some ⟨3, false, false, [1, allBits]⟩
  | 0x70 => some ⟨4, false, true, [0x1FF, 0xFFFF, 0xFFFF]⟩
  | 0x71 => some ⟨1, false, true, []⟩
  | 0x72 => some ⟨2, false, true, [0xF]⟩
  | 0x73 => some ⟨2, true, false, [0x3F]⟩
  | 0x74 => some ⟨6, false, true, [allBits, allBits, 0xFFFFFFFFFF, collBits, low32]⟩
  | 0x75 => some ⟨3, false, false, [0x73FFF, allBits]⟩
  | 0x78 => some ⟨6, false, false, [3, allBits, allBits, low32, 0x3FFF]⟩
  | 0x79 => some ⟨5, false, false, [0x1FFFF, allBits, allBits, 0xFFFFFFFF00FFFFFF]⟩
  | 0x7A => some ⟨5, false, true, [0x30FFF, allBits, allBits, allBits]⟩
  | 0x7B => some ⟨14, false, true, [0xFFF0003, allBits, allBits, allBits, allBits, allBits, 0xFFFFFFFF00FFFFFF, allBits, allBits,
      allBits, allBits, allBits, allBits]⟩
  | 0x7C => some ⟨4, false, true, [low32, 0x3F7F, allBits]⟩
  | 0x7D => some ⟨7, false, true, [low32, allBits, allBits, 0xFFFFFFFFFF, collBits, low32]⟩
  | _ => none

/-- Commands 0x80–0x97 (Table PW-9, Table RE-10, R548). -/
def shapeD : Nat → Option CmdShape
  | 0x80 => some ⟨2, true, false, [0x1FFFFFF]⟩
  | 0x81 => some ⟨2, false, true, [allBits]⟩
  | 0x82 => some ⟨2, false, true, [allBits]⟩
  | 0x83 => some ⟨1, true, false, []⟩
  | 0x88 => some ⟨3, false, false, [allBits, low32]⟩
  | 0x89 => some ⟨2, false, false, [0xFFFFFFFF0003]⟩
  | 0x8A => some ⟨2, true, false, [0xFFFF0007]⟩
  | 0x8B => some ⟨3, false, false, [0xFFFFFFFF0003, 0xFFFF]⟩
  | 0x90 => some ⟨2, true, false, [1]⟩
  | _ => none

def cmdShape (op : Nat) : Option CmdShape :=
  if op < 0x20 then shapeA op else if op < 0x60 then shapeB op else if op < 0x80 then shapeC op else shapeD op

/-- A reserved bit of the header or of an argument word is set (R398). -/
def reservedSet (ws : List W64) (args : List Nat) : Bool :=
  wordBits ws 0 31 30 != 0 || wordBits ws 0 21 13 != 0 ||
    (List.range args.length).any (fun i => wordAt ws (i + 1) &&& (allBits - args.getD i 0) != 0)

/-! ## Checks (R398, R570) -/

/-- The lowest of the codes of the checks that fail, 0 when none does (R570). A check that holds gives `none` or 0. -/
def lowest (codes : List (Option Nat)) : Nat :=
  ((codes.filterMap id).filter (· != 0)).foldl (fun m c => if m = 0 then c else min m c) 0

/-- `code` where the check fails. -/
def failIf (bad : Bool) (code : Nat) : Option Nat := if bad then some code else none

/-- A recovery start is in force (R531). -/
def inRecovery (s : State) : Bool := getF s sbStatusStartType 0 == 2

/-- Commands that a recovery start accepts (R531). -/
def recoveryOps : List Nat := [0x00, 0x01, 0x02, 0x03, 0x04, 0x08, 0x0A, 0x0B, 0x60, 0x61, 0x62, 0x63, 0x64, 0x65, 0x66, 0x88]

/-- The module is quiescing or safe to remove (R544). -/
def quiescing (s : State) : Bool := decide (2 ≤ getF s mgStatusPanel 0)

/-- Commands that a quiescing module accepts (R544 step 1). -/
def quiesceOps : List Nat := [0x00, 0x01, 0x08, 0x88]

def jobExists (s : State) : Bool := flagSet s obStatusJob 0

/-- The checks of R376, R396, R398, R531 and R544 on a command: 0, or the lowest code that fails. `resv` lists the records
it reserves as (queue, number). -/
def commonCode (door : Door) (ws : List W64) (resv : List (Nat × Nat)) (s : State) : Nat :=
  let op := cmdOpcode ws
  match cmdShape op with
  | none => 0x0100
  | some sh =>
    lowest [
      failIf (reservedSet ws sh.args) 0x0100,
      failIf (cmdLen ws != sh.len || ws.length != sh.len) 0x0101,
      failIf (sh.job && !jobExists s) 0x0102,
      failIf (resv.any (fun r => !flagSet s cqStateEn r.1)) 0x0104,
      failIf (resv.any (fun r => flagSet s cqStateEn r.1 && 2 ^ getF s cqStateDepthLog2 r.1 < r.2)) 0x0105,
      failIf (inRecovery s && !recoveryOps.contains op) 0x0717,
      failIf (!sh.lark && (match door with | .lark _ => true | .sq _ => false)) 0x0813,
      failIf (quiescing s && !quiesceOps.contains op) 0x0A61]

/-! ## Acceptance and reservations (R390, R396) -/

/-- Free space of a completion queue: depth less records held less reservations. -/
def cqFree (s : State) (q : Nat) : Nat :=
  2 ^ getF s cqStateDepthLog2 q - ringUsed (getF s cqStateHead q) (getF s cqStateTail q) - (tgetD s.ob.cq q {}).resv

/-- Add `n` reservations on a queue. -/
def reserve (q n : Nat) (s : State) : State := { s with ob.cq := tmod s.ob.cq q {} (fun k => { k with resv := k.resv + n }) }

/-- Give back `n` reservations on a queue. -/
def unreserve (q n : Nat) (s : State) : State := { s with ob.cq := tmod s.ob.cq q {} (fun k => { k with resv := k.resv - n }) }

/-- A submission queue's head command waits: STATE waiting; CQ_WAIT set once per wait when the wait is for records. -/
def headWaits (door : Door) (forRecords : Bool) (s : State) : State :=
  match door with
  | .lark _ => s
  | .sq q =>
    let k := tgetD s.ob.sq q.val {}
    let t := setF sqStateState q.val 3 { s with ob.sq := tput s.ob.sq q.val { k with blocked := true, waitCounted := k.waitCounted || forRecords } }
    if forRecords && !k.waitCounted then raise flObStatusCqWait 0 t else t

/-- The head command has been accepted: the queue runs again. -/
def headGoes (door : Door) (s : State) : State :=
  match door with
  | .lark _ => s
  | .sq q =>
    let k := tgetD s.ob.sq q.val {}
    let t := { s with ob.sq := tput s.ob.sq q.val { k with blocked := false, waitCounted := false } }
    if getF t sqStateState q.val = 3 then setF sqStateState q.val 1 t else t

/-- What a command that reserves `resv` holds from its acceptance on: where a queue can never take them, the command is to be refused,
and holds the record of that refusal alone, the first of the list's queues being its own (R396). -/
def keptOf (resv : List (Nat × Nat)) (s : State) : List (Nat × Nat) :=
  if resv.all (fun r => flagSet s cqStateEn r.1 && r.2 ≤ 2 ^ getF s cqStateDepthLog2 r.1) then resv
  else ((resv.take 1).filter (fun r => flagSet s cqStateEn r.1)).map (fun r => (r.1, 1))

/-- What a command holds from its acceptance on has room now. -/
def recordsFit (resv : List (Nat × Nat)) (s : State) : Bool := (keptOf resv s).all (fun r => r.2 ≤ cqFree s r.1)

/-- Accept a command (R390, R396): number it, reserve its records, count it. -/
def takeCmd (door : Door) (ws : List W64) (resv : List (Nat × Nat)) (s : State) : OpenCmd × State :=
  let kept := keptOf resv s
  let oc : OpenCmd := { id := s.ob.nextId, door := door, words := ws, epoch := getF s hlStatusLinkEpoch 0, want := resv, resv := kept }
  let t := bump obCountsAccepted 0 1 { s with ob.openCmds := s.ob.openCmds ++ [oc], ob.nextId := s.ob.nextId + 1 }
  (oc, headGoes door (kept.foldl (fun t r => reserve r.1 r.2 t) t))

/-- The records an ordinary command reserves: its own completion record, none for a Lark request. -/
def ownRecord (door : Door) (ws : List W64) : List (Nat × Nat) :=
  match door with
  | .sq _ => [(cmdCq ws, 1)]
  | .lark _ => []

/-! ## Endings (R394, R395, R397) -/

/-- How a command ends: status of Table CF-4, reason and results. -/
structure CmdEnd where
  status : Nat
  reason : Nat := 0
  r0 : Nat := 0
  r1 : Nat := 0
  deriving DecidableEq, Repr

def endDone (r0 r1 : Nat) : CmdEnd := { status := 0, r0 := r0, r1 := r1 }
def endRefused (reason : Nat) (r0 : Nat := 0) : CmdEnd := { status := 1, reason := reason, r0 := r0 }
def endFailed (reason r0 : Nat) (r1 : Nat := 0) : CmdEnd := { status := 2, reason := reason, r0 := r0, r1 := r1 }
def endCancelled (reason : Nat) (r0 : Nat := 0) : CmdEnd := { status := 3, reason := reason, r0 := r0 }

def larkGet (s : State) (k : Nat) : LarkSlot := tgetD s.link.lark k {}
def larkPut (k : Nat) (l : LarkSlot) (s : State) : State := { s with link.lark := tput s.link.lark k l }

/-- LARK_CTRL of a request (Table HL-6), bytes 248–255. -/
def larkCtrl (l : LarkSlot) : Nat := bitsOf l.req 2047 1984

/-- Write a Lark answer and LARK_DONE, and raise event source 3 (R376, R397). -/
def larkAnswer (k : Nat) (reason len w0 w1 w2 : Nat) (s : State) : State :=
  let l := larkGet s k
  let done := packBits [(bitsOf (larkCtrl l) 63 48, 48), (reason, 16), (len, 11), (1, 0)]
  deliverEvent 3 (larkPut k { l with busy := false, ans := packBits [(w0 % 2 ^ 64, 0), (w1 % 2 ^ 64, 64), (w2 % 2 ^ 64, 128), (done, 1984)] } s)

/-- The number of a submission queue, zero for a Lark slot. -/
def doorSq : Door → Nat
  | .sq q => q
  | .lark _ => 0

/-- End a command: its reservations are given back, REFUSED set for a refusal, its record or answer written. -/
def endCmd (oc : OpenCmd) (e : CmdEnd) (s : State) : State :=
  let t := { s with ob.openCmds := s.ob.openCmds.filter (fun o => o.id != oc.id) }
  let now := ((s.ob.openCmds.find? (fun o => o.id == oc.id)).map (·.resv)).getD oc.resv
  let t := now.foldl (fun t r => unreserve r.1 r.2 t) t
  let t := if e.status = 1 then raise flObStatusRefused 0 t else t
  match oc.door with
  | .lark k => larkAnswer k e.reason 3 e.r0 e.r1 (e.status + cmdToken oc.words * 2 ^ 32) t
  | .sq q =>
    if e.status = 0 ∧ cmdQuiet oc.words then t
    else
      let c : CompRec := {
        r1 := e.r1, r0 := e.r0, token := cmdToken oc.words, reason := e.reason,
        opcode := cmdOpcode oc.words, sq := q, epoch := oc.epoch, status := e.status }
      cqWrite (cmdCq oc.words) c t

/-- End the open command numbered `id`. -/
def endById (id : Nat) (e : CmdEnd) (s : State) : State :=
  match s.ob.openCmds.find? (fun o => o.id == id) with
  | some oc => endCmd oc e s
  | none => s

/-! ## Running a command -/

/-- What a command's body answers: an ending now, or that the command runs on and ends later by its number. -/
inductive Body where
  | ends (e : CmdEnd) (s : State)
  | runs (s : State)

/-- A command may start: the commands of its queue accepted before it have started (R393), and with FENCE every one of them
has completed (R391). Log entry 161. -/
def mayStart (oc : OpenCmd) (s : State) : Bool :=
  !s.ob.openCmds.any (fun o => o.door == oc.door && o.id < oc.id && (cmdFence oc.words || !o.started))

/-- A command is marked as started. -/
def markStarted (oc : OpenCmd) (s : State) : State :=
  { s with ob.openCmds := s.ob.openCmds.map (fun o => if o.id == oc.id then { o with started := true } else o) }

/-- A JOB_DESTROY accepted earlier and not completed leaves the command without a job (R401). -/
def afterDestroy (oc : OpenCmd) (s : State) : Bool :=
  s.ob.openCmds.any (fun o => decide (o.id < oc.id) && cmdOpcode o.words == 0x11 && o.words.length == 2 && wordAt o.words 1 < 2) &&
    (match cmdShape (cmdOpcode oc.words) with | some sh => sh.job | none => false)

/-- The code of a check of its own that a command fails, where its words can be read at all (R570). -/
def bodyCode (body : OpenCmd → State → Body) (oc : OpenCmd) (s : State) : Option Nat :=
  if cmdLen oc.words != oc.words.length then none
  else match body oc s with
    | .ends e _ => failIf (e.status == 1) e.reason
    | .runs _ => none

/-- A started command: common checks, then its body; a failed check refuses it, with the lowest code of those that fail. -/
def runStarted (body : OpenCmd → State → Body) (oc : OpenCmd) (s : State) : State :=
  let code := lowest [failIf (afterDestroy oc s) 0x0102, some (commonCode oc.door oc.words oc.want s)]
  if code != 0 then endCmd oc (endRefused (lowest [some code, bodyCode body oc s])) s
  else match body oc s with
    | .ends e u => endCmd oc e u
    | .runs u => u

/-- Start an accepted command, where `gate` lets it. -/
def startCmd (gate : OpenCmd → State → Bool) (body : OpenCmd → State → Body) (oc : OpenCmd) (s : State) : State :=
  if !mayStart oc s || !gate oc s then s else runStarted body oc (markStarted oc s)

/-- The control processor serves a command of one row (R389, R393): one accepted before and not started, or a new one,
which is accepted if it can be and started at once. A command whose opcode is not the row's is not the row's. -/
def runWith (opOk : Bool) (resv : State → List (Nat × Nat)) (body : OpenCmd → State → Body) (c : Cmd) (s : State)
    (gate : OpenCmd → State → Bool := fun _ _ => true) : State :=
  if !opOk || !flagSet s obStatusReady 0 then s
  else match s.ob.openCmds.find? (fun o => o.door == c.door && o.words == c.words && !o.started) with
    | some oc => startCmd gate body oc s
    | none =>
      if 1024 ≤ s.ob.openCmds.length then headWaits c.door false s
      else if !recordsFit (resv s) s then headWaits c.door true s
      else
        let (oc, t) := takeCmd c.door c.words (resv s) s
        startCmd gate body oc t

/-- `runWith` for a row of opcode `op` that reserves only its own record. -/
def runCmd (op : Nat) (body : OpenCmd → State → Body) (c : Cmd) (s : State) : State :=
  runWith (cmdOpcode c.words == op) (fun _ => ownRecord c.door c.words) body c s

/-- A body that ends at once without effect on the state. -/
def refuseBody (code : Nat) (s : State) : Body := .ends (endRefused code) s

/-- A body of checks and an effect: the lowest failing code refuses. -/
def checked (codes : List (Option Nat)) (s : State) (go : Body) : Body :=
  let c := lowest codes
  if c != 0 then .ends (endRefused c) s else go

end Sys2Proof.Machine
end

