-- ==== Sys2Proof/Machine/Numbers.lean ====
section
/-! DEFINITION. Sys2Proof/Machine/Numbers.lean: number formats and arithmetic (R47–R73): every format's codes as exact
dyadic numbers, rounding in every mode, window accumulation, the strict loop, block conversion, integer conversion. -/
namespace Sys2Proof.Machine

/-- The formats of Table NF-1, and the working width of a fast FP32 chain: FP32 with 8 extra mantissa bits (R170). -/
inductive Fmt where
  | fp32 | fp64 | xf16 | xf8a | xf8b | xf6 | xf4 | xi8 | int32 | fp40
  deriving DecidableEq, Repr

/-- The format a code names; 0x9 to 0xF are reserved (R48). -/
def fmtOfCode : Nat → Option Fmt
  | 0 => some .fp32 | 1 => some .fp64 | 2 => some .xf16 | 3 => some .xf8a | 4 => some .xf8b
  | 5 => some .xf6 | 6 => some .xf4 | 7 => some .xi8 | 8 => some .int32 | _ => none

/-- Exponent bits, mantissa bits and bias (Table NF-1); zero for the integers. -/
def fmtShape : Fmt → Nat × Nat × Nat
  | .fp32 => (8, 23, 127) | .fp64 => (11, 52, 1023) | .xf16 => (6, 9, 31) | .xf8a => (4, 3, 7) | .xf8b => (5, 2, 15)
  | .xf6 => (3, 2, 3) | .xf4 => (2, 1, 1) | .xi8 => (0, 0, 0) | .int32 => (0, 0, 0) | .fp40 => (8, 31, 127)

def expBits (f : Fmt) : Nat := (fmtShape f).1
def manBits (f : Fmt) : Nat := (fmtShape f).2.1
def fmtBias (f : Fmt) : Nat := (fmtShape f).2.2

/-- Bits of one stored element; a block element without its scale. -/
def fmtBits : Fmt → Nat
  | .fp32 => 32 | .fp64 => 64 | .xf16 => 16 | .xf8a => 8 | .xf8b => 8 | .xf6 => 6 | .xf4 => 4 | .xi8 => 8 | .int32 => 32 | .fp40 => 40

def isBlock : Fmt → Bool
  | .xf6 => true | .xf4 => true | _ => false

def isInt : Fmt → Bool
  | .xi8 => true | .int32 => true | _ => false

/-- Formats with an infinity code (Table NF-2). -/
def hasInf : Fmt → Bool
  | .fp32 => true | .fp64 => true | .xf16 => true | .xf8b => true | .fp40 => true | _ => false

/-- Formats that SUBN governs (R69). -/
def subnFmt : Fmt → Bool
  | .fp32 => true | .fp64 => true | .xf16 => true | .fp40 => true | _ => false

/-- Formats that stochastic rounding applies to (R57). -/
def srFmt : Fmt → Bool
  | .xf16 => true | .xf8a => true | .xf8b => true | .xf6 => true | .xf4 => true | _ => false

/-- Formats with no code for a negative zero on output (R52). -/
def noNegZero : Fmt → Bool
  | .xf8a => true | .xf8b => true | .xf6 => true | .xf4 => true | _ => false

/-- Arithmetic flags, a bit mask in the layout of Table NF-11 [7:0]. -/
def fIV : Nat := 1
def fDZ : Nat := 2
def fOF : Nat := 4
def fUF : Nat := 8
def fIX : Nat := 16
def fFZ : Nat := 32
def fSA : Nat := 64
def fBN : Nat := 128

/-- Rounding modes (Table NF-6), and to nearest with ties away from zero, which only the cores have (R343). -/
inductive RMode where
  | rne | rz | rd | ru | sr | rmm
  deriving DecidableEq, Repr

def rmodeOf : Nat → Option RMode
  | 0 => some .rne | 1 => some .rz | 2 => some .rd | 3 => some .ru | 4 => some .sr | _ => none

/-- The arithmetic a task runs under: rounding mode, subnormals kept, strict mode (Table NF-10). -/
structure Arith where
  rmode : RMode := .rne
  subn : Bool := true
  strict : Bool := false
  trap : Bool := false
  deriving DecidableEq, Repr

/-- An exact number: a NaN (signalling or quiet), an infinity, or (−1)^neg × m × 2^e. -/
inductive Num where
  | nan (signalling : Bool)
  | inf (neg : Bool)
  | fin (neg : Bool) (m : Nat) (e : Int)
  deriving DecidableEq, Repr

def numZero : Num := .fin false 0 0
def numIsNan : Num → Bool | .nan _ => true | _ => false
def numIsZero : Num → Bool | .fin _ m _ => m == 0 | _ => false
def numNeg : Num → Bool | .nan _ => false | .inf n => n | .fin n _ _ => n
def numNegate : Num → Num | .nan s => .nan s | .inf n => .inf (!n) | .fin n m e => .fin (!n) m e
def numAbs : Num → Num | .nan s => .nan s | .inf _ => .inf false | .fin _ m e => .fin false m e

/-- 2^k for an exponent that may be negative: as (numerator, denominator exponent) a shift left by `k` when it is not. -/
def shl (m : Nat) (k : Int) : Nat := m <<< k.toNat

/-- The number an element's bits denote, and FZ when a nonzero subnormal is read as zero (R49–R52, R69). -/
def decodeNum (f : Fmt) (subn : Bool) (bits : Nat) : Num × Nat :=
  if isInt f then
    let x := signedOf (fmtBits f) bits
    (.fin (decide (x < 0)) x.natAbs 0, 0)
  else
    let mb := manBits f
    let eb := expBits f
    let neg := bitsOf bits (eb + mb) (eb + mb) == 1
    let e := bitsOf bits (eb + mb - 1) mb
    let m := bits % 2 ^ mb
    let top := 2 ^ eb - 1
    if e = top ∧ hasInf f ∧ m = 0 then (.inf neg, 0)
    else if e = top ∧ hasInf f then (.nan (decide (m < 2 ^ (mb - 1))), 0)
    else if e = top ∧ f = .xf8a ∧ m = 7 then (.nan false, 0)
    else if e = 0 then
      if m = 0 then (.fin (neg && !noNegZero f) 0 0, 0)
      else if subnFmt f && !subn then (.fin neg 0 0, fFZ)
      else (.fin neg m (1 - (fmtBias f : Int) - (mb : Int)), 0)
    else (.fin neg (2 ^ mb + m) ((e : Int) - (fmtBias f : Int) - (mb : Int)), 0)

/-- The canonical NaN of a destination (Table NF-2). -/
def canonNan : Fmt → Nat
  | .fp32 => 0x7FC00000 | .fp64 => 0x7FF8000000000000 | .xf16 => 0x7F00 | .xf8a => 0x7F | .xf8b => 0x7E | .fp40 => 0x7FC0000000 | _ => 0

/-- The code of an infinity; of the largest magnitude where the format has none. -/
def infCode (f : Fmt) (neg : Bool) : Nat :=
  let s := bit neg * 2 ^ (expBits f + manBits f)
  if hasInf f then s + (2 ^ expBits f - 1) * 2 ^ manBits f else s + (if f = .xf8a then 0x7E else 2 ^ (expBits f + manBits f) - 1)

/-- The code of the largest finite magnitude. -/
def maxCode (f : Fmt) (neg : Bool) : Nat :=
  if hasInf f then infCode f neg - 1 else infCode f neg

/-- The exponent of the leading bit of m × 2^e, m not zero. -/
def leadExp (m : Nat) (e : Int) : Int := (Nat.log2 m : Int) + e

/-- m × 2^e (and a nonzero amount below it, if `sticky`) in units of 2^q: whole units, remainder and its scale. -/
def toUnits (m : Nat) (e q : Int) : Nat × Nat × Nat :=
  if q ≤ e then (shl m (e - q), 0, 1) else (m >>> (q - e).toNat, m % 2 ^ (q - e).toNat, 2 ^ (q - e).toNat)

/-- Whether a magnitude rounds up: mode, sign, whole units, remainder / scale, sticky, the SR draw (R56, R58). -/
def roundsUp (mode : RMode) (neg : Bool) (n rem scale : Nat) (sticky : Bool) (draw : Nat) : Bool :=
  match mode with
  | .rz => false
  | .rd => neg && (rem != 0 || sticky)
  | .ru => !neg && (rem != 0 || sticky)
  | .rne => scale < 2 * rem || (2 * rem == scale && scale != 1 && (sticky || n % 2 == 1))
  | .sr => draw < rem * 65536 / scale
  | .rmm => scale ≤ 2 * rem && scale != 1

/-- An overflowed result: the code and its flags (R71). -/
def overflowCode (f : Fmt) (mode : RMode) (neg strict : Bool) : Nat × Nat :=
  let ix := if strict then fIX else 0
  if hasInf f then
    match mode with
    | .rne => (infCode f neg, fOF + ix)
    | .sr => (infCode f neg, fOF + ix)
    | .rmm => (infCode f neg, fOF + ix)
    | .rz => (maxCode f neg, fOF + ix)
    | .rd => (if neg then infCode f neg else maxCode f neg, fOF + ix)
    | .ru => (if neg then maxCode f neg else infCode f neg, fOF + ix)
  else (maxCode f neg, fOF + fSA + ix)

/-- Round (−1)^neg × (m × 2^e, and a nonzero amount below it if `sticky`) to a floating-point format: code and flags
(R56–R58, R68–R71). `a.strict` says whether the arithmetic that gives the result is strict; an overflow of XF8a is judged
after rounding, as R71 has it for the formats with infinities (log entry 117). -/
def roundFin (f : Fmt) (a : Arith) (draw : Nat) (neg : Bool) (m : Nat) (e : Int) (sticky : Bool) : Nat × Nat :=
  let mode := if a.rmode = .sr ∧ !srFmt f then .rne else a.rmode
  let strict := a.strict
  let mb := manBits f
  let emin : Int := 1 - (fmtBias f : Int)
  let sgn := bit neg * 2 ^ (expBits f + mb)
  if m = 0 then (if noNegZero f then 0 else sgn, 0)
  else
    let k := leadExp m e
    -- as if the exponent range were unbounded: is the rounded magnitude below the smallest normal?
    let u := toUnits m e (k - mb)
    let nu := u.1 + bit (roundsUp mode neg u.1 u.2.1 u.2.2 sticky draw)
    let tiny := k < emin && !(nu == 2 ^ (mb + 1) && k + 1 == emin)
    let q := (if k < emin then emin else k) - mb
    let v := toUnits m e q
    let n := v.1 + bit (roundsUp mode neg v.1 v.2.1 v.2.2 sticky draw)
    let inexact := v.2.1 != 0 || sticky
    let ix := if strict && inexact then fIX else 0
    let uf := if strict && inexact && tiny then fUF else 0
    if n = 0 then (if noNegZero f then 0 else sgn, ix + uf)
    else if n < 2 ^ mb then
      if subnFmt f && !a.subn then (sgn, fFZ + (if strict then fUF + fIX else 0))
      else (sgn + n, ix + uf)
    else
      let code := ((q - (emin - mb)).toNat + 1) * 2 ^ mb + (n - 2 ^ mb)
      if maxCode f false < code then overflowCode f mode neg strict
      else (sgn + code, ix + uf)

/-- Round an exact number to a floating-point format that is not a block format (R51, R71). -/
def roundNum (f : Fmt) (a : Arith) (draw : Nat) (x : Num) : Nat × Nat :=
  match x with
  | .nan _ => (canonNan f, 0)
  | .inf n => (infCode f n, if hasInf f then 0 else fOF + fSA)
  | .fin n m e => roundFin f a draw n m e false

/-- Round to an integer under a mode: (magnitude rounded, with its sign). -/
def roundInt (mode : RMode) (neg : Bool) (m : Nat) (e : Int) : Int :=
  let u := toUnits m e 0
  let n := u.1 + bit (roundsUp (if mode = .sr then .rne else mode) neg u.1 u.2.1 u.2.2 false 0)
  if neg then -(n : Int) else n

/-- IX of a finite value that is no integer, in strict mode (R68). -/
def intInexact (strict : Bool) (m : Nat) (e : Int) : Nat := if strict && decide (e < 0) && m % 2 ^ (-e).toNat != 0 then fIX else 0

/-- Convert to an integer of `w` bits, two's complement: rounds by RMODE (RNE under SR), saturates with SA alone, NaN gives 0
with IV (R72); within the limits an inexact result raises IX in strict mode (R68, log entry 167). -/
def convertInt (w : Nat) (strict : Bool) (mode : RMode) (x : Num) : Nat × Nat :=
  match x with
  | .nan _ => (0, fIV)
  | .inf n => (if n then 2 ^ (w - 1) else 2 ^ (w - 1) - 1, fSA)
  | .fin neg m e =>
    let v := roundInt mode neg m e
    if v < -(2 ^ (w - 1) : Nat) then (2 ^ (w - 1), fSA)
    else if (2 ^ (w - 1) : Nat) ≤ v then (2 ^ (w - 1) - 1, fSA)
    else (ofSigned w v, intInexact strict m e)

/-! ## Exact arithmetic -/

/-- The sum of two finite numbers; a zero sum of opposite signs is +0, or −0 under RD. -/
def addFin (mode : RMode) (n1 : Bool) (m1 : Nat) (e1 : Int) (n2 : Bool) (m2 : Nat) (e2 : Int) : Num :=
  let e := min e1 e2
  let a : Int := (if n1 then -1 else 1) * (shl m1 (e1 - e) : Nat)
  let b : Int := (if n2 then -1 else 1) * (shl m2 (e2 - e) : Nat)
  let s := a + b
  if s = 0 then
    if m1 = 0 ∧ m2 = 0 ∧ n1 = n2 then .fin n1 0 0 else .fin (mode == .rd) 0 0
  else .fin (decide (s < 0)) s.natAbs e

/-- Exact sum and IV (IEEE 754 rules for infinities and NaNs). -/
def addNum (mode : RMode) (x y : Num) : Num × Nat :=
  match x, y with
  | .nan _, _ => (.nan false, 0)
  | _, .nan _ => (.nan false, 0)
  | .inf a, .inf b => if a = b then (.inf a, 0) else (.nan false, fIV)
  | .inf a, _ => (.inf a, 0)
  | _, .inf b => (.inf b, 0)
  | .fin n1 m1 e1, .fin n2 m2 e2 => (addFin mode n1 m1 e1 n2 m2 e2, 0)

/-- Exact product and IV. -/
def mulNum (x y : Num) : Num × Nat :=
  match x, y with
  | .nan _, _ => (.nan false, 0)
  | _, .nan _ => (.nan false, 0)
  | .inf a, .inf b => (.inf (a != b), 0)
  | .inf a, .fin n m _ => if m = 0 then (.nan false, fIV) else (.inf (a != n), 0)
  | .fin n m _, .inf b => if m = 0 then (.nan false, fIV) else (.inf (n != b), 0)
  | .fin n1 m1 e1, .fin n2 m2 e2 => (.fin (n1 != n2) (m1 * m2) (e1 + e2), 0)

/-- IV for a signalling input in strict mode (R51, R68). -/
def snanFlag (strict : Bool) (xs : List Num) : Nat :=
  if strict && xs.any (fun x => match x with | .nan s => s | _ => false) then fIV else 0

/-- Fused multiply-add rounded once: code and flags. -/
def fmaRound (f : Fmt) (a : Arith) (draw : Nat) (x y z : Num) : Nat × Nat :=
  let p := mulNum x y
  let s := addNum a.rmode p.1 z
  let r := roundNum f a draw s.1
  (r.1, r.2 ||| p.2 ||| s.2 ||| snanFlag a.strict [x, y, z])

/-- Compare: some (−1, 0, 1) as an ordering, none when unordered. -/
def cmpNum (x y : Num) : Option Ordering :=
  match x, y with
  | .nan _, _ => none
  | _, .nan _ => none
  | .inf a, .inf b => some (compare (bit b) (bit a))
  | .inf a, _ => some (if a then .lt else .gt)
  | _, .inf b => some (if b then .gt else .lt)
  | .fin n1 m1 e1, .fin n2 m2 e2 =>
    let e := min e1 e2
    let a : Int := (if n1 then -1 else 1) * (shl m1 (e1 - e) : Nat)
    let b : Int := (if n2 then -1 else 1) * (shl m2 (e2 - e) : Nat)
    some (compare a b)

/-- A number known from below: sign, m and e of (−1)^sign × m × 2^e, and whether a nonzero amount lies above that. -/
abbrev Approx := Bool × Nat × Int × Bool

/-- Round such a number once. -/
def roundApprox (f : Fmt) (a : Arith) (draw : Nat) (v : Approx) : Nat × Nat := roundFin f a draw v.1 v.2.1 v.2.2.1 v.2.2.2

/-- The quotient of finite numbers, the second not 0, well beyond the last bit of `f`. -/
def divOf (f : Fmt) (n1 : Bool) (m1 : Nat) (e1 : Int) (n2 : Bool) (m2 : Nat) (e2 : Int) : Approx :=
  let sh := Nat.log2 m2 + manBits f + 20
  (n1 != n2, (m1 <<< sh) / m2, e1 - e2 - sh, (m1 <<< sh) % m2 != 0)

/-- Correctly rounded quotient with IEEE 754's special cases. -/
def divRound (f : Fmt) (a : Arith) (draw : Nat) (x y : Num) : Nat × Nat :=
  let sn := snanFlag a.strict [x, y]
  match x, y with
  | .nan _, _ => (canonNan f, sn)
  | _, .nan _ => (canonNan f, sn)
  | .inf _, .inf _ => (canonNan f, fIV)
  | .inf n, .fin n2 _ _ => (infCode f (n != n2), 0)
  | .fin n _ _, .inf n2 => (bit (n != n2) * 2 ^ (expBits f + manBits f), 0)
  | .fin n1 m1 e1, .fin n2 m2 e2 =>
    if m2 = 0 then (if m1 = 0 then (canonNan f, fIV) else (infCode f (n1 != n2), fDZ))
    else roundApprox f a draw (divOf f n1 m1 e1 n2 m2 e2)

/-- Integer square root by bits: `n` steps of bisection on the result. -/
def isqrtFrom (v : Nat) : Nat → Nat → Nat
  | 0, r => r
  | k + 1, r => if (r + 2 ^ k) * (r + 2 ^ k) ≤ v then isqrtFrom v k (r + 2 ^ k) else isqrtFrom v k r

def isqrt (v : Nat) : Nat := isqrtFrom v (Nat.log2 v / 2 + 1) 0

/-- The square root of a positive number, well beyond the last bit of `f`. -/
def sqrtOf (f : Fmt) (m : Nat) (e : Int) : Approx :=
  let odd := e % 2 ≠ 0
  let sh := 2 * (manBits f + 10)
  let v := (if odd then 2 * m else m) <<< sh
  let r := isqrt v
  (false, r, ((if odd then e - 1 else e) - sh) / 2, r * r != v)

/-- Correctly rounded square root with IEEE 754's special cases. -/
def sqrtRound (f : Fmt) (a : Arith) (draw : Nat) (x : Num) : Nat × Nat :=
  match x with
  | .nan s => (canonNan f, if a.strict && s then fIV else 0)
  | .inf n => if n then (canonNan f, fIV) else (infCode f false, 0)
  | .fin n m e =>
    if m = 0 then (bit n * 2 ^ (expBits f + manBits f), 0)
    else if n then (canonNan f, fIV)
    else roundApprox f a draw (sqrtOf f m e)

/-! ## Window accumulation (R61, R62) -/

/-- A nonzero FP32 significand brought to 24 bits, with its exponent: the slices are those of the leading bits. -/
def normal24 (m : Nat) (e : Int) : Nat × Int := (m <<< (23 - Nat.log2 m), e - (23 - Nat.log2 m : Nat))

/-- The product of two significands of 24 bits as the fast mode forms it: lo·lo is dropped, an error below 2⁻²² of the product
(Table NF-8). -/
def sliceProduct (m1 m2 : Nat) : Nat := m1 * m2 - (m1 % 4096) * (m2 % 4096)

/-- A product of the reduction in fast mode: exact, but three slice products for FP32 (Table NF-8). -/
def fastProduct (fp32 : Bool) (x y : Num) : Num × Nat :=
  match x, y with
  | .fin n1 m1 e1, .fin n2 m2 e2 =>
    if fp32 && m1 != 0 && m2 != 0 then
      let x := normal24 m1 e1
      let y := normal24 m2 e2
      (.fin (n1 != n2) (sliceProduct x.1 y.1) (x.2 + y.2), 0)
    else mulNum x y
  | _, _ => mulNum x y

/-- The exponent of the largest magnitude of the terms; none when all are zero. -/
def windowTop (ts : List Num) : Option Int :=
  ts.foldl (fun acc t => match t with
    | .fin _ m e => if m = 0 then acc else match acc with
      | none => some (leadExp m e)
      | some k => some (max k (leadExp m e))
    | _ => acc) none

/-- Sum of the terms truncated toward zero at 2^floor, in units of 2^floor, and the sticky bit. -/
def windowSum (floor : Int) (ts : List Num) : Int × Bool :=
  ts.foldl (fun acc t => match t with
    | .fin n m e =>
      let u := toUnits m e floor
      (acc.1 + (if n then -(u.1 : Int) else u.1), acc.2 || u.2.1 != 0)
    | _ => acc) (0, false)

/-- A sum in units of 2^floor with its sticky bit, as an exact number: a set sticky bit stands for a nonzero amount far
below the floor that extends the magnitude (step 5 of R61). -/
def stickyNum (neg : Bool) (m : Nat) (floor : Int) (sticky : Bool) : Num :=
  if sticky then .fin neg (m * 2 ^ 64 + 1) (floor - 64) else .fin neg m floor

/-- Reduce terms to the exact number that is rounded once, and IV; `depth` is 80, or 160 for FP64 inputs (Table NF-8). -/
def windowNum (mode : RMode) (depth : Nat) (ts : List Num) : Num × Nat :=
  let up := ts.any (fun t => t == .inf false)
  let down := ts.any (fun t => t == .inf true)
  if up && down then (.nan false, fIV)
  else if ts.any numIsNan then (.nan false, 0)
  else if up || down then (.inf down, 0)
  else match windowTop ts with
    | none => (.fin (mode == .rd) 0 0, 0)
    | some k =>
      let s := windowSum (k - depth) ts
      if s.1 = 0 then (.fin (mode == .rd) 0 0, 0) else (stickyNum (decide (s.1 < 0)) s.1.natAbs (k - depth) s.2, 0)

/-- Reduce terms and round once to the destination: code and flags. -/
def windowReduce (f : Fmt) (a : Arith) (draw depth : Nat) (ts : List Num) : Nat × Nat :=
  let w := windowNum a.rmode depth ts
  let r := roundNum f a draw w.1
  (r.1, r.2 ||| w.2)

/-! ## Stochastic rounding draws (R59) -/

def mix64 (z0 : Nat) : Nat :=
  let z := ((z0 ^^^ (z0 >>> 30)) * 0xBF58476D1CE4E5B9) % 2 ^ 64
  let z := ((z ^^^ (z >>> 27)) * 0x94D049BB133111EB) % 2 ^ 64
  z ^^^ (z >>> 31)

/-- The 16-bit draw of an element from the inputs of Table NF-7. -/
def srDraw (seed stream round trow tcol idx : Nat) : Nat :=
  let key := mix64 ((seed ^^^ ((stream <<< 32) ||| round)) % 2 ^ 64)
  let ctr := (trow <<< 48) ||| (tcol <<< 32) ||| idx
  mix64 ((key + ctr) % 2 ^ 64) >>> 48

/-! ## Block formats (R53–R55) -/

/-- The value of a block element: code, block scale S (255 marks NaN), nudge (zero for XF6). -/
def blockElem (f : Fmt) (code scale nudge : Nat) : Num :=
  if scale = 255 then .nan false
  else match (decodeNum f true code).1 with
    | .fin n m e => .fin n m (e + (scale : Int) - 127 - (nudge : Int))
    | x => x

/-- V of R55: the largest element magnitude. -/
def blockMax (f : Fmt) : Nat := if f = .xf4 then 6 else 28

/-- m × 2^e ≤ v × 2^k. -/
def magLe (m : Nat) (e : Int) (v : Nat) (k : Int) : Bool :=
  let b := min e k
  decide (shl m (e - b) ≤ shl v (k - b))

/-- The larger magnitude of two (m, e) pairs. -/
def magMax (x y : Nat × Int) : Nat × Int := if magLe x.1 x.2 y.1 y.2 then y else x

/-- The largest magnitude among the finite elements. -/
def blockTop (xs : List Num) : Nat × Int :=
  xs.foldl (fun a x => match x with | .fin _ m e => magMax a (m, e) | _ => a) (0, 0)

/-- ceil(log₂(a / V)) for a = m × 2^e not zero (step 3 of R55), before the clamp. -/
def blockExp (f : Fmt) (m : Nat) (e : Int) : Int :=
  let k := leadExp m e - (Nat.log2 (blockMax f) : Int)
  if magLe m e (blockMax f) k then k else k + 1

/-- The nudge of a group: the largest n in 0–3 with group maximum × 2^n ≤ V × 2^E (step 4 of R55). -/
def nudgeOf (f : Fmt) (e0 : Int) (top : Nat × Int) : Nat :=
  if magLe top.1 (top.2 + 3) (blockMax f) e0 then 3
  else if magLe top.1 (top.2 + 2) (blockMax f) e0 then 2
  else if magLe top.1 (top.2 + 1) (blockMax f) e0 then 1 else 0

/-- A converted block: element codes, scale byte, nudge byte, flags. -/
structure Block where
  codes : List Nat
  scale : Nat
  nudges : Nat
  flags : Nat
  deriving DecidableEq, Repr

/-- One element of a block divided by its scale and rounded to an element code (steps 5–7 of R55). -/
def blockRound (f : Fmt) (a : Arith) (draw : Nat) (e0 : Int) (nudge : Nat) (x : Num) : Nat × Nat :=
  match x with
  | .fin n m e =>
    if magLe m (e - e0 + nudge) (blockMax f) 0 then
      roundFin f { a with subn := true } draw n m (e - e0 + nudge) false
    else (maxCode f n, fOF + fSA)
  | .inf n => (maxCode f n, fOF + fSA)
  | .nan _ => (0, 0)

/-- Elements of group `g` of eight. -/
def groupOf (xs : List Num) (g : Nat) : List Num := (xs.drop (8 * g)).take 8

/-- Convert 32 numbers into a block (R55); `draws` gives each element's SR draw. A block with no finite element takes a = 0, and
a group with none takes nudge 3 beside a group that has one (log entry 118). -/
def toBlock (f : Fmt) (a : Arith) (draws : Nat → Nat) (xs : List Num) : Block :=
  if xs.any numIsNan then ⟨xs.map (fun _ => 0), 255, 0, fBN⟩
  else
    let top := blockTop xs
    let e0 : Int := if top.1 = 0 then -127 else max (-127) (min 127 (blockExp f top.1 top.2))
    let nudge := fun g => if f = .xf4 ∧ top.1 ≠ 0 then nudgeOf f e0 (blockTop (groupOf xs g)) else 0
    let rs := (List.range xs.length).zip xs |>.map (fun p => blockRound f a (draws p.1) e0 (nudge (p.1 / 8)) p.2)
    ⟨rs.map (·.1), (e0 + 127).toNat, packBits [(nudge 0, 0), (nudge 1, 2), (nudge 2, 4), (nudge 3, 6)], rs.foldl (fun x r => x ||| r.2) 0⟩

end Sys2Proof.Machine
end

