-- ==== Sys2Proof/Machine/Paths.lean ====
section
/-! DEFINITION. Sys2Proof/Machine/Paths.lean: the Loam's electrical links and optical rings as messages see them, and the path
of a message between two dies (R458–R461). -/
namespace Sys2Proof.Machine

/-! ## Electrical links (R458) -/

/-- Dies joined by an electrical link, the lower-numbered first (Table DD-1). -/
def linkEnds (l : Nat) : Nat × Nat :=
  if l < 8 then (l / 2, 8 + l)
  else if l < 16 then (4 + (l - 8) / 2, 8 + l)
  else if l < 22 then (4 * ((l - 16) / 3) + (l - 16) % 3, 4 * ((l - 16) / 3) + (l - 16) % 3 + 1)
  else if l < 30 then (l - 22, 24 + (l - 22) % 4 / 2)
  else match l with
    | 30 => (24, 25)
    | 31 => (0, 26)
    | 32 => (4, 26)
    | 33 => (24, 26)
    | 34 => (8, 26)
    | 35 => (16, 26)
    | 36 => (3, 27)
    | 37 => (7, 27)
    | 38 => (25, 27)
    | 39 => (15, 27)
    | _ => (23, 27)

/-- Links of a die. -/
def linksOf (d : Nat) : List Nat := (List.range 41).filter (fun l => (linkEnds l).1 == d || (linkEnds l).2 == d)

/-- The link that joins two dies. -/
def linkJoining (a b : Nat) : Option Nat := (List.range 41).find? (fun l => linkEnds l == (min a b, max a b))

/-- A link carries frames, on its lanes or moved to the detour channels: neither fenced nor down (Table DD-8). -/
def linkCarries (s : State) (l : Nat) : Bool := getF s ddLinkStatusState l < 2

/-! ## Optical rings (R460, R461) -/

/-- A ring joins two dies: it is not lost, and both stops on it are up. -/
def ringJoins (s : State) (r a b : Nat) : Bool :=
  !flagSet s ddRingStatusLost r && (getF s ddRingStatusStopUp r).testBit a && (getF s ddRingStatusStopUp r).testBit b

/-- Rings in the order a message between two dies tries them: the direction with fewer stops between, a tie clockwise; within it
ring 0 or 2 for an even sum of the die numbers; then the other ring of the direction; then the other direction. Stops stand on a
ring in die-number order (log entry 132). -/
def ringOrder (a b : Nat) : List Nat :=
  let cw := (b + 28 - a) % 28
  let odd := (a + b) % 2
  if cw ≤ 28 - cw then [odd, 1 - odd, 2 + odd, 3 - odd] else [2 + odd, 3 - odd, odd, 1 - odd]

/-- Links that lead on from die `d`, with the dies they lead to. -/
def hopsFrom (s : State) (d : Nat) : List (Nat × Nat) :=
  ((linksOf d).filter (linkCarries s)).map (fun l => (l, (linkEnds l).1 + (linkEnds l).2 - d))

/-- The electrical links from the dies reached so far to die `b`, on the fewest hops, at most `n` more. `front` holds the last
dies reached with the links that led there. -/
def linkHops (s : State) (b : Nat) : Nat → List (Nat × List Nat) → List Nat → Option (List Nat)
  | 0, _, _ => none
  | n + 1, front, seen =>
    match front.find? (fun e => e.1 == b) with
    | some e => some e.2
    | none =>
      let next := front.foldl (fun (acc : List (Nat × List Nat) × List Nat) e =>
        (hopsFrom s e.1).foldl (fun acc h =>
          if acc.2.contains h.2 then acc else (acc.1 ++ [(h.2, e.2 ++ [h.1])], h.2 :: acc.2)) acc) ([], seen)
      linkHops s b n next.1 next.2

/-- The path of a message from die `a` to die `b` (R461). -/
def loamPath (s : State) (a b : Nat) : LoamPath :=
  match (linkJoining a b).filter (linkCarries s) with
  | some l => .links [l]
  | none => match (ringOrder a b).find? (fun r => ringJoins s r a b) with
    | some r => .ring r
    | none => match linkHops s b 28 [(a, [])] [a] with
      | some ls => .links ls
      | none => .links []

end Sys2Proof.Machine
end

