-- ==== Sys2Proof/Machine/Coherence.lean ====
section
/-! DEFINITION. Sys2Proof/Machine/Coherence.lean: homes, directories, caching agents and page bias (R286–R311). Data is
held once, in `mem`: a byte of `mem` is the value a coherent read of it returns (log entry 4). -/
namespace Sys2Proof.Machine

/-! ## Atomic operations (Table TG-5, R204–R206, R299) -/

def atomBits : AtomTy → Nat
  | .u32 => 32 | .s32 => 32 | .b32 => 32 | .fp32 => 32 | .u64 => 64 | .s64 => 64 | .b64 => 64 | .fp64 => 64

/-- The operation and type pairs of Table TG-5. -/
def atomListed : AtomOp → AtomTy → Bool
  | .add, t => t == .u32 || t == .u64 || t == .fp32 || t == .fp64
  | .min, t => t == .s32 || t == .u32 || t == .s64 || t == .u64 || t == .fp32
  | .max, t => t == .s32 || t == .u32 || t == .s64 || t == .u64 || t == .fp32
  | _, t => t == .b32 || t == .b64

/-- Less in the order of R169 on numbers: −0 below +0; no NaN. -/
def fpLess (x y : Num) : Bool :=
  match cmpNum x y with
  | some .lt => true
  | some .eq => numIsZero x && numIsZero y && numNeg x && !numNeg y
  | _ => false

/-- MIN or MAX of two patterns of the type. -/
def atomMinMax (isMin : Bool) (ty : AtomTy) (x y : Nat) : Nat :=
  let less : Bool := match ty with
    | .s32 => decide (signedOf 32 x < signedOf 32 y)
    | .s64 => decide (signedOf 64 x < signedOf 64 y)
    | _ => decide (x < y)
  match ty with
  | .fp32 =>
    let a := (decodeNum .fp32 true x).1
    let b := (decodeNum .fp32 true y).1
    if numIsNan a || numIsNan b then canonNan .fp32 else if fpLess b a == isMin then y else x
  | _ => if less == isMin then x else y

/-- FP ADD rounded once to nearest even, subnormals kept (R299). -/
def atomFpAdd (f : Fmt) (x y : Nat) : Nat :=
  (roundNum f {} 0 (addNum .rne (decodeNum f true x).1 (decodeNum f true y).1).1).1

/-- The new value of a location under an atomic operation. -/
def atomApply (op : AtomOp) (ty : AtomTy) (old x cmp : Nat) : Nat :=
  let w := 2 ^ atomBits ty
  match op with
  | .add => match ty with
    | .fp32 => atomFpAdd .fp32 old x
    | .fp64 => atomFpAdd .fp64 old x
    | _ => (old + x) % w
  | .min => atomMinMax true ty old (x % w)
  | .max => atomMinMax false ty old (x % w)
  | .and => old &&& (x % w)
  | .or => old ||| (x % w)
  | .xor => old ^^^ (x % w)
  | .exch => x % w
  | .cas => if old = cmp % w then x % w else old

/-! ## Messages -/

/-- The die of an agent (R286) or of an I/O port (R287). -/
def portDie (p : Nat) : Nat := if p < 8 then p else 16 + p

/-- The dies that a message of a line goes between: from, to. -/
def msgDies (port line : Nat) (toAgent : Bool) : Nat × Nat :=
  let home := 8 + homeOf (line * 128)
  if toAgent then (home, portDie port) else (portDie port, home)

/-- A message leaves on the path that its pair of dies fixes (R461). -/
def sendMsg (k : CohMsgKind) (port line : Nat) (toAgent : Bool) (s : State) (flag : Bool := false) (answer : NcAnswer := {})
    (first : Nat := 0) : State :=
  let d := msgDies port line toAgent
  { s with coh.msgs := s.coh.msgs ++ [⟨k, port, line, toAgent, flag, loamPath s d.1 d.2, answer, first, loamStampOf s d.1⟩] }

/-- Transient mode (Table CO-9). -/
def transientMode (s : State) : Bool := getF s coCtrlMode 0 == 1

/-- The queue of a message between two dies: its channel, REQ 0, WB 1, SNP 2, RSP 3, CMP 4 (Table CO-2); in transient mode SNP and
CMP share one (R294, R461). -/
def chanOfMsg (transient : Bool) : CohMsgKind → Nat
  | .rds => 0 | .rdx => 0 | .upg => 0 | .ncrd => 0 | .ncwr => 0
  | .wbm => 1 | .wbc => 1 | .evs => 1
  | .snps => 2 | .snpi => 2
  | .rsps => 3 | .rspi => 3 | .rspsd => 3 | .rspid => 3 | .cmpack => 3
  | _ => if transient then 2 else 4

/-- The message of a kind that is in flight. -/
def msgFind (k : CohMsgKind) (port line : Nat) (toAgent : Bool) (s : State) : Option CohMsg :=
  s.coh.msgs.find? (fun m => m.kind == k && m.port == port && m.line == line && m.toAgent == toAgent)

/-- Two messages go between the same dies in the same queue, in which messages arrive in the order sent (R461). -/
def sameQueue (s : State) (x m : CohMsg) : Bool :=
  x.toAgent == m.toAgent && msgDies x.port x.line x.toAgent == msgDies m.port m.line m.toAgent &&
    chanOfMsg (transientMode s) x.kind == chanOfMsg (transientMode s) m.kind

/-- The message that arrives next in the queue of `m`. -/
def queueHead (s : State) (m : CohMsg) : CohMsg := (s.coh.msgs.find? (fun x => sameQueue s x m)).getD m

/-- A message of the same queue between the same dies was sent before and has not arrived. -/
def msgBehind (k : CohMsgKind) (port line : Nat) (toAgent : Bool) (s : State) : Bool :=
  match msgFind k port line toAgent s with
  | none => false
  | some m => queueHead s m != m

/-- The flag of a message in flight to an agent. -/
def msgFlag (k : CohMsgKind) (port line : Nat) (s : State) : Bool :=
  match msgFind k port line true s with | some m => m.flag | none => false

/-- A message has arrived over the Loam: it is in flight no more, and its stamp raises the receiver's floor (R39). -/
def msgArrives (m : CohMsg) (s : State) : State :=
  loamStamp m.stamp (msgDies m.port m.line m.toAgent).2 { s with coh.msgs := s.coh.msgs.erase m }

def recvMsg (k : CohMsgKind) (port line : Nat) (toAgent : Bool) (s : State) : State :=
  match msgFind k port line toAgent s with
  | some m => msgArrives m s
  | none => s

/-- The die that a message goes to is in service; one that is not takes nothing (R468). -/
def receiverUp (s : State) (port line : Nat) (toAgent : Bool) : Bool := dieUp s (msgDies port line toAgent).2

/-- A message arrives and has its effect; one that another of its queue must come before does not arrive yet. -/
def msgAct (k : CohMsgKind) (port line : Nat) (toAgent : Bool) (f : State → State) (s : State) : Host.Outcome State Fault Refusal :=
  homeAct s (if msgBehind k port line toAgent s then s
    else if receiverUp s port line toAgent then f (recvMsg k port line toAgent s) else recvMsg k port line toAgent s)

/-- REQ credits of a port (R293). -/
def portCredits (p : Nat) : Nat := if p < 8 then 32 else if p < 10 then 16 else 8

def creditKey (home port : Nat) : Nat := home * 12 + port

/-- Send a REQ if the port has a credit; none when it must be held. -/
def sendReq (k : CohMsgKind) (port line first : Nat) (s : State) : Option State :=
  let key := creditKey (homeOfLine line) port
  let n := tgetD s.coh.credits key 0
  if n < portCredits port then some (sendMsg k port line false { s with coh.credits := tput s.coh.credits key (n + 1) } (first := first)) else none

def reqMsg : ReqKind → CohMsgKind
  | .rds => .rds | .rdx => .rdx | .upg => .upg | .ncrd => .ncrd | _ => .ncwr

/-- An agent makes a request for a line; without a credit it holds the request (R293). -/
def agentRequest (a line : Nat) (k : ReqKind) (s : State) : State :=
  let c := cacheLine s a line
  match sendReq (reqMsg k) a line c.first s with
  | some t => setCacheLine a line { c with req := some k, held := false, nacked := false } t
  | none => setCacheLine a line { c with req := some k, held := true } s

/-- A credit comes back to a port, with the completion or Nack that arrives there: the oldest request of a line that the port holds
for that home is sent (R293). -/
def creditBack (home port : Nat) (s : State) : State :=
  let key := creditKey home port
  let t := { s with coh.credits := tput s.coh.credits key (tgetD s.coh.credits key 0 - 1) }
  match t.coh.lines.find? (fun e => e.1 / 2 ^ 34 == port && e.2.held && homeOfLine (e.1 % 2 ^ 34) == home) with
  | some e => match e.2.req with
    | some k => agentRequest port (e.1 % 2 ^ 34) k t
    | none => t
  | none => t

/-! ## Page bias (R305–R308) -/

def setBias (page : Nat) (host : Bool) (s : State) : State :=
  let a := biasTable s + page / 8
  writeNum a 1 (withBits (readByte s a).toNat (page % 8) (page % 8) (bit host)) s

/-- A home refuses an access of the host to the bias table: it is not performed, and a notice says so (R306; log entry 113). -/
def tableRefused (a : Nat) (s : State) : State := notice 0x0527 a (8 + homeOf a) s

/-! ## Homes -/

def txnPut (key : Nat) (e : DirEnt) (t : Txn) (s : State) : State :=
  match e.txn with
  | some k => { s with coh.txns := tput s.coh.txns (key / 524288 * 1024 + k) t }
  | none => s

def freeSlot (s : State) (home : Nat) : Nat :=
  ((List.range 1024).find? (fun i => (tget s.coh.txns (home * 1024 + i)).isNone)).getD 1023

/-- Send snoops to the agents of a mask. -/
def snoopMask (k : CohMsgKind) (mask line : Nat) (s : State) : State :=
  (List.range 10).foldl (fun t a => if mask.testBit a then sendMsg k a line true t else t) s

/-- Sectors of a line that hold poison, as a mask. -/
def linePoison (s : State) (line : Nat) : Nat :=
  (List.range 4).foldl (fun m k => if poisoned s (line * 128 + 32 * k) 32 then m + 2 ^ k else m) 0

/-- What NcData brings of a line: the sectors asked for, each with its poison bit (R293, R299). -/
def ncAnswer (s : State) (r : HomeReq) : NcAnswer :=
  { sectors := r.sectors, poison := linePoison s r.line &&& r.sectors, by_ := r.by_
    value := (List.range 4).foldl (fun v k => if r.sectors.testBit k then v + readNum s (r.line * 128 + 32 * k) 32 * 256 ^ (32 * k) else v) 0 }

/-- The answer to the requester of a finished request, and the line's new state in the entry; the transaction closes, or
in retry mode waits for CmpAck in OA (R299, R300). -/
def sendGrant (key : Nat) (e : DirEnt) (t : Txn) (s : State) : State :=
  let line := t.req.line
  let keep := if t.ownerKeepsS then (match t.owner with | some o => 2 ^ o | none => 0) else 0
  let r := t.req.port
  let done := fun (e : DirEnt) (k : CohMsgKind) (a : NcAnswer) (u : State) =>
    let u := sendMsg k r line true u false a
    if transientMode u || !isCaching t.req.kind then closeTxn key e (dirPut key e u)
    else txnPut key e { t with phase := .oa } (dirPut key e u)
  match t.req.kind with
  | .rds =>
    if e.st = 1 ∧ e.sharers ≠ 0 then done { e with sharers := e.sharers ||| 2 ^ r } .datas {} s
    else if keep != 0 then done { e with st := 1, sharers := keep ||| 2 ^ r } .datas {} s
    else done { e with st := 2, sharers := 2 ^ r } .datax {} s
  | .rdx => done { e with st := 2, sharers := 2 ^ r } .datax {} s
  | .upg => done { e with st := 2, sharers := 2 ^ r } (if t.wasSharer then .gntx else .datax) {} s
  | .ncrd =>
    let e' := if e.st = 2 then (if keep != 0 then { e with st := 1, sharers := keep } else { e with st := 0, sharers := 0 }) else e
    if r ≥ 12 then closeTxn key e' (dirPut key e' s)
    else done e' .ncdata (ncAnswer s t.req) s
  | .ncwr =>
    let e' := { e with st := 0, sharers := 0 }
    match t.req.write with
    | some (.bytes w) => done e' .ncack { by_ := t.req.by_ } (applyLineWrite line w s)
    | some (.atomic op ty off x c) =>
      let a := line * 128 + off.toNat / (atomBits ty / 8) * (atomBits ty / 8)
      let old := readNum s a (atomBits ty / 8)
      let bad := poisoned s a 1
      done e' .ncack { value := old, poison := bit bad, by_ := t.req.by_ }
        (if bad then s else writeNum a (atomBits ty / 8) (atomApply op ty old x.toNat c.toNat) s)
    | none => done e' .ncack { by_ := t.req.by_ } s
  | .recall => closeTxn key { e with st := 0, sharers := 0 } (dirPut key { e with st := 0, sharers := 0 } s)
  | .hostOwn =>
    done { e with st := 0, sharers := 0 } .ncdata (ncAnswer s t.req) s
  | .eccSweep =>
    let u := if 2 ≤ t.dirty then poisonRange (line * 128) 128 s else s
    closeTxn key { e with st := 0, sharers := 0 } (dirPut key { e with st := 0, sharers := 0 } u)

/-- Sectors that a masked line write covers whole, and in part. -/
def writeSectors (w : LineWrite) : Nat × Nat :=
  (List.range 4).foldl (fun acc k =>
    let m := bitsOf w.mask.toNat (32 * k + 31) (32 * k)
    if m = 2 ^ 32 - 1 then (acc.1 + 2 ^ k, acc.2) else if m = 0 then acc else (acc.1, acc.2 + 2 ^ k)) (0, 0)

/-- What a request asks of the slice: a write its sectors, an atomic operation the one that it changes, a read those wanted. -/
def reqSlice (r : HomeReq) : SliceReq :=
  let port := min r.port 12
  match r.by_, r.kind, r.write with
  | .whole q, _, _ => q
  | _, .ncwr, some (.bytes w) => { line := r.line, port := port, full := (writeSectors w).1, part := (writeSectors w).2 }
  | _, .ncwr, some (.atomic _ _ off _ _) => { line := r.line, port := port, part := 2 ^ (off.toNat / 32 % 4) }
  | _, _, _ => { line := r.line, port := port, read := r.sectors, first := r.first }

/-- All answers are in: grant with the data of a response, or after a slice access (R299). -/
def finishTxn (key : Nat) (e : DirEnt) (t : Txn) (s : State) : State :=
  if t.dirty != 0 || (t.req.kind == .upg && t.wasSharer) || t.req.kind == .recall || t.req.kind == .eccSweep || t.req.port ≥ 12 then
    sendGrant key e t s
  else txnPut key e { t with phase := .om, await := 0 } (sliceAccess (reqSlice t.req) s)

/-- Open a transaction on an entry. -/
def beginTxn (key : Nat) (e : DirEnt) (t : Txn) (s : State) : State :=
  let slot := if (entryTxn s key e).isSome then e.txn.getD 0 else freeSlot s (key / 524288)
  let e' := { e with txn := some slot, stamp := s.coh.clock + 1 }
  txnPut key e' t (dirPut key e' { s with coh.clock := s.coh.clock + 1 })

/-- A recall runs on a way of the set whose entries start at `b`. -/
def recalling (s : State) (b : Nat) : Bool :=
  (List.range 16).any (fun w => match tget s.coh.dir (b + w) with
    | some e => (match entryTxn s (b + w) e with | some x => x.req.kind == .recall | none => false)
    | none => false)

/-- A request that waits is decided: it leaves the list of those that wait. -/
def taken (r : HomeReq) (again : Bool) (s : State) : State :=
  if again then { s with coh.waiting := s.coh.waiting.erase r } else s

/-- A request that cannot be served now: nacked in retry mode, with the reservation of R301; on the pending list in
transient mode (R300). `again` when it waits already; there it keeps its place. -/
def nackOrPend (r : HomeReq) (again : Bool) (s : State) : State :=
  let h := homeOfLine r.line
  if transientMode s then
    if again then s else bump coCountsPended h 1 { s with coh.waiting := s.coh.waiting ++ [r] }
  else
    let u := taken r again s
    let u := if isCaching r.kind then u else { u with coh.ncNacked := u.coh.ncNacked ++ [r] }
    let t := bump coCountsNacks h 1 (sendMsg .nack r.port r.line true u (!isCaching r.kind))
    match dirFind t r.line with
    | some (key, e) => if e.resv = none then dirPut key { e with resv := some r.port } t else t
    | none => t

/-- The home completes a request with poison: no copy is granted; a reader receives every sector poisoned (R297, R306, R310). Log
entry 169. -/
def endPoisoned (r : HomeReq) (s : State) : State :=
  if isCaching r.kind then sendMsg .datas r.port r.line true s (flag := true)
  else sendMsg (if r.kind == .ncwr then .ncack else .ncdata) r.port r.line true s false
    { sectors := r.sectors, poison := r.sectors, by_ := r.by_ }

/-- A caching agent's request ends without a copy; what waited for the line has received poison. -/
def requestEnds (a line : Nat) (s : State) : State :=
  setCacheLine a line { cacheLine s a line with req := none, held := false, nacked := false, stores := [], loads := 0, first := 0 } s

/-- The requester's own die ends a request to a lost home (R304). -/
def endLocal (r : HomeReq) (s : State) : State :=
  if isCaching r.kind then creditBack (homeOfLine r.line) r.port (requestEnds r.port r.line s) else endPoisoned r s

/-- A message that cannot occur, at a home (R297): record, line poisoned, PROTO_ERR. -/
def homeProtoErr (line sender : Nat) (s : State) : State :=
  let h := homeOfLine line
  writeErr { level := lvPackage, unit := 8 + h, subunit := sender, reason := 0x0528, cls := 0x04, verdict := vTransient } none
    (raise flCoStatusProtoErr h (poisonRange (line * 128) 128 s))

/-- A request that cannot occur: its sender is completed with poison (R297). -/
def homeBadReq (r : HomeReq) (s : State) : State := endPoisoned r (homeProtoErr r.line r.port s)

/-- The answer of the stable states (Table CO-5) for a line whose entry is at `key`; device bias or the host has answered. -/
def decideStable (r : HomeReq) (key : Nat) (e : DirEnt) (s : State) : State :=
  let a := r.port
  let mine := decide (a < 10) && e.sharers.testBit a
  let others := if a < 10 then withBits e.sharers a a 0 else e.sharers
  let owner := (List.range 10).find? (fun x => e.sharers.testBit x)
  let os := fun (k : CohMsgKind) (mask : Nat) (own : Option Nat) (was : Bool) =>
    snoopMask k mask r.line (beginTxn key e { req := r, phase := .os, await := mask, owner := own, wasSharer := was } s)
  let now := fun (was : Bool) =>
    let t : Txn := { req := r, phase := .om, wasSharer := was }
    let u := beginTxn key e t s
    match dirFind u r.line with
    | some (k, e') => finishTxn k e' t u
    | none => u
  match e.st, r.kind with
  | 0, _ => now false
  | 1, .rds => if mine then homeBadReq r s else now false
  | 1, .rdx => if mine then homeBadReq r s else os .snpi e.sharers none false
  | 1, .upg => if mine then (if others = 0 then now true else os .snpi others none true) else os .snpi e.sharers none false
  | 1, .ncrd => now false
  | 1, _ => os .snpi e.sharers none false
  | _, .rds => if mine then homeBadReq r s else os .snps e.sharers owner false
  | _, .ncrd => os .snps e.sharers owner false
  | _, .rdx => if mine then homeBadReq r s else os .snpi e.sharers owner false
  | _, .upg => if mine then homeBadReq r s else os .snpi e.sharers owner false
  | _, _ => os .snpi e.sharers owner false

/-- The device-to-host request a request for a host-bias line sends (R307). -/
def d2hKind (r : HomeReq) : Nat :=
  match r.kind, r.write with
  | .rds, _ => 0
  | .rdx, _ => 1
  | .upg, _ => 2
  | .ncwr, some (.bytes w) => if w.mask.toNat = 2 ^ 128 - 1 then 2 else 1
  | .ncwr, _ => 1
  | _, _ => 3

/-- A request is decided on an entry: a line of a host-bias page asks the host first, unless the host itself asks (R307, R308);
while the link is down it ends with poison (R310). -/
def decideAt (r : HomeReq) (key : Nat) (e : DirEnt) (s : State) : State :=
  if hostBias s (pageOf (r.line * 128)) && r.by_ != .cxl && r.kind != .recall then
    if getF s hlStatusLinkUp 0 = 0 then endPoisoned r (notice 0x0525 (r.line * 128) (8 + homeOfLine r.line) (closeTxn key e s))
    else hostSend (.d2h (d2hKind r) (r.line * 128)) (beginTxn key e { req := r, phase := .os, d2h := true } s)
  else decideStable r key e s

/-- A home decides a request with an entry at hand, or takes one for it: sweep, open line, reservation, room, bias, then
Table CO-5 (R291, R299–R301, R303, R307, R310). `again` for a request that waits already. -/
def decideReq (r : HomeReq) (again : Bool) (s : State) : State :=
  let h := homeOfLine r.line
  if s.lostHomes.contains h then endLocal r (taken r again s)
  else match dirFind s r.line with
  | some (key, e) =>
    if (match tget s.coh.sweeping h with | some a => e.sharers &&& a != 0 | none => false) then
      if again then s else { s with coh.waiting := s.coh.waiting ++ [r] }
    else if (entryTxn s key e).isSome then nackOrPend r again s
    else if (match e.resv with | some p => p != r.port | none => false) then nackOrPend r again s
    else decideAt r key { e with resv := none } (taken r again s)
  | none =>
    let b := dirBase h (dirSetOf r.line)
    match (List.range 16).find? (fun w => (tget s.coh.dir (b + w)).isNone) with
    | some w => decideAt r (b + w) { tag := dirTagOf r.line, stamp := s.coh.clock } (taken r again s)
    | none =>
      match dirVictim s b with
      | none => nackOrPend r again (raise flCoStatusPinFull h s)
      | some (key, e) =>
        -- one recall runs in a set at a time; meanwhile the request is nacked or held (DEDUCED, log entry 44)
        if recalling s b then nackOrPend r again s else
        let vl := lineOfEntry key e
        let own := if e.st = 2 then (List.range 10).find? (fun x => e.sharers.testBit x) else none
        let u := beginTxn key e { req := { kind := .recall, port := 99, line := vl }, phase := .os, await := e.sharers, owner := own } s
        nackOrPend r again (snoopMask .snpi e.sharers vl (bump coCountsRecalls h 1 u))

/-- Requests that wait (pending list, sweep) are decided afresh, the oldest of each line first, where their line is no longer
open; one that must wait on keeps its place (R300). -/
def drainWaiting (s : State) : State :=
  s.coh.waiting.foldl (fun t r =>
    if lineOpen t r.line ∨ t.coh.waiting.find? (fun x => x.line == r.line) ≠ some r then t else decideReq r true t) s

/-- Decide waiting requests until none can proceed; `n` bounds the passes. -/
def settleHomes : Nat → State → State
  | 0, s => s
  | n + 1, s => let t := drainWaiting s; if t.coh.waiting.length < s.coh.waiting.length then settleHomes n t else t

def settle (s : State) : State := if s.coh.waiting.isEmpty then s else settleHomes s.coh.waiting.length s

/-- The home of a line looks up its page's bias bit: a bias-table line that its bias cache of 512 lines does not hold costs
one slice access and comes in, in place of one that a free value chooses (R306). -/
def biasLookup (line : Nat) (s : State) : State :=
  if !biasOn s then s
  else
    let h := homeOfLine line
    let a := (biasTable s + pageOf (line * 128) / 8) / 128
    let held := tgetD s.coh.biasCache h []
    if held.contains a || s.lostHomes.contains (homeOfLine a) then s
    else
      let kept := if held.length < 512 then held else held.eraseIdx (freshVal s % 512)
      let t := if held.length < 512 then s else drawn s
      sliceWhole { line := a, port := 12, read := 15 } { t with coh.biasCache := tput t.coh.biasCache h (a :: kept) }

/-- The input arbiter of a line's home takes a request from a port: its rotating pointer moves to the port after it (R295),
and the page's bias is looked up. -/
def arbiterTakes (line port : Nat) (s : State) : State :=
  biasLookup line { s with coh.pointer := tput s.coh.pointer (homeOfLine line) ((port + 1) % 12) }

/-- A request is one of the control processor: its own writes, and the accesses of the west I/O die that its commands make. -/
def byCp (r : HomeReq) : Bool := r.port == 10 && (match r.by_ with | .cp => true | .whole _ => true | _ => false)

/-- A request that its home has taken from a port is decided; one of another agent than the control processor for the bias table is
refused (R306). -/
def homeTakes (r : HomeReq) (s : State) : State :=
  if inBiasTable s (r.line * 128) 128 && !byCp r then endPoisoned r (tableRefused (r.line * 128) s)
  else settle (decideReq r false (arbiterTakes r.line r.port s))

/-- A caching agent's request message arrives at its home. -/
def homeRequest (k : ReqKind) (a line first : Nat) (s : State) : State := homeTakes { kind := k, port := a, line := line, first := first } s

/-- A non-caching request: it takes a credit of its port, without one the port holds it; its home takes it, and the frame that carried
it raises the home's floor (R39, R287, R293). Log entry 154. -/
def ncRequest (r : HomeReq) (s : State) : State :=
  let key := creditKey (homeOfLine r.line) r.port
  let n := tgetD s.coh.credits key 0
  if portCredits r.port ≤ n then { s with coh.ncHeld := s.coh.ncHeld ++ [r] }
  else homeTakes r (loamStamp (loamStampOf s (portDie r.port)) (8 + homeOfLine r.line) { s with coh.credits := tput s.coh.credits key (n + 1) })

/-- A credit comes back to a port with a completion or Nack; a non-caching request that the port holds may go (R293). -/
def creditReturn (home port : Nat) (s : State) : State :=
  let t := creditBack home port s
  match t.coh.ncHeld.find? (fun r => r.port == port && homeOfLine r.line == home) with
  | some r => ncRequest r { t with coh.ncHeld := t.coh.ncHeld.erase r }
  | none => t

/-- A range of device memory, whose lines have homes: an agent's access to anything else sends no request (R259, R288). -/
def hasHome (pa : Nat) : Bool := isDevMem pa 1

def execRds (pa : PA) (a : Fin 10) (s : State) : Host.Outcome State Fault Refusal :=
  msgAct .rds a (pa.toNat / 128) false (fun t => if hasHome pa.toNat then homeRequest .rds a (pa.toNat / 128) (pa.toNat / 32 % 4) t else t) s
def execRdx (pa : PA) (a : Fin 10) (s : State) : Host.Outcome State Fault Refusal :=
  msgAct .rdx a (pa.toNat / 128) false (fun t => if hasHome pa.toNat then homeRequest .rdx a (pa.toNat / 128) (pa.toNat / 32 % 4) t else t) s
def execUpg (pa : PA) (a : Fin 10) (s : State) : Host.Outcome State Fault Refusal :=
  msgAct .upg a (pa.toNat / 128) false (fun t => if hasHome pa.toNat then homeRequest .upg a (pa.toNat / 128) (pa.toNat / 32 % 4) t else t) s
def execNcrd (pa : PA) (port : Fin 12) (sectors : BitVec 4) (s : State) : Host.Outcome State Fault Refusal :=
  homeAct s (if hasHome pa.toNat then ncRequest { kind := .ncrd, port := port, line := pa.toNat / 128, sectors := sectors.toNat } s else s)
def execNcwr (pa : PA) (port : Fin 12) (w : NcWrite) (s : State) : Host.Outcome State Fault Refusal :=
  homeAct s (if hasHome pa.toNat then ncRequest { kind := .ncwr, port := port, line := pa.toNat / 128, write := some w } s else s)

/-- A message the home discards as stale; a writeback message is answered with WbAck. -/
def staleMsg (line a : Nat) (wb : Bool) (s : State) : State :=
  let t := bump coCountsStale (homeOfLine line) 1 s
  if wb then sendMsg .wback a line true t else t

/-- WbM or WbC at its home (Tables CO-5 to CO-7): applied when it comes from the owner, in X, OS or OW; else stale. While the host is
asked, the line is in X or not as the entry says. -/
def homeWriteback (pa a : Nat) (d : Option (LineData × Nat)) (s : State) : State :=
  let line := pa / 128
  let apply := fun (t : State) =>
    let t := match d with | some (x, m) => applyLineData line x m (sliceAccess (slicePut line a m) t) | none => t
    sendMsg .wback a line true t
  match dirFind s line with
  | none => staleMsg line a true s
  | some (key, e) =>
    match openTxn s line with
    | some (_, _, t) =>
      if t.d2h ∧ e.st = 2 ∧ e.sharers = 2 ^ a then dirPut key { e with st := 0, sharers := 0 } (apply s)
      else if t.owner = some a ∧ t.phase = .os then txnPut key e { t with wbApplied := true } (apply s)
      else if t.owner = some a ∧ t.phase = .ow then finishTxn key e t (apply s)
      else staleMsg line a true s
    | none =>
      if e.st = 2 ∧ e.sharers = 2 ^ a then
        let e' := { e with st := 0, sharers := 0 }
        closeTxn key e' (apply s)
      else staleMsg line a true s

def execWbm (pa : PA) (a : Fin 10) (d : LineData) (dirty : BitVec 4) (s : State) : Host.Outcome State Fault Refusal :=
  msgAct .wbm a (pa.toNat / 128) false (fun t => settle (homeWriteback pa.toNat a (some (d, dirty.toNat)) t)) s
def execWbc (pa : PA) (a : Fin 10) (s : State) : Host.Outcome State Fault Refusal :=
  msgAct .wbc a (pa.toNat / 128) false (fun t => settle (homeWriteback pa.toNat a none t)) s

/-- EvS at its home: a member of the sharer set leaves it, and so does an owner whose response said that it keeps the line in S;
else stale. -/
def homeEvict (pa a : Nat) (s : State) : State :=
  let line := pa / 128
  match dirFind s line with
  | some (key, e) =>
    if e.st = 1 ∧ e.sharers.testBit a then
      let v := withBits e.sharers a a 0
      let e' := { e with sharers := v, st := if v = 0 ∧ !lineOpen s line then 0 else 1 }
      let t := sendMsg .wback a line true s
      if e'.st = 0 then closeTxn key e' t else dirPut key e' t
    else match entryTxn s key e with
      | some x =>
        if x.ownerKeepsS ∧ x.owner = some a ∧ e.st = 2 then txnPut key e { x with ownerKeepsS := false } (sendMsg .wback a line true s)
        else staleMsg line a true s
      | none => staleMsg line a true s
  | none => staleMsg line a true s

def execEvs (pa : PA) (a : Fin 10) (s : State) : Host.Outcome State Fault Refusal :=
  msgAct .evs a (pa.toNat / 128) false (fun t => settle (homeEvict pa.toNat a t)) s

/-- A snoop response at its home (Tables CO-5 to CO-7): recorded from an agent snooped in OS, else stale. -/
def homeResponse (pa a : Nat) (keepsS wbp : Bool) (d : Option LineData) (s : State) : State :=
  let line := pa / 128
  match openTxn s line with
  | some (key, e, t) =>
    if t.phase = .os ∧ t.await.testBit a then
      let u := match d with | some x => applyLineData line x 15 (sliceAccess (slicePut line a 15) s) | none => s
      let isOwner := t.owner == some a
      let t1 := { t with
        await := withBits t.await a a 0
        ownerKeepsS := t.ownerKeepsS || (isOwner && keepsS)
        wbp := t.wbp || (isOwner && wbp)
        dirty := if d.isSome then t.dirty + 1 else t.dirty }
      if t1.await != 0 then txnPut key e t1 u
      else if t1.wbp && !t1.wbApplied then txnPut key e { t1 with phase := .ow } u
      else finishTxn key e t1 u
    else staleMsg line a false s
  | none => staleMsg line a false s

def execRsps (pa : PA) (a : Fin 10) (s : State) : Host.Outcome State Fault Refusal :=
  msgAct .rsps a (pa.toNat / 128) false (fun t => settle (homeResponse pa.toNat a true false none t)) s
def execRspi (pa : PA) (a : Fin 10) (wbp : Bool) (s : State) : Host.Outcome State Fault Refusal :=
  msgAct .rspi a (pa.toNat / 128) false (fun t => settle (homeResponse pa.toNat a false wbp none t)) s
def execRspsd (pa : PA) (a : Fin 10) (d : LineData) (s : State) : Host.Outcome State Fault Refusal :=
  msgAct .rspsd a (pa.toNat / 128) false (fun t => settle (homeResponse pa.toNat a true false (some d) t)) s
def execRspid (pa : PA) (a : Fin 10) (d : LineData) (s : State) : Host.Outcome State Fault Refusal :=
  msgAct .rspid a (pa.toNat / 128) false (fun t => settle (homeResponse pa.toNat a false false (some d) t)) s

/-- CmpAck at its home: closes OA of its own requester in retry mode; cannot occur on an open line in transient mode. -/
def homeCmpAck (pa a : Nat) (s : State) : State :=
  let line := pa / 128
  match openTxn s line with
  | some (key, e, t) =>
    if transientMode s then homeProtoErr line a s
    else if t.phase = .oa ∧ t.req.port = a then closeTxn key e s
    else staleMsg line a false s
  | none => staleMsg line a false s

def execCmpack (pa : PA) (a : Fin 10) (s : State) : Host.Outcome State Fault Refusal :=
  msgAct .cmpack a (pa.toNat / 128) false (fun t => settle (homeCmpAck pa.toNat a t)) s

/-- SLICE_ACCESS_DONE: the grant of an OM transaction is sent, and pending requests are decided (R299, R300); sectors of a missed
line that the request waits for must have arrived (R271). -/
def doSliceAccessDone (pa : Nat) (s : State) : State :=
  match openTxn s (pa / 128) with
  | some (key, e, t) => if t.phase = .om ∧ sliceReady (reqSlice t.req) s then settle (sendGrant key e t s) else s
  | none => s

def execSliceAccessDone (pa : PA) (s : State) : Host.Outcome State Fault Refusal := homeAct s (doSliceAccessDone pa.toNat s)

/-! ## Caching agents (Tables CO-3, CO-4) -/

/-- A message that cannot occur, at a cache: discarded, reported to its home (R297). -/
def cacheProtoErr (a line : Nat) (s : State) : State :=
  let h := homeOfLine line
  writeErr { level := lvPackage, unit := portDie a, subunit := h, reason := 0x0528, cls := 0x04, verdict := vTransient } none
    (raise flCoStatusProtoErr h (poisonRange (line * 128) 128 s))

/-- An eviction at a caching agent: WbM, WbC or EvS, then state W; not chosen while a request is outstanding. A writeback
to a lost home is discarded (R304). -/
def agentEvict (a line : Nat) (s : State) : State :=
  let c := cacheLine s a line
  let go := fun (k : CohMsgKind) =>
    resvLost a line <|
      if s.lostHomes.contains (homeOfLine line) then setCacheLine a line { c with st := .i } s
      else sendMsg k a line false (setCacheLine a line { c with st := .w } s)
  if c.req.isSome then s
  else match c.st with
  | .s => go .evs
  | .e => go .wbc
  | .m => go .wbm
  | _ => s

/-- Room for a line in an agent's caches: the victim is evicted. -/
def cacheRoom (a line : Nat) (s : State) : State :=
  match cacheVictim a line s with
  | some v => agentEvict a v (drawn s)
  | none => s

/-- Stores and loads that waited for a line are performed once a copy is held; stores that find it in S send Upg. -/
def installLine (a line : Nat) (st : CacheSt) (s : State) : State :=
  let c := cacheLine s a line
  if st = .s then
    let t := setCacheLine a line { st := .s, stores := c.stores } s
    if c.stores.isEmpty then t else agentRequest a line .upg t
  else
    let t := c.stores.foldl (fun t w => applyLineWrite line w t) s
    setCacheLine a line { st := if c.stores.isEmpty && st == .e then .e else .m } t

/-- SnpS at an agent. -/
def agentSnpS (a line : Nat) (s : State) : State :=
  let c := cacheLine s a line
  match c.st with
  | .i => sendMsg .rspi a line false s
  | .s => sendMsg .rsps a line false s
  | .e => sendMsg .rsps a line false (setCacheLine a line { c with st := .s } s)
  | .m => sendMsg .rspsd a line false (setCacheLine a line { c with st := .s } s)
  | .w => sendMsg .rspi a line false s true

/-- SnpI at an agent. -/
def agentSnpI (a line : Nat) (s : State) : State :=
  let c := cacheLine s a line
  match c.st with
  | .i => sendMsg .rspi a line false s
  | .s => sendMsg .rspi a line false (setCacheLine a line { c with st := .i } s)
  | .e => sendMsg .rspi a line false (setCacheLine a line { c with st := .i } s)
  | .m => sendMsg .rspid a line false (setCacheLine a line { c with st := .i } s)
  | .w => sendMsg .rspi a line false s true

def execSnps (a : Fin 10) (pa : PA) (s : State) : Host.Outcome State Fault Refusal :=
  msgAct .snps a (pa.toNat / 128) true (agentSnpS a (pa.toNat / 128)) s
/-- SNPI. -/
def execSnpi (a : Fin 10) (pa : PA) (s : State) : Host.Outcome State Fault Refusal :=
  msgAct .snpi a (pa.toNat / 128) true (fun t => resvLost a (pa.toNat / 128) (agentSnpI a (pa.toNat / 128) t)) s

/-- The grant has been installed: CmpAck in retry mode (R298). -/
def ackGrant (a line : Nat) (s : State) : State := if transientMode s then s else sendMsg .cmpack a line false s

/-- A grant has come: room is made, the copy installed and acknowledged, and the request's credit is the port's again (R293). -/
def granted (a line : Nat) (st : CacheSt) (s : State) : State :=
  creditReturn (homeOfLine line) a (ackGrant a line (installLine a line st (cacheRoom a line s)))

/-- DataS at an agent; one that is poisoned and grants nothing ends the request. -/
def agentDataS (a line : Nat) (none_ : Bool) (s : State) : State :=
  let c := cacheLine s a line
  if none_ then creditReturn (homeOfLine line) a (requestEnds a line s)
  else if c.st = .i ∧ c.req = some .rds then granted a line .s s else cacheProtoErr a line s

/-- DataX at an agent: E for a read; M for a store. -/
def agentDataX (a line : Nat) (s : State) : State :=
  let c := cacheLine s a line
  if c.st = .i ∧ c.req = some .rds then granted a line .e s
  else if c.st = .i ∧ (c.req = some .rdx ∨ c.req = some .upg) then granted a line .m s
  else cacheProtoErr a line s

/-- GntX at an agent: its S copy becomes M. -/
def agentGntX (a line : Nat) (s : State) : State :=
  let c := cacheLine s a line
  if c.st = .s ∧ c.req = some .upg then granted a line .m s else cacheProtoErr a line s

def execDatas (a : Fin 10) (pa : PA) (s : State) : Host.Outcome State Fault Refusal :=
  msgAct .datas a (pa.toNat / 128) true (agentDataS a (pa.toNat / 128) (msgFlag .datas a (pa.toNat / 128) s)) s
def execDatax (a : Fin 10) (pa : PA) (s : State) : Host.Outcome State Fault Refusal :=
  msgAct .datax a (pa.toNat / 128) true (agentDataX a (pa.toNat / 128)) s
def execGntx (a : Fin 10) (pa : PA) (s : State) : Host.Outcome State Fault Refusal :=
  msgAct .gntx a (pa.toNat / 128) true (agentGntX a (pa.toNat / 128)) s

/-- NcData or NcAck has come: the requester has its answer, the outside host the completion of its CXL.mem request, and the port
its credit (R293, R299, R308, R362). -/
def ncArrive (m : CohMsg) (s : State) : State :=
  let x := m.answer
  let t := msgArrives m s
  let first := (maskSectors x.sectors).headD 0
  let t := match x.by_ with
    | .cp => t
    | .cxl =>
      if m.kind == .ncack then { t with hostOut := .completion 0 0 false :: t.hostOut }
      else { t with hostOut := .completion 64 (x.value / 256 ^ (32 * first) % 256 ^ 64) (x.poison != 0) :: t.hostOut }
    | _ => { t with coh.answers := (m.port, m.line, x) :: t.coh.answers }
  creditReturn (homeOfLine m.line) m.port t

/-- The oldest answer in flight to a port arrives, unless another message of its queue must come before. -/
def ncAnswered (k : CohMsgKind) (port line : Nat) (s : State) : State :=
  match msgFind k port line true s with
  | some m => if msgBehind k port line true s then s else if receiverUp s port line true then ncArrive m s else msgArrives m s
  | none => s

/-- NCDATA, NCACK: nothing of the request is left in flight. -/
def execNcdata (port : Fin 12) (pa : PA) (s : State) : Host.Outcome State Fault Refusal :=
  homeAct s (ncAnswered .ncdata port (pa.toNat / 128) s)
def execNcack (port : Fin 12) (pa : PA) (s : State) : Host.Outcome State Fault Refusal :=
  homeAct s (ncAnswered .ncack port (pa.toNat / 128) s)

/-- NACK (R298): the agent will re-send. A Nack that cannot occur is an error of the protocol. -/
def agentNack (a line : Nat) (s : State) : State :=
  let c := cacheLine s a line
  if transientMode s || c.req.isNone then cacheProtoErr a line s
  else creditReturn (homeOfLine line) a (setCacheLine a line { c with nacked := true } s)

/-- A Nack arrives at the requester's port. That of a non-caching request gives the credit back; the request goes again later. -/
def nackArrive (port line : Nat) (nc : Bool) (s : State) : State :=
  if nc then creditReturn (homeOfLine line) port s else agentNack port line s

def execNack (port : Fin 12) (pa : PA) (s : State) : Host.Outcome State Fault Refusal :=
  let line := pa.toNat / 128
  msgAct .nack port line true (nackArrive port line (msgFlag .nack port line s)) s

/-- An agent acts only while its die is in service (R303). -/
def atAgent (a : Nat) (s t : State) : State := if dieUp s (portDie a) then t else s

/-- NACK_RESEND (R298): 32 steps later the request goes again, an Upg as RdX once the line is I. -/
def agentResend (a line : Nat) (s : State) : State :=
  let c := cacheLine s a line
  match c.req with
  | some k => if c.nacked then agentRequest a line (if k = .upg ∧ c.st = .i then .rdx else k) s else s
  | none => s

/-- A non-caching request whose Nack has arrived goes again. -/
def ncResend (port line : Nat) (s : State) : State :=
  match s.coh.ncNacked.find? (fun r => r.port == port && r.line == line) with
  | some r => if (msgFind .nack port line true s).isSome then s else ncRequest r { s with coh.ncNacked := s.coh.ncNacked.erase r }
  | none => s

def execNackResend (port : Fin 12) (pa : PA) (s : State) : Host.Outcome State Fault Refusal :=
  let line := pa.toNat / 128
  homeAct s (atAgent port s (if (cacheLine s port line).nacked then agentResend port line s else ncResend port line s))

/-- WBACK: the agent leaves W. -/
def agentWbAck (a line : Nat) (s : State) : State :=
  let c := cacheLine s a line
  if c.st = .w then
    let t := setCacheLine a line { c with st := .i, loads := 0, first := if c.stores.isEmpty && c.loads == 0 then 0 else c.first } s
    -- accesses that waited for W send their request now (R296)
    if c.stores.isEmpty then (if c.loads = 0 then t else agentRequest a line .rds t) else agentRequest a line .rdx t
  else cacheProtoErr a line s

def execWback (a : Fin 10) (pa : PA) (s : State) : Host.Outcome State Fault Refusal :=
  msgAct .wback a (pa.toNat / 128) true (agentWbAck a (pa.toNat / 128)) s

/-- A load at a caching agent: hits, waits, or sends RdS; `first` is the sector of its first byte. -/
def agentLoad (a line first : Nat) (s : State) : State :=
  let c := cacheLine s a line
  match c.st with
  | .i => if c.req.isSome then setCacheLine a line { c with loads := c.loads + 1 } s
          else agentRequest a line .rds (setCacheLine a line { c with loads := c.loads + 1, first := first } s)
  | .w => setCacheLine a line { c with loads := c.loads + 1, first := first } s
  | _ => s

def execCacheLoad (a : Fin 10) (pa : PA) (s : State) : Host.Outcome State Fault Refusal :=
  homeAct s (if hasHome pa.toNat then atAgent a s (agentLoad a (pa.toNat / 128) (pa.toNat / 32 % 4) s) else s)

/-- A store at a caching agent: hits in M, turns E to M, sends Upg from S or RdX from I, or waits. -/
def agentStore (a line : Nat) (w : LineWrite) (s : State) : State :=
  let c := cacheLine s a line
  let wait := { c with stores := c.stores ++ [w] }
  match c.st with
  | .m => applyLineWrite line w s
  | .e => setCacheLine a line { c with st := .m } (applyLineWrite line w s)
  | .s => if c.req.isSome then setCacheLine a line wait s else agentRequest a line .upg (setCacheLine a line wait s)
  | .i => if c.req.isSome then setCacheLine a line wait s else agentRequest a line .rdx (setCacheLine a line wait s)
  | .w => setCacheLine a line wait s

def execCacheStore (a : Fin 10) (pa : PA) (w : LineWrite) (s : State) : Host.Outcome State Fault Refusal :=
  homeAct s (if hasHome pa.toNat then atAgent a s (agentStore a (pa.toNat / 128) w s) else s)

def execCacheEvict (a : Fin 10) (pa : PA) (s : State) : Host.Outcome State Fault Refusal :=
  homeAct s (if hasHome pa.toNat then atAgent a s (agentEvict a (pa.toNat / 128) s) else s)

/-! ## The outside host (R307–R309, R361, R362) -/

/-- A page goes to host bias by a host access (R308); a flip in progress notes that the host touched the page (R309). -/
def autoFlip (pa : Nat) (s : State) : State :=
  let page := pageOf pa
  let t := { s with coh.flips := s.coh.flips.map (fun f => if f.pages.contains page then { f with touched := setAdd f.touched page } else f) }
  if biasOn s && !hostBias s page && !(s.coh.flips.any (fun f => f.pages.contains page)) then
    bump coCountsAutoFlips (homeOf pa) 1 (setBias page true t) else t

/-- CXL_MEM_READ: NcRd on port 10, or SnpI to every device copy for a read that lets the host modify. Before Memory
Active it completes with poison (R360); the bias table is not open to the host (R306). -/
def doCxlMemRead (pa : Nat) (modify : Bool) (s : State) : State :=
  if selfHosted s || !flagSet s hlStatusLinkUp 0 then s
  else if getF s hlStatusMemActive 0 = 0 then { bump hlCountsMemEarly 0 1 s with hostOut := .completion 64 0 true :: s.hostOut }
  else if !isDevMem pa 64 then { s with hostOut := .completion 64 0 true :: s.hostOut }
  else if inBiasTable s pa 64 then (let t := tableRefused pa s; { t with hostOut := .completion 64 0 true :: t.hostOut })
  else
    let t := autoFlip pa s
    ncRequest { kind := if modify then .hostOwn else .ncrd, port := 10, line := pa / 128, sectors := if pa / 64 % 2 = 0 then 3 else 12, by_ := .cxl } t


/-- CXL_MEM_WRITE: NcWr on port 10, completed once applied at its home (R308, R362). A writeback during a flip to device
bias is served without a flip (R309). -/
def doCxlMemWrite (pa : Nat) (w : LineWrite) (s : State) : State :=
  if selfHosted s || !flagSet s hlStatusLinkUp 0 then s
  else if getF s hlStatusMemActive 0 = 0 then { bump hlCountsMemEarly 0 1 s with hostOut := .completion 0 0 true :: s.hostOut }
  else if !isDevMem pa 64 then { s with hostOut := .completion 0 0 true :: s.hostOut }
  else if inBiasTable s pa 64 then (let t := tableRefused pa s; { t with hostOut := .completion 0 0 true :: t.hostOut })
  else
    let flushing := s.coh.flips.any (fun f => f.awaiting.contains (pa / 128))
    let t := if flushing then s else autoFlip pa s
    ncRequest { kind := .ncwr, port := 10, line := pa / 128, write := some (.bytes w), by_ := .cxl } t


/-- HOST_CACHE_SNOOP: the device holds no copy of host memory and answers RspIHitI (R361). -/
def execHostCacheSnoop (_addr : W64) (s : State) : Host.Outcome State Fault Refusal :=
  homeAct s (if selfHosted s || !flagSet s hlStatusLinkUp 0 then s else { s with hostOut := .snoopAnswer :: s.hostOut })

end Sys2Proof.Machine
end

