-- ==== Sys2Proof/Machine/Whole.lean ====
section
/-! DEFINITION. Sys2Proof/Machine/Whole.lean: accesses to device memory that a larger effect makes: each is a request of its agent or
port at the home, and the messages of its line arrive one after another until it is complete (R287, R293–R301; log entry 156). -/
namespace Sys2Proof.Machine

/-! ## The messages of a line in turn -/

/-- The data of a line as a message carries it: memory holds it (log entry 4). -/
def heldLine (s : State) (line : Nat) : LineData :=
  { data := BitVec.ofNat 1024 (readNum s (line * 128) 128), poison := BitVec.ofNat 4 (linePoison s line) }

/-- What a message does at its receiver. -/
def msgEffect (m : CohMsg) (s : State) : State :=
  let p := m.port
  let line := m.line
  let pa := line * 128
  match m.kind with
  | .rds => homeRequest .rds p line m.first s
  | .rdx => homeRequest .rdx p line m.first s
  | .upg => homeRequest .upg p line m.first s
  | .wbm => settle (homeWriteback pa p (some (heldLine s line, 15)) s)
  | .wbc => settle (homeWriteback pa p none s)
  | .evs => settle (homeEvict pa p s)
  | .rsps => settle (homeResponse pa p true false none s)
  | .rspi => settle (homeResponse pa p false m.flag none s)
  | .rspsd => settle (homeResponse pa p true false (some (heldLine s line)) s)
  | .rspid => settle (homeResponse pa p false false (some (heldLine s line)) s)
  | .cmpack => settle (homeCmpAck pa p s)
  | .snps => agentSnpS p line s
  | .snpi => resvLost p line (agentSnpI p line s)
  | .datas => agentDataS p line m.flag s
  | .datax => agentDataX p line s
  | .gntx => agentGntX p line s
  | .nack => nackArrive p line m.flag s
  | .wback => agentWbAck p line s
  | .ncrd => s
  | .ncwr => s
  | .ncdata => s
  | .ncack => s

/-- A message arrives; a die out of service takes nothing. -/
def deliver (m : CohMsg) (s : State) : State :=
  if !receiverUp s m.port m.line m.toAgent then msgArrives m s
  else if m.kind == .ncdata || m.kind == .ncack then ncArrive m s
  else msgEffect m (msgArrives m s)

/-- The order in which messages that may arrive are taken: at a home WB, RSP, then REQ from the port that its pointer stands at
(R295); messages to agents last. -/
def arbRank (s : State) (m : CohMsg) : Nat :=
  if m.toAgent then 100
  else match chanOfMsg (transientMode s) m.kind with
    | 1 => 0
    | 3 => 1
    | _ => 2 + (m.port + 12 - tgetD s.coh.pointer (homeOfLine m.line) 0) % 12

/-- The message of the given lines that is taken first. -/
def lineMsg (s : State) (lines : List Nat) : Option CohMsg :=
  (s.coh.msgs.filter (fun m => lines.contains m.line)).foldl (fun acc m => match acc with
    | none => some m
    | some x => if arbRank s m < arbRank s x then some m else some x) none

/-- Lines that a request for a line may wait for: its own, and those recalled from its set (R291). -/
def linesAwaited (s : State) (line : Nat) : List Nat :=
  let b := dirBase (homeOfLine line) (dirSetOf line)
  line :: (List.range 16).filterMap (fun w => match tget s.coh.dir (b + w) with
    | some e => (match entryTxn s (b + w) e with | some t => if t.req.kind == .recall then some t.req.line else none | none => none)
    | none => none)

/-- A nacked request of a line that would be accepted now goes again (R298). -/
def lineResend (line : Nat) (s : State) : Option State :=
  let resv := match dirFind s line with | some (_, e) => e.resv | none => none
  let may := fun (p : Nat) => match resv with | some r => r == p | none => true
  if (linesAwaited s line).any (lineOpen s) then none
  else match s.coh.ncNacked.find? (fun r => r.line == line && may r.port) with
    | some r => some (ncRequest r { s with coh.ncNacked := s.coh.ncNacked.erase r })
    | none => ((List.range 10).find? (fun a => may a && dieUp s (portDie a) && (cacheLine s a line).nacked)).map
        (fun a => agentResend a line s)

/-- The next thing that happens to a line by itself: a message arrives, or one that must arrive before it; the slice access of its
transaction goes on or is done; a nacked request goes again. -/
def lineStep (line : Nat) (s : State) : Option State :=
  match lineMsg s (linesAwaited s line) with
  | some m => some (deliver (queueHead s m) s)
  | none => match openTxn s line with
    | some (key, e, t) =>
      if t.phase = .om then
        if sliceReady (reqSlice t.req) s then some (settle (sendGrant key e t s))
        else stackStep (homeOfLine line) (chanOf (localOf (line * 128) / 1024)) s
      else none
    | none => lineResend line s

/-- A line goes on until nothing more happens to it by itself; `n` bounds the steps. -/
def lineRun (line : Nat) : Nat → State → State
  | 0, s => s
  | n + 1, s => match lineStep line s with
    | some t => lineRun line n t
    | none => s

/-- Steps enough for every agent's request, snoop and writeback of a line. -/
def lineFuel : Nat := 512

def lineSettles (line : Nat) (s : State) : State := lineRun line lineFuel s

/-! ## Whole accesses -/

/-- The command under way waits; the first thing that it waits for counts. -/
def waitFor (x : Stuck) (s : State) : State := { s with coh.stuck := some (s.coh.stuck.getD x) }

/-- An agent holds a line as an access of kind `k` needs it. -/
def agentHas (k : ReqKind) (a line : Nat) (s : State) : Bool :=
  match (cacheLine s a line).st with | .m => true | .e => k == .rds | .s => k == .rds | _ => false

/-- An access of an agent waits for a line. -/
def agentWaits (a line : Nat) (s : State) : Bool :=
  let c := cacheLine s a line
  c.req.isSome || c.loads != 0 || !c.stores.isEmpty

/-- One line accessed by a caching agent: a load, or a store that leaves the line in M. -/
def agentAccess (k : ReqKind) (a : Nat) (q : SliceReq) (s : State) : State :=
  let line := q.line
  if agentHas k a line s then s
  else
    let c := cacheLine s a line
    let asked :=
      if k = .rds then (if c.loads = 0 then agentLoad a line q.first s else s)
      else if c.stores.isEmpty then agentStore a line { data := 0, mask := 0 } s else s
    if !agentWaits a line asked then asked
    else
      let t := lineSettles line asked
      if agentWaits a line t then waitFor (.access k q) t else t

/-- An answer to a whole access of a port that has arrived. -/
def wholeAnswer (s : State) (q : SliceReq) : Option (Nat × Nat × NcAnswer) :=
  s.coh.answers.find? (fun x => x.1 == q.port && x.2.1 == q.line && x.2.2.by_ == .whole q)

/-- Requests of a port for a line that have not been answered. -/
def portAsks (s : State) (port line : Nat) : List HomeReq :=
  let mine := fun (r : HomeReq) => r.port == port && r.line == line
  (match openTxn s line with | some (_, _, t) => if mine t.req then [t.req] else [] | none => []) ++
    (s.coh.waiting ++ s.coh.ncHeld ++ s.coh.ncNacked).filter mine

/-- An answer may be used: it came for a read, or the line it was given for a write is still with nobody. -/
def answerHolds (k : ReqKind) (line : Nat) (s : State) : Bool :=
  k != .ncwr || (match dirFind s line with | some (_, e) => e.sharers == 0 && e.txn.isNone | none => true)

/-- One line accessed by a port that keeps no copy: earlier requests of the port for it come first (R369). -/
def portAccess (k : ReqKind) (q : SliceReq) (s0 : State) : State :=
  let s := if (portAsks s0 q.port q.line).isEmpty && (lineMsg s0 [q.line]).isNone then s0 else lineSettles q.line s0
  let use := fun (t : State) => match wholeAnswer t q with
    | some x => if answerHolds k q.line t then some { t with coh.answers := t.coh.answers.erase x } else none
    | none => none
  match use s with
  | some t => t
  | none =>
    if !(portAsks s q.port q.line).isEmpty then waitFor (.access k q) s
    else
      let t := lineSettles q.line (ncRequest { kind := k, port := q.port, line := q.line, by_ := .whole q } s)
      match use t with
      | some u => u
      | none => waitFor (.access k q) t

/-- One line accessed as a whole: nothing is asked of a lost home, whose lines read as poison (R304). -/
def lineAccess (k : ReqKind) (port : Nat) (q : SliceReq) (s : State) : State :=
  if s.lostHomes.contains (homeOfLine q.line) then s
  else if isCaching k && port < 10 then agentAccess k port q s
  else portAccess k { q with port := port } s

/-- What an agent writes of a line that it holds modified goes to the slice, and the copy stays, clean (R344): once nothing is
under way for the line. -/
def agentCleans (a line : Nat) (s : State) : State :=
  let q := slicePut line a 15
  let t := if (lineStep line s).isNone then s else lineSettles line s
  let c := cacheLine t a line
  if lineOpen t line || c.st == .w then waitFor (.clean a line) t
  else if c.st = .m then setCacheLine a line { c with st := .e } (sliceWhole q t)
  else t

/-- An agent gives up its copy of a line, by the message that its state calls for, and the home has applied it (R296, R344). -/
def agentGivesUp (a line : Nat) (s : State) : State :=
  let t := lineSettles line s
  let u := if cached (cacheLine t a line) then lineSettles line (agentEvict a line t) else t
  if (cacheLine u a line).st = .w || lineOpen u line then waitFor (.flush a line) u else u

/-- Every line of a range of device memory accessed by a port. -/
def rangeAccess (k : ReqKind) (port a n : Nat) (s : State) : State :=
  (linesOf a n).foldl (fun t l => lineAccess k port (rangeSlice k port a n l) t) s

/-- What is left of a command whose access cannot be completed yet: the access has been asked for, and the command is to come again
(log entry 170). -/
def heldBack (s t : State) : State :=
  match t.coh.stuck with
  | none => t
  | some x =>
    let u := match x with
      | .access k q => lineAccess k q.port q s
      | .settle line => lineSettles line s
      | .clean a line => agentCleans a line s
      | .flush a line => agentGivesUp a line s
    { u with coh.stuck := none }

/-- An effect that waits for no access. -/
def goesOn (s : State) : State := { s with coh.stuck := none }

/-! ## The control processor's writes -/

/-- A line's part of a write of `n` bytes at `a`. -/
def lineWriteOf (a n v line : Nat) : LineWrite :=
  let lo := max a (line * 128)
  let hi := min (a + n) (line * 128 + 128)
  { data := BitVec.ofNat 1024 (v / 256 ^ (lo - a) % 256 ^ (hi - lo) * 256 ^ (lo - line * 128))
    mask := BitVec.ofNat 128 ((2 ^ (hi - lo) - 1) * 2 ^ (lo - line * 128)) }

/-- The writes that the control processor has issued go to their homes, in order (R287). -/
def cpSends (s : State) : State :=
  s.coh.cpWrites.foldl (fun t w =>
    (linesOf w.1 w.2.1).foldl (fun t l => lineSettles l (ncRequest
      { kind := .ncwr, port := 10, line := l, write := some (.bytes (lineWriteOf w.1 w.2.1 w.2.2 l)), by_ := .cp } t)) t)
    { s with coh.cpWrites := [] }

end Sys2Proof.Machine
end

