-- ==== Sys2Proof/Machine/Translation.lean ====
section
/-! DEFINITION. Sys2Proof/Machine/Translation.lean: the mirrored device table, the translation units, faults and the fault
queue (R313–R331). The commands that change the table are in Machine/TransCmd.lean. -/
namespace Sys2Proof.Machine

/-! ## Table entries (Table AT-2) -/

def pageSize (level : Nat) : Nat := 4096 * 512 ^ level
def vaTop : Nat := 2 ^ 57
def entV (e : Nat) : Bool := e.testBit 63
def entLeaf (e : Nat) : Bool := e.testBit 62
def entR (e : Nat) : Bool := e.testBit 61
def entW (e : Nat) : Bool := e.testBit 60
def entX (e : Nat) : Bool := e.testBit 59
def entRun (e : Nat) : Nat := bitsOf e 58 56
def entAdvice (e : Nat) : Nat := bitsOf e 55 54
def entPa (e : Nat) : Nat := bitsOf e 51 12 * 4096
def vaIdx (va level : Nat) : Nat := (va / pageSize level) % 512
def runPages (run : Nat) : Nat := 2 ^ run

/-- A leaf entry. -/
def leafWord (pa run advice : Nat) (r w x : Bool) : Nat :=
  packBits [(1, 63), (1, 62), (bit r, 61), (bit w, 60), (bit x, 59), (run, 56), (advice, 54), (pa / 4096, 12)]
/-- A pointer entry. -/
def pointerWord (pa : Nat) : Nat := packBits [(1, 63), (pa / 4096, 12)]

def entryAddr (tpa i : Nat) : Nat := tpa + 8 * i
def entryAt (s : State) (tpa i : Nat) : Nat := readNum s (entryAddr tpa i) 8

/-- A page lies wholly in device memory or wholly in the host-link window (R316). -/
def pageHome (pa size : Nat) : Bool := isDevMem pa size || isHostWin pa size

/-- The pages of a leaf's run are not consecutive from an address aligned to the run (R317); `va` is mapped by the leaf. -/
def runForbidden (va level e : Nat) : Bool :=
  let p := pageSize level
  let n := runPages (entRun e)
  let pos := va / p % n
  decide (entPa e < pos * p) || (entPa e - pos * p) % (p * n) != 0

/-- A leaf R316 forbids. -/
def leafForbidden (va level e : Nat) : Bool :=
  runForbidden va level e ||
  decide (2 < level) || entPa e % pageSize level != 0 || decide (4 < entRun e) || !pageHome (entPa e) (pageSize level) ||
    (isHostWin (entPa e) (pageSize level) && entX e) || (entW e && !entR e) || !(entR e || entW e || entX e)

def tableRoot (s : State) : Nat := getF s atCtrlRoot 0 * 4096

/-- The valid leaf that maps an address, as (table, level, entry); `level` is that of table `tpa`. -/
def leafAt (s : State) (va : Nat) : Nat → Nat → Option (Nat × Nat × Nat)
  | 0, tpa =>
    let e := entryAt s tpa (vaIdx va 0)
    if entV e && entLeaf e then some (tpa, 0, e) else none
  | l + 1, tpa =>
    let e := entryAt s tpa (vaIdx va (l + 1))
    if !entV e then none else if entLeaf e then some (tpa, l + 1, e) else leafAt s va l (entPa e)

/-- The leaf of the job's table that maps an address. -/
def tableLeaf (s : State) (va : Nat) : Option (Nat × Nat × Nat) :=
  if flagSet s atCtrlEn 0 && va < vaTop then leafAt s va 4 (tableRoot s) else none

/-! ## Units -/

def xunit (s : State) (u : Nat) : XUnit := tgetD s.xl.units u {}
def setXunit (u : Nat) (x : XUnit) (s : State) : State := { s with xl.units := tput s.xl.units u x }

/-- The die of a translation unit. -/
def dieOfXunit (u : Nat) : Nat := if u < 8 then u else 18 + u

/-- The port a unit's walkers use. -/
def portOfXunit (u : Nat) : Nat := if u < 8 then u else u + 2

/-- A list kept most recently used first, of at most `n`. -/
def lruPut {α : Type} [BEq α] (n : Nat) (e : α) (l : List α) : List α := (e :: l.filter (· != e)).take n

def bufCovers (b : BufEnt) (va : Nat) : Bool := b.va ≤ va && va < b.va + b.size

/-- The set of the main buffer an entry lies in: its run-aligned address, in units of its size (log entry 14). -/
def mainSet (b : BufEnt) : Nat := b.va / b.size % 512

/-- Sizes a buffered entry can have: the three page sizes and their runs. -/
def bufSizes : List Nat := (List.range 5).flatMap (fun r => (List.range 3).map (fun l => pageSize l * 2 ^ r))

/-- A buffered entry that covers an address: the Sward buffer, then the main buffer. -/
def bufFind (x : XUnit) (sward va : Nat) : Option BufEnt :=
  match (tgetD x.sward sward []).find? (bufCovers · va) with
  | some b => some b
  | none => bufSizes.findSome? (fun z => (tgetD x.main (va / z % 512) []).find? (fun b => b.size == z && bufCovers b va))

/-- Use of a buffered entry: it becomes the most recent of the buffer that serves it, and is a demand entry from then on. -/
def bufTouch (x : XUnit) (sward : Nat) (b : BufEnt) : XUnit :=
  let b' := { b with pf := false }
  let sw := tgetD x.sward sward []
  let mn := tgetD x.main (mainSet b) []
  { x with
    sward := if sw.contains b then tput x.sward sward (b' :: sw.filter (· != b)) else x.sward
    main :=
      if sw.contains b then tput x.main (mainSet b) (mn.map (fun c => if c == b then b' else c))
      else if mn.contains b then tput x.main (mainSet b) (b' :: mn.filter (· != b)) else x.main }

/-- A walk fills the Sward buffer of a Meadow unit and the main buffer (R320). -/
def bufFill (u sward : Nat) (b : BufEnt) (x : XUnit) : XUnit :=
  { x with
    sward := if u < 8 then tput x.sward sward (lruPut 64 b ((tgetD x.sward sward []).filter (fun c => c.va != b.va || c.size != b.size)))
      else x.sward
    main := tput x.main (mainSet b) (lruPut 8 b ((tgetD x.main (mainSet b) []).filter (fun c => c.va != b.va || c.size != b.size))) }

/-! ## Walks (R320–R323) -/

/-- What a walk finds: a leaf as (level, entry), no valid leaf, a poisoned entry, an entry R316 forbids. -/
inductive WalkRes where
  | leaf (level e : Nat)
  | invalid
  | poison
  | forbidden
  deriving DecidableEq, Repr

/-- Walk from table `tpa` of level `l` down; pointer entries read enter the walk cache. -/
def walkFrom (u va : Nat) : Nat → Nat → State → WalkRes × State
  | 0, tpa, s =>
    let a := entryAddr tpa (vaIdx va 0)
    let t := rangeAccess (if u < 8 then .rds else .ncrd) (portOfXunit u) a 8 s
    if poisoned t a 8 then (.poison, t)
    else
      let e := readNum t a 8
      if !entV e then (.invalid, t) else if !entLeaf e || leafForbidden va 0 e then (.forbidden, t) else (.leaf 0 e, t)
  | l + 1, tpa, s =>
    let a := entryAddr tpa (vaIdx va (l + 1))
    let t := rangeAccess (if u < 8 then .rds else .ncrd) (portOfXunit u) a 8 s
    if poisoned t a 8 then (.poison, t)
    else
      let e := readNum t a 8
      if !entV e then (.invalid, t)
      else if entLeaf e then (if leafForbidden va (l + 1) e then (.forbidden, t) else (.leaf (l + 1) e, t))
      else if !isDevMem (entPa e) 4096 then (.forbidden, t)
      else
        let x := xunit t u
        walkFrom u va l (entPa e) (setXunit u { x with walk := lruPut 512 ⟨l + 1, va / pageSize (l + 1), entPa e⟩ x.walk } t)

/-- The lowest cached pointer entry on the path of an address. -/
def walkHit (s : State) (u va : Nat) : Option WalkEnt :=
  [1, 2, 3, 4].findSome? (fun l => (xunit s u).walk.find? (fun w => w.level == l && w.idx == va / pageSize l))

/-- The table to start a walk at: that of the lowest cached pointer entry on the path, or the root. -/
def walkStart (s : State) (u va : Nat) : Nat × Nat :=
  match walkHit s u va with
  | some w => (w.level - 1, w.pa)
  | none => (4, tableRoot s)

/-- A walk that starts at a cached pointer entry makes it the most recent of the walk cache (R320). -/
def walkUse (u va : Nat) (s : State) : State :=
  match walkHit s u va with
  | some w => setXunit u { xunit s u with walk := lruPut 512 w (xunit s u).walk } s
  | none => s

/-- A walk of unit `u`; with translation not in force it finds no leaf. -/
def walk (u va : Nat) (s : State) : WalkRes × State :=
  if !flagSet s atCtrlEn 0 || vaTop ≤ va then (.invalid, s)
  else
    let (l, tpa) := walkStart s u va
    walkFrom u va l tpa (walkUse u va s)

/-- The buffer entry a leaf fills: the whole run, its base derived from the leaf's place in the run (R320). -/
def leafBuf (va level e : Nat) (pf : Bool) : BufEnt :=
  let p := pageSize level
  let n := runPages (entRun e)
  let pos := va / p % n
  { va := (va / p - pos) * p, size := p * n, pa := entPa e - pos * p, r := entR e, w := entW e, x := entX e, pf := pf }

/-- The code of rights short of an access (Table AT-6), 0 when they suffice. -/
def rightsCode (a : XAcc) (r w x : Bool) : Nat :=
  lowest [failIf (a.w && !w) 0x0202, failIf (a.x && !x) 0x0203, failIf (a.r && !r) 0x0209]

/-! ## The fault queue (R328, R329) -/

/-- A fault record without its PHASE (Table AT-7). -/
def encodeFault (time reason id : Nat) (recov : Bool) (advice : Nat) (a : XAcc) : Nat :=
  packBits [(time % 2 ^ 64, 192), (a.va % 2 ^ 57, 135), (reason, 112), (id, 96), (bit a.x, 79), (bit a.w, 78), (bit a.r, 77),
    (bit recov, 76), (advice, 74), (a.agent % 16, 68), (a.unit % 16, 64), (a.sward % 16, 60), (a.tuft % 8, 57),
    ((a.seq.getD 0) % 512, 48), (bit a.seq.isSome, 47)]

/-- Records the fault queue holds. -/
def fqUsed (s : State) : Nat := (getF s atFqPtrTail 0 + 8192 - getF s atFqPtrHead 0) % 8192

/-- Write one record at TAIL and interrupt if the last interrupt was answered. -/
def fqPut (rec : Nat) (s : State) : State :=
  let i := getF s atFqPtrTail 0
  let t := setF atFqPtrTail 0 ((i + 1) % 8192)
    (cpWrite (getF s atFqBaseBase 0 * 131072 + i % 4096 * 32) 32 (rec + ringPhase i 12) s)
  if t.xl.irqOut then t else deliverEvent 0 { t with xl.irqOut := true }

/-- A recoverable fault's record: written, or made to wait for space with FQ_OVERFLOWS, FQ_FULL and the overflow
interrupt (R329). -/
def fqRecoverable (rec : Nat) (s : State) : State :=
  if fqUsed s < 4096 && s.xl.fqWait.isEmpty then fqPut rec s
  else
    let t := bump atStatusFqOverflows 0 1 { s with xl.fqWait := s.xl.fqWait ++ [rec] }
    if t.xl.ovfOut then t else deliverEvent 1 (raise flAtStatusFqFull 0 { t with xl.ovfOut := true })

/-- A record with RECOVERABLE = 0: written, or dropped with INFO_DROP when the queue is full (R329). -/
def fqInfo (rec : Nat) (s : State) : State := if fqUsed s < 4096 then fqPut rec s else raise flAtStatusInfoDrop 0 s

/-- Waiting records go out as HEAD advances; `n` bounds their number. -/
def fqDrain : Nat → State → State
  | 0, s => s
  | n + 1, s =>
    match s.xl.fqWait with
    | [] => s
    | r :: t => if fqUsed s < 4096 then fqDrain n (fqPut r { s with xl.fqWait := t }) else s

/-! ## Faults (R322, R326, R327) -/

/-- Open faults of every unit. -/
def openFaults (s : State) : Nat := (s.xl.units.map (fun e => e.2.slots.length)).foldl (· + ·) 0

def leafAdvice (s : State) (va : Nat) : Nat := match tableLeaf s va with | some (_, _, e) => entAdvice e | none => 0

/-- A recoverable fault takes a place: it joins the page's slot, opens one with a record, or waits for a slot (R327). -/
def placeFault (a : XAcc) (code : Nat) (s : State) : State :=
  let x := xunit s a.unit
  let page := a.va / 4096
  if x.slots.any (fun f => f.page == page) then
    bump atCountsMerged a.unit 1 (setXunit a.unit { x with
      slots := x.slots.map (fun f => if f.page == page then { f with accs := f.accs ++ [a] } else f) } s)
  else if x.slots.length < 64 then
    let id := s.xl.nextFault
    let t := setXunit a.unit { x with slots := x.slots ++ [⟨id, page, code, [a]⟩] } { s with xl.nextFault := (id + 1) % 0xFFFF }
    fqRecoverable (encodeFault (timeOn t (dieOfXunit a.unit)) code id true (leafAdvice t a.va) a) t
  else setXunit a.unit { x with noSlot := x.noSlot ++ [(a, code)] } s

/-- A fault that cannot be resolved: a record with RECOVERABLE = 0 and, for a walk error, WALK_ERR and an error record. -/
def finalFault (a : XAcc) (code : Nat) (s : State) : State :=
  let t := if code = 0x0208 then s else
    let e : ErrRec := { level := if a.unit < 8 then lvMeadow else lvPackage, unit := dieOfXunit a.unit, reason := code,
                        cls := if code = 0x0207 then 0x02 else 0x04, verdict := vTransient, detail := a.va }
    writeErr e none (raise flAtStatusWalkErr 0 s)
  fqInfo (encodeFault (timeOn t (dieOfXunit a.unit)) code 0xFFFF false (leafAdvice t a.va) a) t

/-- What a translation answers: physical address and bytes to the end of its page or run; a stall; an ending code. -/
inductive Xlat where
  | ok (pa len : Nat)
  | stall
  | fail (code : Nat)
  deriving DecidableEq, Repr

/-- A running PREFETCH has taken the right to write from the leaf that maps an address and has not yet moved its page (R335). -/
def pageMoving (s : State) (p : PrefetchRun) (va : Nat) : Bool :=
  match tableLeaf s va with
  | some (_, l, _) => p.todo.any (fun x => x.1 == va / pageSize l * pageSize l && entW x.2.2)
  | none => false

/-- A fault met by an access: a stall for the recoverable ones, the end of the access for the others; arriving remote and
network accesses never stall and end with 0x0208 (R326). A write to a page that a PREFETCH is moving stalls without a
record (R335). The control processor's own reads (agent 7 here) end with the fault's code and open no fault (log entry
15). -/
def meetFault (a : XAcc) (code : Nat) (s : State) : Xlat × State :=
  if code = 0x0206 ∨ code = 0x0207 then (.fail code, finalFault a code s)
  else if a.agent = 7 then (.fail code, s)
  else if 5 ≤ a.agent then (.fail 0x0208, finalFault a 0x0208 s)
  else match s.xl.prefetch with
    | some p =>
      if code = 0x0202 ∧ pageMoving s p a.va then (.stall, { s with xl.moveWait := s.xl.moveWait ++ [a] })
      else (.stall, placeFault a code s)
    | none => (.stall, placeFault a code s)

/-- A demand walk: fills the buffers or meets a fault (R322). -/
def walkDemand (a : XAcc) (s : State) : Xlat × State :=
  let (res, t) := walk a.unit a.va (bump atCountsWalks a.unit 1 s)
  match res with
  | .poison => meetFault a 0x0207 t
  | .forbidden => meetFault a 0x0206 t
  | .invalid => meetFault a 0x0201 t
  | .leaf l e =>
    let b := leafBuf a.va l e false
    let t := setXunit a.unit (bufFill a.unit a.sward b (xunit t a.unit)) t
    let code := rightsCode a b.r b.w b.x
    if code != 0 then meetFault a code t else (.ok (b.pa + (a.va - b.va)) (b.va + b.size - a.va), t)

/-- A prefetch walk fills a buffer and raises nothing (R325). -/
def walkPrefetch (a : XAcc) (s : State) : State :=
  let u := a.unit
  if (bufFind (xunit s u) a.sward a.va).isSome then s
  else
    let t := bump atCountsPfWalks u 1 s
    match walk u a.va t with
    | (.leaf l e, v) =>
      let b := leafBuf a.va l e true
      if rightsCode a b.r b.w b.x = 0 then setXunit u (bufFill u a.sward b (xunit v u)) v else t
    | _ => t

/-- Translate one access (R320–R323): from a buffer where its rights suffice, else by a walk. -/
def translate (a : XAcc) (s : State) : Xlat × State :=
  if vaTop ≤ a.va then meetFault a 0x0201 s
  else match bufFind (xunit s a.unit) a.sward a.va with
  | some b =>
    if rightsCode a b.r b.w b.x = 0 then
      let t := bump atCountsBufHits a.unit 1 (setXunit a.unit (bufTouch (xunit s a.unit) a.sward b) s)
      (.ok (b.pa + (a.va - b.va)) (b.va + b.size - a.va), if b.pf then bump atCountsPfHits a.unit 1 t else t)
    else walkDemand a s
  | none => walkDemand a s

/-- The stream of a submission: its Tuft's, the residency-manager slice's or the Stile's of the Meadow; none for others (R325). -/
def streamKey (a : XAcc) : Option Nat :=
  if 8 ≤ a.unit || a.cp then none
  else match a.agent with
    | 2 => some (a.sward * 8 + a.tuft)
    | 3 => some 129
    | 4 => some 128
    | _ => none

/-- A submission trains its submitter's stream with its first address (R325), and a trained stream walks ahead for the next two. -/
def pfSubmission (a : XAcc) (va : Nat) (s : State) : State :=
  let u := a.unit
  match (if getF s atCtrlPfEn 0 = 0 then none else streamKey a) with
  | none => s
  | some key =>
    let x := xunit s u
    match x.streams.find? (fun p => p.key == key) with
    | none => setXunit u { x with streams := ({ key := key, last := va } :: x.streams).take 32 } s
    | some p =>
      let d := (va : Int) - p.last
      let inRange := 4096 ≤ d.natAbs && d.natAbs ≤ 67108864
      let q : XStream := { key := key, last := va, delta := d, seen := if !inRange then 1 else if d == p.delta && 2 ≤ p.seen then p.seen + 1 else 2 }
      let t := setXunit u { x with streams := q :: x.streams.filter (fun r => r.key != key) } s
      if 3 ≤ q.seen then
        [d, 2 * d].foldl (fun t k => let v := (va : Int) + k
          if 0 ≤ v then walkPrefetch { a with va := v.toNat } t else t) t
      else t

/-! ## Armed regions (R145–R148) -/

def rgBase (d : Nat) : Nat := bitsOf d 511 455
def rgHomeMap (d : Nat) : Nat := bitsOf d 447 391
def rgStage (d : Nat) : Nat := bitsOf d 383 327
def rgStageBytes (d : Nat) : Nat := bitsOf d 319 300 * 1048576
def rgUnits (d : Nat) : Nat := bitsOf d 299 288 + 1
def rgUnitBytes (d : Nat) : Nat := (bitsOf d 287 276 + 1) * 65536
def rgShare (d : Nat) : Nat := bitsOf d 275 262 * 1024
def rgWays (d : Nat) : Nat := bitsOf d 261 259
def rgLayer (d : Nat) : Nat := bitsOf d 255 240
def rgNumber (d : Nat) : Nat := bitsOf d 239 236

def rangesMeet (a n b m : Nat) : Bool := decide (a < b + m) && decide (b < a + n)

/-- The code with which a device access to a virtual range faults under R147, 0 when it does not: a write to the home
range of an armed region, or any access to a staging area. -/
def regionGuard (s : State) (va n : Nat) (write : Bool) : Nat :=
  if s.res.regions.any (fun e => e.2.armed && write && (let d := e.2.desc.toNat; rangesMeet va n (rgBase d) (rgUnits d * rgUnitBytes d))) then 0x0563
  else if s.res.regions.any (fun e => e.2.armed && (let d := e.2.desc.toNat; rgStageBytes d != 0 && rangesMeet va n (rgStage d) (rgStageBytes d))) then 0x0564
  else 0

/-- What the translation of a range answers: physical runs as (virtual start, physical start, bytes). -/
inductive RangeRes where
  | runs (l : List (Nat × Nat × Nat))
  | stall
  | fail (code : Nat)
  deriving DecidableEq, Repr

/-- Translate `len` bytes from `a.va` on, page by page and run by run (R324); `n` bounds the pieces. -/
def translateGo (a : XAcc) : Nat → Nat → Nat → List (Nat × Nat × Nat) → State → RangeRes × State
  | 0, _, _, acc, s => (.runs acc.reverse, s)
  | n + 1, va, len, acc, s =>
    if len = 0 then (.runs acc.reverse, s)
    else match translate { a with va := va } s with
      | (.ok pa room, t) => translateGo a n (va + min room len) (len - min room len) ((va, pa, min room len) :: acc) t
      | (.stall, t) => (.stall, t)
      | (.fail c, t) => (.fail c, t)

/-- The runs of a list, (virtual, physical, bytes, written), that cover a range; none where they leave a byte of it out. The first
argument bounds their number. -/
def coverRuns (runs : List (Nat × Nat × Nat × Bool)) (w : Bool) : Nat → Nat → Nat → Option (List (Nat × Nat × Nat))
  | 0, _, n => if n = 0 then some [] else none
  | k + 1, va, n =>
    if n = 0 then some []
    else match runs.find? (fun r => r.2.2.2 == w && r.1 ≤ va && va < r.1 + r.2.2.1) with
      | none => none
      | some r =>
        let m := min n (r.1 + r.2.2.1 - va)
        (coverRuns runs w k (va + m) (n - m)).map ((va, r.2.1 + (va - r.1), m) :: ·)

/-- The runs that an exchange translated when it was submitted (R324). -/
def heldRuns (a : XAcc) (n : Nat) (s : State) : Option (List (Nat × Nat × Nat)) :=
  match a.who with
  | .copy id => (s.copies.recs.find? (fun c => c.id == id)).bind (fun c =>
      if c.runs.isEmpty then none else coverRuns c.runs a.w (c.runs.length + 1) a.va n)
  | _ => none

/-- An access to a range: refused by the rules of armed regions, which the residency manager's own copies (agent 4) are not
subject to, or translated; an exchange keeps the runs of its submission. -/
def translateRange (a : XAcc) (len : Nat) (s : State) : RangeRes × State :=
  let code := if a.agent = 4 ∨ len = 0 then 0 else regionGuard s a.va len a.w
  if code != 0 then (.fail code, s)
  else match heldRuns a len s with
    | some rs => (.runs rs, s)
    | none => translateGo a (len / 4096 + 2) a.va len [] s

/-- The control processor reads job memory through unit 8 (R398). -/
def cpAccess (va : Nat) (r w : Bool) : XAcc := { unit := 8, agent := 7, va := va, r := r, w := w }

/-- A physical range reads poison: in device memory as it stands, host-bias pages without a link (R310), the host-link
window without a link (R381) or outside the bridge windows (R367). -/
def physPoison (s : State) (pa n : Nat) : Bool :=
  if isDevMem pa n then poisoned s pa n || biasLost s pa n else isHostWin pa n && (!flagSet s hlStatusLinkUp 0 || !hostReach s pa n)

/-- Why translated bytes in the host-link window cannot be reached: 0x0830 with the link down, or for a command of an earlier link
epoch; 0x0820 outside the bridge windows; else 0 (R367, R381, R383). Log entry 159. -/
def hostCode (epoch : Option Nat) (runs : List (Nat × Nat × Nat)) (s : State) : Nat :=
  let host := runs.filter (fun r => isHostWin r.2.1 r.2.2)
  if host.isEmpty then 0
  else if !flagSet s hlStatusLinkUp 0 || epoch.any (fun e => e != getF s hlStatusLinkEpoch 0) then 0x0830
  else if host.any (fun r => !hostReach s r.2.1 r.2.2) then 0x0820
  else 0

/-- How a host read that is answered within its command comes back (log entry 185): 0 with data, 0x0820 refused by a peer, 0x0821 not
before the completion timeout (R379, R387). -/
def hostFate (s : State) : Nat :=
  match Config.hostRead s.freeCtr % 3 with
  | 0 => 0
  | 1 => 0x0820
  | _ => 0x0821

/-- What a refused or late read sets (R379, R387). -/
def fateFlag (code : Nat) (s : State) : State :=
  if code = 0x0820 then raise flHlStatusPeerRefused 0 s else if code = 0x0821 then raise flHlStatusCplTimeout 0 s else s

/-- The code that ends a read of translated bytes, and what that read does: it cannot leave, or is refused, or times out. -/
def readCode (epoch : Option Nat) (runs : List (Nat × Nat × Nat)) (s : State) : Nat × State :=
  let host := runs.filter (fun r => isHostWin r.2.1 r.2.2)
  let code := hostCode epoch runs s
  if code != 0 then (code, s)
  else if host.isEmpty || hostFate s = 0 then (0, s)
  else (hostFate s, drawn (fateFlag (hostFate s) (host.foldl (fun t r => hostAsk r.2.1 r.2.2 t) s)))

/-- Runs that can be read, or the code of those that cannot. -/
def readOrCode (epoch : Option Nat) (r : RangeRes × State) : RangeRes × State :=
  match r.1 with
  | .runs rs => let c := readCode epoch rs r.2; if c.1 = 0 then r else (.fail c.1, c.2)
  | _ => r

/-- Runs that can be reached, or the code of those that cannot. -/
def runsOrCode (epoch : Option Nat) (r : RangeRes × State) : RangeRes × State :=
  match r.1 with
  | .runs rs => let c := hostCode epoch rs r.2; if c = 0 then r else (.fail c, r.2)
  | _ => r

/-- Translated bytes as one little-endian number; bytes of the host-link window are whatever the host holds: free values. -/
def readRuns (runs : List (Nat × Nat × Nat)) (s : State) : Nat × Bool × State :=
  let r := runs.foldl (fun (acc : Nat × Nat × Bool × State) (run : Nat × Nat × Nat) =>
    let (v, sh, bad, t) := acc
    let (_, pa, len) := run
    if isDevMem pa len then (v + readNum t pa len * 256 ^ sh, sh + len, bad || physPoison t pa len, t)
    else (v + (freshVal t % 256 ^ len) * 256 ^ sh, sh + len, bad || physPoison t pa len,
      drawn (if hostReach t pa len then hostAsk pa len t else t))) (0, 0, false, s)
  (r.1, r.2.2.1, r.2.2.2)

/-- Poisoned 32-byte pieces of translated bytes, counted from the first byte. -/
def runsPoison (runs : List (Nat × Nat × Nat)) (s : State) : List Nat :=
  (runs.foldl (fun (acc : Nat × List Nat) r =>
    (acc.1 + r.2.2, acc.2 ++ ((List.range ((r.2.2 + 31) / 32)).filter (fun k => physPoison s (r.2.1 + 32 * k) (min 32 (r.2.2 - 32 * k)))).map (fun k => (acc.1 + 32 * k) / 32))) (0, [])).2

/-- Poison the 32-byte piece `k` of translated bytes. -/
def poisonPiece (runs : List (Nat × Nat × Nat)) (k : Nat) (s : State) : State :=
  (runs.foldl (fun (acc : Nat × State) r =>
    let lo := max (32 * k) acc.1
    let hi := min (32 * k + 32) (acc.1 + r.2.2)
    (acc.1 + r.2.2, if lo < hi && isDevMem (r.2.1 + lo - acc.1) (hi - lo) then poisonRange (r.2.1 + lo - acc.1) (hi - lo) acc.2 else acc.2)) (0, s)).2

/-- Every 32-byte piece of `n` bytes where `bad`. -/
def allPieces (bad : Bool) (n : Nat) : List Nat := if bad then List.range ((n + 31) / 32) else []

/-- Write a little-endian number over translated runs, its poisoned pieces given: they poison what they reach in device memory, and
a write over the host link that holds one is sent poisoned (R510). -/
def writePieces (runs : List (Nat × Nat × Nat)) (v : Nat) (bad : List Nat) (s : State) : State :=
  let t := (runs.foldl (fun (acc : Nat × Nat × State) r =>
    (acc.1 + r.2.2, acc.2.1 / 256 ^ r.2.2,
     writePhys r.2.1 r.2.2 (acc.2.1 % 256 ^ r.2.2) acc.2.2 (bad.any (fun k => 32 * k < acc.1 + r.2.2 && acc.1 < 32 * k + 32)))) (0, v, s)).2.2
  bad.foldl (fun t k => poisonPiece runs k t) t

/-- Bytes that runs cover. -/
def runsLen (runs : List (Nat × Nat × Nat)) : Nat := (runs.map (fun r => r.2.2)).foldl (· + ·) 0

/-- Write a little-endian number over translated runs; a poisoned source poisons the sectors written. -/
def writeRuns (runs : List (Nat × Nat × Nat)) (v : Nat) (poison : Bool) (s : State) : State :=
  writePieces runs v (allPieces poison (runsLen runs)) s

end Sys2Proof.Machine
end

