-- ==== Sys2Proof/Machine/Functions.lean ====
section
/-! DEFINITION. Sys2Proof/Machine/Functions.lean: eᴬ, 2ᴬ, ln A, tanh A, the logistic function and 1/√A of a finite number, to
some 190 bits, and the codes within the bound that the spec sets on the methods of the vector engine and the Stile (R133,
R167, R168). Which of those codes a method gives is a free value (log entry 1). -/
namespace Sys2Proof.Machine

/-! ## Fixed-point helpers: `fxOne` stands for 1 -/

def fxOne : Nat := 2 ^ 256

/-- The sum of `n` terms of a power series of e^x from its term `t` of index `k` on; `x` in [0, 1). -/
def expSeries (x : Nat) : Nat → Nat → Nat → Nat
  | 0, _, _ => 0
  | n + 1, k, t => t + expSeries x n (k + 1) (t * x / fxOne / (k + 1))

/-- The sum of `n` terms of the series of artanh u, from the power `p` = u^(2k+1) on; u at most 1/3. -/
def atanhSeries (u2 : Nat) : Nat → Nat → Nat → Nat
  | 0, _, _ => 0
  | n + 1, k, p => p / (2 * k + 1) + atanhSeries u2 n (k + 1) (p * u2 / fxOne)

def fxAtanh (u : Nat) : Nat := atanhSeries (u * u / fxOne) 90 0 u
def fxLn2 : Nat := 2 * fxAtanh (fxOne / 3)
def fxExp (x : Nat) : Nat := expSeries x 70 0 fxOne

/-- m × 2^e in fixed point, cut off below. -/
def fxOf (m : Nat) (e : Int) : Nat := if -256 ≤ e then m * 2 ^ (e + 256).toNat else m / 2 ^ (-e - 256).toNat

/-- A magnitude m × 2^e of 2^13 or more, beyond every exponent range. -/
def beyondExp (m : Nat) (e : Int) : Bool := decide (13 ≤ (Nat.log2 m : Int) + e)

/-! ## The functions, of a nonzero finite argument -/

/-- e^x, of x = (−1)^n × m × 2^e. -/
def expOf (n : Bool) (m : Nat) (e : Int) : Approx :=
  if beyondExp m e then (false, 1, if n then -20000 else 20000, true)
  else
    let x := fxOf m e
    let k := x / fxLn2
    if n then (false, fxExp ((k + 1) * fxLn2 - x), -(k : Int) - 1 - 256, true) else (false, fxExp (x - k * fxLn2), (k : Int) - 256, true)

/-- 2^x; exact where x is an integer. -/
def exp2Of (n : Bool) (m : Nat) (e : Int) : Approx :=
  if beyondExp m e then (false, 1, if n then -20000 else 20000, true)
  else
    let x := fxOf m e
    let k := x / fxOne
    let r := x % fxOne
    if r = 0 ∧ (0 ≤ e ∨ x ≠ 0) then (false, 1, if n then -(k : Int) else k, false)
    else if n then (false, fxExp ((fxOne - r) * fxLn2 / fxOne), -(k : Int) - 1 - 256, true)
    else (false, fxExp (r * fxLn2 / fxOne), (k : Int) - 256, true)

/-- ln (m × 2^e). -/
def lnOf (m : Nat) (e : Int) : Approx :=
  let l := Nat.log2 m
  let t := fxOf m (-(l : Int))
  let v : Int := (e + l) * (fxLn2 : Int) + (2 * fxAtanh ((t - fxOne) * fxOne / (t + fxOne)) : Nat)
  (decide (v < 0), v.natAbs, -256, decide (v ≠ 0))

/-- 1 / (1 + e^−x). -/
def logisticOf (n : Bool) (m : Nat) (e : Int) : Approx :=
  let (_, q, k, _) := expOf true m e
  -- e^−|x| = q × 2^k with k negative
  let den := 2 ^ (-k).toNat + q
  let sh := (-k).toNat + 256
  (false, (if n then q else 2 ^ (-k).toNat) * 2 ^ sh / den, -(sh : Int), true)

/-- tanh x: x itself to 2^−80 where it is below 2^−60. -/
def tanhOf (n : Bool) (m : Nat) (e : Int) : Approx :=
  if (Nat.log2 m : Int) + e < -60 then (n, m * 2 ^ 80 - 1, e - 80, true)
  else
    let (_, q, k, _) := expOf true m (e + 1)
    let d := 2 ^ (-k).toNat
    (n, (d - q) * 2 ^ 256 / (d + q), -256, true)

/-- x / (1 + e^−x). -/
def siluOf (n : Bool) (m : Nat) (e : Int) : Approx :=
  let s := logisticOf n m e
  (n, s.2.1 * m, s.2.2.1 + e, true)

/-- 1 / √(m × 2^e). -/
def rsqrtOf (m : Nat) (e : Int) : Approx :=
  let odd := e % 2 ≠ 0
  let m' := if odd then 2 * m else m
  let e' := if odd then e - 1 else e
  let v := 2 ^ 600 / m'
  let r := isqrt v
  (false, r, -300 - e' / 2, decide (r * r * m' ≠ 2 ^ 600))

/-! ## Codes within a bound -/

/-- The code of a number in a format that holds it. -/
def codeOf (f : Fmt) (x : Num) : Nat := (roundNum f {} 0 x).1

/-- Exponent of a unit in the last place at the magnitude m × 2^e, m not zero; FP32 work with 8 extra mantissa bits counts in
units of FP32. -/
def ulpExp (f : Fmt) (m : Nat) (e : Int) : Int :=
  max (leadExp m e) (1 - (fmtBias f : Int)) - (if f == .fp40 then 23 else manBits f : Nat)

/-- The first and the last code of a magnitude whose distance from that of `v` is at most `k` units in the last place. -/
def codesNear (k : Nat) (f : Fmt) (v : Approx) : Nat × Nat :=
  let u := ulpExp f v.2.1 v.2.2.1
  let b := min v.2.2.1 u
  let x := shl v.2.1 (v.2.2.1 - b)
  let w := shl k (u - b)
  (if x ≤ w then bit (x == w && v.2.2.2) else (roundFin f { rmode := .ru } 0 false (x - w) b v.2.2.2).1,
    (roundFin f { rmode := .rz } 0 false (x + w) b false).1)

/-- The code that a method gives for the number `v`: one within `k` units in the last place, of its sign. -/
def nearCode (op k : Nat) (f : Fmt) (a b : Nat) (v : Approx) : Nat :=
  let r := codesNear k f v
  bit v.1 * 2 ^ (expBits f + manBits f) + (r.1 + Config.ulpOff op (fmtBits f) a b % (r.2 + 1 - r.1))

/-- The result of operation `op` on `x` and `y`, `v` before rounding, within `k` units in the last place: SUBN acts on it, and a
result beyond the range is an infinity (R69, R170). -/
def nearResult (op k : Nat) (f : Fmt) (a : Arith) (x y : Num) (v : Approx) : Num × Nat :=
  let r := roundApprox f a 0 v
  if r.2 &&& fOF != 0 then (.inf v.1, r.2)
  else match (decodeNum f true r.1).1 with
  | .fin _ _ _ =>
    let z := roundNum f a 0 (decodeNum f true (nearCode op k f (codeOf f x) (codeOf f y) v)).1
    ((decodeNum f true z.1).1, r.2 ||| z.2)
  | z => (z, r.2)

/-- The result of a function evaluated by a fixed method within `k` units in the last place (R168). -/
def methodResult (op k : Nat) (f : Fmt) (a : Arith) (x : Num) (v : Approx) : Num × Nat :=
  nearResult op k f { a with rmode := .rne } x numZero v

/-- EXP, EXP2, TANH, SIGMOID, SILU, LOG and RSQRT of a number, by their codes in Table VE-4. LOG and RSQRT are asked only of
positive numbers. SILU of −∞ is a free value. -/
def methodOp (op ulps : Nat) (f : Fmt) (a : Arith) (x : Num) : Num × Nat :=
  match x with
  | .nan _ => (.nan false, 0)
  | .inf n =>
    if op = 0x19 && n then ((decodeNum f true (Config.fixedMethod op (fmtBits f) (codeOf f x))).1, 0)
    else if op = 0x17 then (.fin n 1 0, 0)
    else if op = 0x18 then (if n then numZero else .fin false 1 0, 0)
    else if op = 0x11 then (numZero, 0)
    else (if n then numZero else .inf false, 0)
  | .fin n m e =>
    if m = 0 then (if op = 0x17 || op = 0x19 then .fin n 0 0 else if op = 0x18 then .fin false 1 (-1) else .fin false 1 0, 0)
    else methodResult op ulps f a x (
      if op = 0x11 then rsqrtOf m e else if op = 0x15 then exp2Of n m e else if op = 0x16 then lnOf m e
      else if op = 0x17 then tanhOf n m e else if op = 0x18 then logisticOf n m e else if op = 0x19 then siluOf n m e
      else expOf n m e)

end Sys2Proof.Machine
end

