-- ==== Sys2Proof/Machine/MatrixCalc.lean ====
section
/-! DEFINITION. Sys2Proof/Machine/MatrixCalc.lean: what a matrix operation computes from its descriptor and the bytes of
the Tuft stores (R88–R109, R119–R129): geometry, regions, checks, results. No state of the machine is named here. -/
namespace Sys2Proof.Machine

/-! ## The descriptor (Table MX-2) -/

def mxScaleB (d : Nat) : Nat := bitsOf d 511 480
def mxScaleA (d : Nat) : Nat := bitsOf d 479 448
def mxSrRound (d : Nat) : Nat := bitsOf d 447 416
def mxSrStream (d : Nat) : Nat := bitsOf d 415 384
def mxCSide (d : Nat) : Nat := bitsOf d 338 320
def mxAStride (d : Nat) : Nat := bitsOf d 319 304
def mxMeta (d : Nat) : Nat := bitsOf d 303 285
def mxTrow (d : Nat) : Nat := bitsOf d 255 240
def mxTcol (d : Nat) : Nat := bitsOf d 239 224
def mxCStride (d : Nat) : Nat := bitsOf d 223 208
def mxBStride (d : Nat) : Nat := bitsOf d 207 192
def mxASide (d : Nat) : Nat := bitsOf d 191 173
def mxBSide (d : Nat) : Nat := bitsOf d 172 154
def mxTag (d : Nat) : Nat := bitsOf d 153 138
def mxAAddr (d : Nat) : Nat := bitsOf d 127 109
def mxBAddr (d : Nat) : Nat := bitsOf d 108 90
def mxCAddr (d : Nat) : Nat := bitsOf d 89 71
def mxArrive (d : Nat) : Nat := bitsOf d 70 65
def mxK (d : Nat) : Nat := bitsOf d 63 48 + 1
def mxM (d : Nat) : Nat := bitsOf d 47 32 + 1
def mxN (d : Nat) : Nat := bitsOf d 31 25 + 1
def mxFmtC (d : Nat) : Nat := bitsOf d 24 21
def mxFmtB (d : Nat) : Nat := bitsOf d 20 17
def mxFmtA (d : Nat) : Nat := bitsOf d 16 13
def mxMode (d : Nat) : Nat := bitsOf d 12 11
def mxQuad (d : Nat) : Nat := bitsOf d 10 9
def mxAcc (d : Nat) : Bool := bitsOf d 8 8 == 1
def mxCplx (d : Nat) : Bool := bitsOf d 7 7 == 1
def mxSparse (d : Nat) : Nat := bitsOf d 6 5
def mxForce (d : Nat) : Bool := bitsOf d 4 4 == 1
def mxOutVe (d : Nat) : Bool := bitsOf d 3 3 == 1
/-- The fields Table MX-2 says must be zero, put together. -/
def mxReserved (d : Nat) : Nat := bitsOf d 383 339 + bitsOf d 284 256 + bitsOf d 137 128 + bitsOf d 64 64 + bitsOf d 2 0
/-- B is 2:4 structured (SPARSE 0b01, 0b11). -/
def mxSp24 (d : Nat) : Bool := mxSparse d % 2 == 1
/-- A carries a skip map (SPARSE 0b10, 0b11). -/
def mxSkip (d : Nat) : Bool := mxSparse d / 2 == 1

def fmtA (d : Nat) : Fmt := (fmtOfCode (mxFmtA d)).getD .fp32
def fmtB (d : Nat) : Fmt := (fmtOfCode (mxFmtB d)).getD .fp32
def fmtC (d : Nat) : Fmt := (fmtOfCode (mxFmtC d)).getD .fp32

/-! ## Geometry (Table MX-1) -/

/-- Operand groups of R95: the 8-bit group, XI8, XF16, FP32, FP64. -/
def fmtGroup : Fmt → Nat
  | .xf4 => 0 | .xf6 => 0 | .xf8a => 0 | .xf8b => 0 | .xi8 => 1 | .xf16 => 2 | .fp32 => 3 | .fp64 => 4 | .int32 => 5 | .fp40 => 5

def bothXf4 (d : Nat) : Bool := fmtA d == .xf4 && fmtB d == .xf4

/-- K extent of one weight tile, full mode, before sparsity. -/
def tileKFull (d : Nat) : Nat :=
  if bothXf4 d then 128 else if fmtGroup (fmtA d) ≤ 1 then 64 else if fmtGroup (fmtA d) = 4 then 64 else 32

/-- N extent of one weight tile, full mode. -/
def tileNFull (d : Nat) : Nat :=
  if fmtGroup (fmtA d) ≤ 1 then 64 else if fmtGroup (fmtA d) = 4 then 64 else 32

/-- K extent of a weight tile: halved in quarter mode, doubled by 2:4 for the 8-bit formats and XI8 (R88). -/
def tileK (d : Nat) : Nat :=
  (if mxMode d = 1 then tileKFull d / 2 else tileKFull d) * (if mxSp24 d && fmtGroup (fmtA d) ≤ 1 then 2 else 1)

/-- Side of the joined output tile. -/
def joinTile (d : Nat) : Nat := if fmtGroup (fmtA d) = 2 then 64 else 128

/-- Largest N of an operation. -/
def maxN (d : Nat) : Nat :=
  if mxMode d = 2 then joinTile d else if mxMode d = 1 then tileNFull d / 2 else tileNFull d

/-- Rows of a block. -/
def blockRows (d : Nat) : Nat := if mxMode d = 1 then 32 else if mxMode d = 2 then joinTile d else 64

/-- K tiles of an operation. -/
def kTiles (d : Nat) : Nat := (mxK d + tileK d - 1) / tileK d

/-- Blocks of M. -/
def mBlocks (d : Nat) : Nat := (mxM d + blockRows d - 1) / blockRows d

/-- Weight sets of one K tile (Table MX-4). -/
def setsPerTile (d : Nat) : Nat :=
  let c := if mxCplx d then 2 else 1
  match fmtA d with
  | .fp32 => 2 * c
  | .fp64 => 8 * c
  | _ => c

/-- The operation uses one weight set only (R101). -/
def oneSet (d : Nat) : Bool := kTiles d == 1 && setsPerTile d == 1

/-- A tag candidate (R101). -/
def tagCandidate (d : Nat) : Bool := mxTag d != 0 && !mxForce d && oneSet d

/-- What a weight set is compared on (R101). -/
def wsetKey (d : Nat) : List Nat :=
  [mxTag d, mxBAddr d, mxBSide d, mxMeta d, mxFmtB d, mxSparse d, mxK d, mxN d]

/-! ## Bytes of rows and planes -/

def pad32 (n : Nat) : Nat := (n + 31) / 32 * 32

/-- Bytes of `n` packed elements. -/
def elemBytes (f : Fmt) (n : Nat) : Nat := (n * fmtBits f + 7) / 8

/-- Side bytes per block (Table NF-5). -/
def sideBytes (f : Fmt) : Nat := if f = .xf4 then 2 else 1

/-- Parts of an element: 2 when complex. -/
def cparts (d : Nat) : Nat := if mxCplx d then 2 else 1

/-- Stored elements in a row of B. -/
def bStored (d : Nat) : Nat := if mxSp24 d then mxK d / 2 else mxK d

/-- Bytes of the skip map, padded (R126); zero without one. -/
def skipBytes (d : Nat) : Nat := if mxSkip d then pad32 ((mBlocks d * kTiles d + 7) / 8) else 0

/-- Bytes of one metadata row of B, padded (R121). -/
def metaRow (d : Nat) : Nat := pad32 ((mxK d + 7) / 8)

/-- Rows of A, or columns of B, that the first or the second half of a joined group holds: rows and columns from half of the
output tile on are those of the second (R91; for a tile of 64 by 64 that is 32, log entry 119). -/
def halfOf (d i n : Nat) : Nat := if mxMode d = 2 then (if i = 0 then min n (joinTile d / 2) else n - joinTile d / 2) else n

/-- Rows of A and C, and columns of B and C, in the store of Tuft `j` of the group. -/
def rowsAOn (d j : Nat) : Nat := halfOf d (j / 2) (mxM d)
def rowsBOn (d j : Nat) : Nat := halfOf d (j % 2) (mxN d)

/-- Rows of a plane in the issuing Tuft's store. -/
def rowsA (d : Nat) : Nat := rowsAOn d 0
def rowsB (d : Nat) : Nat := rowsBOn d 0

/-- A region: first byte, length. -/
abbrev Region := Nat × Nat

/-- Rows of a plane as regions. -/
def rowRegions (addr stride rows bytes : Nat) : List Region := (List.range rows).map (fun r => (addr + r * stride, bytes))

/-- A side plane: rows packed one after another (log entry 12). -/
def sideRegion (f : Fmt) (addr rows n : Nat) : List Region :=
  if isBlock f then [(addr, rows * ((n + 31) / 32) * sideBytes f)] else []

def regionsA (d : Nat) : List Region := rowRegions (mxAAddr d) (mxAStride d) (rowsA d) (elemBytes (fmtA d) (mxK d) * cparts d)
def regionsB (d : Nat) : List Region := rowRegions (mxBAddr d) (mxBStride d) (rowsB d) (elemBytes (fmtB d) (bStored d) * cparts d)
def regionsSide (d : Nat) : List Region :=
  sideRegion (fmtA d) (mxASide d) (rowsA d) (mxK d) ++ sideRegion (fmtB d) (mxBSide d) (rowsB d) (bStored d)
def regionsMeta (d : Nat) : List Region :=
  if mxSparse d = 0 then [] else [(mxMeta d, skipBytes d + (if mxSp24 d then rowsB d * metaRow d else 0))]
/-- C is read or written unless results go to the vector engine without accumulation. -/
def usesC (d : Nat) : Bool := !mxOutVe d || mxAcc d
def regionsC (d : Nat) : List Region :=
  if usesC d then
    rowRegions (mxCAddr d) (mxCStride d) (rowsA d) (elemBytes (fmtC d) (rowsB d) * cparts d) ++
      sideRegion (fmtC d) (mxCSide d) (rowsA d) (rowsB d)
  else []

def regionsIn (d : Nat) : List Region := regionsA d ++ regionsB d ++ regionsSide d ++ regionsMeta d


/-- The part of C that Tuft `j` of the group holds. -/
def regionsCOn (d j : Nat) : List Region :=
  if usesC d then
    rowRegions (mxCAddr d) (mxCStride d) (rowsAOn d j) (elemBytes (fmtC d) (rowsBOn d j) * cparts d) ++
      sideRegion (fmtC d) (mxCSide d) (rowsAOn d j) (rowsBOn d j)
  else []

def overlap (x y : List Region) : Bool := x.any (fun a => y.any (fun b => a.1 < b.1 + b.2 && b.1 < a.1 + a.2))

/-- An operation waits for an earlier one of the Tuft (R112). -/
def mxHazard (later earlier : Nat) : Bool :=
  overlap (regionsC later) (regionsIn earlier ++ regionsC earlier) || overlap (regionsIn later) (regionsC earlier)

/-! ## Checks (R48, R54, R95–R98, R120, R129, R176; Tables MX-9 and SP-8) -/

/-- +0.0 or a normal FP32 value (R97). -/
def scaleOk (w : Nat) : Bool := w == 0 || (0 < bitsOf w 30 23 && bitsOf w 30 23 < 255)

def scaledFmt (f : Fmt) : Bool := f == .xf8a || f == .xf8b || f == .xi8

/-- Output formats of R95. -/
def outOk (d : Nat) : Bool :=
  match fmtGroup (fmtA d) with
  | 1 => fmtC d == .int32 || fmtC d == .fp32
  | 4 => fmtC d == .fp64 || fmtC d == .fp32
  | _ => !isInt (fmtC d)

/-- Alignment of one operand's planes: 128 for block formats (R54), else 32 (Table MX-9). -/
def planeChecks (f : Fmt) (addr stride side : Nat) : List (Bool × Nat) :=
  if isBlock f then [(addr % 128 != 0 || side % 128 != 0 || stride % 128 != 0, 0x0404)]
  else [(addr % 32 != 0 || stride % 32 != 0, 0x0427)]

/-- Every check of a matrix descriptor: (fails, code). `limit` is the task's store allocation. A pairing that R95 refuses has no
row of Table MX-1; 0x0422 fails it only beyond every tile of its mode. -/
def mxChecks (d limit : Nat) (joined lead : Bool) : List (Bool × Nat) :=
  let codesOk := mxFmtA d ≤ 7 && mxFmtB d ≤ 7 && mxFmtC d ≤ 8
  let pairOk := codesOk && fmtGroup (fmtA d) == fmtGroup (fmtB d)
  let widest := if pairOk then maxN d else if mxMode d = 2 then 128 else if mxMode d = 1 then 32 else 64
  [ (!codesOk, 0x0405),
    (codesOk && !(pairOk && outOk d), 0x0428),
    (isBlock (fmtC d) && codesOk && (mxOutVe d || mxCplx d), 0x0428),
    (pairOk && (mxMode d == 1 || mxMode d == 2) && 3 ≤ fmtGroup (fmtA d), 0x0420),
    (codesOk && mxCplx d && (isBlock (fmtA d) || isBlock (fmtB d)), 0x0420),
    (65536 < (if mxCplx d then 2 * mxK d else mxK d) + bit (mxAcc d), 0x0421),
    (codesOk && mxMode d != 3 && (widest < mxN d || (mxMode d == 2 && widest < mxM d)), 0x0422),
    (codesOk && (regionsA d ++ regionsB d ++ regionsSide d ++ regionsC d).any (fun r => limit < r.1 + r.2), 0x0423),
    (codesOk && overlap (regionsIn d) (regionsC d), 0x0423),
    ((mxMode d == 2 && !joined) || (joined && !lead), 0x0424),
    (mxMode d == 3 || (mxMode d != 1 && mxQuad d != 0) || mxReserved d != 0 || (!isBlock (fmtC d) && mxCSide d != 0), 0x0425),
    (codesOk && ((scaledFmt (fmtA d) && !scaleOk (mxScaleA d)) || (scaledFmt (fmtB d) && !scaleOk (mxScaleB d))), 0x0426),
    (isBlock (fmtA d) && mxK d % 32 != 0, 0x0403),
    (isBlock (fmtB d) && !mxSp24 d && mxK d % 32 != 0, 0x0403),
    (isBlock (fmtC d) && mxN d % 32 != 0, 0x0403),
    (mxSkip d && mxMode d == 2, 0x0440),
    (codesOk && mxSp24 d && (mxK d % 4 != 0 || (isBlock (fmtB d) && mxK d % 64 != 0)), 0x0442),
    (mxSparse d != 0 && mxMeta d % 32 != 0, 0x0443),
    (codesOk && (regionsMeta d).any (fun r => limit < r.1 + r.2), 0x0443),
    (mxOutVe d && mxCplx d, 0x0454) ]
  ++ planeChecks (fmtA d) (mxAAddr d) (mxAStride d) (mxASide d) ++ planeChecks (fmtB d) (mxBAddr d) (mxBStride d) (mxBSide d)
  ++ (if usesC d then planeChecks (fmtC d) (mxCAddr d) (mxCStride d) (mxCSide d) else [])

/-- The code R570 selects: the lowest among the failing checks. -/
def lowestCode (cs : List (Bool × Nat)) : Option Nat :=
  cs.foldl (fun acc c => if c.1 then some (match acc with | some x => min x c.2 | none => c.2) else acc) none

/-! ## Operands -/

/-- The little-endian number of `n` bytes that `rd` gives from `a` on. -/
def rdNum (rd : Nat → Byte) (a : Nat) : Nat → Nat
  | 0 => 0
  | n + 1 => rdNum rd a n + (rd (a + n)).toNat * 256 ^ n

/-- One stored element: row `r`, place `c` of `per` in the row; for a block format with its scale and nudge, raising BN
for a NaN block. -/
def elemAt (rd : Nat → Byte) (f : Fmt) (a : Arith) (addr stride side per r c : Nat) : Num × Nat :=
  if isBlock f then
    let code := (rdNum rd (addr + r * stride + c * fmtBits f / 8) 2 >>> (c * fmtBits f % 8)) % 2 ^ fmtBits f
    let se := side + (r * ((per + 31) / 32) + c / 32) * sideBytes f
    let sc := (rd se).toNat
    let nd := if f = .xf4 then ((rd (se + 1)).toNat >>> (2 * (c % 32 / 8))) % 4 else 0
    (blockElem f code sc nd, if sc = 255 then fBN else 0)
  else
    decodeNum f a.subn (rdNum rd (addr + r * stride + c * (fmtBits f / 8)) (fmtBits f / 8))

/-- A product with the operand scales applied exactly (R65). -/
def scaleOf (f : Fmt) (w : Nat) : Num :=
  if scaledFmt f && w != 0 then (decodeNum .fp32 true w).1 else .fin false 1 0

/-- The stored place of position `k` of a row of B, none when pruned (R120, R121). -/
def keptPlace (d : Nat) (rdM : Nat → Byte) (n k : Nat) : Option Nat :=
  if mxSp24 d then
    let nib := ((rdM (mxMeta d + skipBytes d + n * metaRow d + k / 8)).toNat >>> (4 * (k / 4 % 2))) % 16
    if k % 4 = nib % 4 then some (k / 4 * 2) else if k % 4 = nib / 4 then some (k / 4 * 2 + 1) else none
  else some k

/-- The skip map declares tile `t` zero for the rows of block `b` (R126, R127). -/
def skipped (d : Nat) (rdK : Nat → Byte) (b t : Nat) : Bool :=
  mxSkip d && (let i := b * kTiles d + t; ((rdK (mxMeta d + i / 8)).toNat >>> (i % 8)) % 2 == 1)

/-- The map skips K tile `t` for every block: no visit of it is made, and its weight set is not loaded (R127). -/
def tileSkipped (d : Nat) (rdK : Nat → Byte) (t : Nat) : Bool := mxSkip d && (List.range (mBlocks d)).all (fun b => skipped d rdK b t)

/-- The map skips every visit (R127). -/
def allSkipped (d : Nat) (rdK : Nat → Byte) : Bool := mxSkip d && (List.range (kTiles d)).all (tileSkipped d rdK)

/-- The bytes of row `r` of a plane and of its side plane that hold tile `k` of `tk` stored elements, `per` in a row. -/
def tilePart (f : Fmt) (addr stride side per cp tk r k : Nat) : List Region :=
  let n := min tk (per - k * tk)
  (addr + r * stride + k * tk * fmtBits f * cp / 8, (n * fmtBits f * cp + 7) / 8) ::
    (if isBlock f then [(side + (r * ((per + 31) / 32) + k * tk / 32) * sideBytes f, (n + 31) / 32 * sideBytes f)] else [])

/-- What an operation reads of A on Tuft `j` of its group, with the skip map: Tufts 0 and 2 hold A (R91), and the rows of a block
are not read at a tile that the map declares zero for it (R127). -/
def readsAOn (d j : Nat) (rdK : Nat → Byte) : List Region :=
  if mxSkip d then
    (mxMeta d, skipBytes d) :: (List.range (rowsAOn d j)).flatMap (fun r =>
      ((List.range (kTiles d)).filter (fun k => !skipped d rdK (r / blockRows d) k)).flatMap (fun k =>
        tilePart (fmtA d) (mxAAddr d) (mxAStride d) (mxASide d) (mxK d) (cparts d) (tileK d) r k))
  else if j % 2 = 0 then
    rowRegions (mxAAddr d) (mxAStride d) (rowsAOn d j) (elemBytes (fmtA d) (mxK d) * cparts d) ++ sideRegion (fmtA d) (mxASide d) (rowsAOn d j) (mxK d)
  else []

/-- What an operation reads of B on Tuft `j` of its group: Tufts 0 and 1 hold B (R91); a tile of which no visit is made is not
loaded (R127). -/
def readsBOn (d j : Nat) (rdK : Nat → Byte) : List Region :=
  if mxSkip d then
    let kept := (List.range (kTiles d)).filter (fun k => !tileSkipped d rdK k)
    let tk := if mxSp24 d then tileK d / 2 else tileK d
    (List.range (rowsBOn d j)).flatMap (fun r => kept.flatMap (fun k =>
      tilePart (fmtB d) (mxBAddr d) (mxBStride d) (mxBSide d) (bStored d) (cparts d) tk r k ++
        (if mxSp24 d then [(mxMeta d + skipBytes d + r * metaRow d + k * tileK d / 8, (tileK d + 7) / 8)] else [])))
  else if j / 2 = 0 then
    rowRegions (mxBAddr d) (mxBStride d) (rowsBOn d j) (elemBytes (fmtB d) (bStored d) * cparts d) ++
      sideRegion (fmtB d) (mxBSide d) (rowsBOn d j) (bStored d) ++ (if mxSp24 d then [(mxMeta d, rowsBOn d j * metaRow d)] else [])
  else []

/-- Every metadata nibble of the K tiles that are loaded has its first index below its second, in `rows` rows (R123). -/
def metaOk (d : Nat) (rdM rdK : Nat → Byte) (rows : Nat) : Bool :=
  !mxSp24 d || (List.range (mxK d / 4)).all (fun g => tileSkipped d rdK (4 * g / tileK d) || (List.range rows).all (fun n =>
    let nib := ((rdM (mxMeta d + skipBytes d + n * metaRow d + g / 2)).toNat >>> (4 * (g % 2))) % 16
    nib % 4 < nib / 4))

/-! ## Results -/

/-- Where the bytes of an operation come from: A, B, metadata of B and C by (Tuft of the join group, offset), the skip map, and
the descriptor by whose strides B and its metadata lie there: that of the operation that loaded the weight set (R101). -/
structure MxMem where
  a : Nat → Nat → Byte
  b : Nat → Nat → Byte
  m : Nat → Nat → Byte
  c : Nat → Nat → Byte
  k : Nat → Byte
  bd : Nat

/-- Half of the joined tile, from which on rows and columns lie on the group's second Tufts; a bound no index reaches in the other
modes. -/
def halfTile (d : Nat) : Nat := if mxMode d = 2 then joinTile d / 2 else 65536

/-- The Tuft that holds row `r` of A, column `n` of B, element (r, n) of C (R91). -/
def aTuft (d r : Nat) : Nat := 2 * (r / halfTile d)
def bTuft (d n : Nat) : Nat := n / halfTile d
def cTuft (d r n : Nat) : Nat := aTuft d r + bTuft d n

/-- Part `p` (0 real, 1 imaginary) of A[r, k]. -/
def aElem (d : Nat) (a : Arith) (mm : MxMem) (r k p : Nat) : Num × Nat :=
  elemAt (mm.a (aTuft d r)) (fmtA d) a (mxAAddr d) (mxAStride d) (mxASide d) (mxK d) (r % halfTile d) (k * cparts d + p)

/-- Part `p` of B at stored place `j` of column `n`. -/
def bElem (d : Nat) (a : Arith) (mm : MxMem) (n j p : Nat) : Num × Nat :=
  elemAt (mm.b (bTuft d n)) (fmtB d) a (mxBAddr d) (mxBStride mm.bd) (mxBSide d) (bStored d) (n % halfTile d) (j * cparts d + p)

/-- Columns of C in a row of the store that holds column `n`. -/
def cCols (d n : Nat) : Nat := rowsBOn d (bTuft d n)

/-- Part `p` of the existing C[r, n]. -/
def cElem (d : Nat) (a : Arith) (mm : MxMem) (r n p : Nat) : Num × Nat :=
  elemAt (mm.c (cTuft d r n)) (fmtC d) a (mxCAddr d) (mxCStride d) (mxCSide d) (cCols d n) (r % halfTile d) ((n % halfTile d) * cparts d + p)

/-- The positions that contribute to C[r, n]: (k, stored place). -/
def positions (d : Nat) (mm : MxMem) (r n : Nat) : List (Nat × Nat) :=
  (List.range (mxK d)).filterMap (fun k =>
    if skipped d mm.k (r / blockRows d) (k / tileK d) then none
    else (keptPlace mm.bd (mm.m (bTuft d n)) (n % halfTile d) k).map (fun j => (k, j)))

/-- The pairs of parts whose products make part `p`: (part of A, part of B, negated), in R105's order. -/
def partPairs (d p : Nat) : List (Nat × Nat × Bool) :=
  if mxCplx d then (if p = 0 then [(0, 0, false), (1, 1, true)] else [(0, 1, false), (1, 0, false)]) else [(0, 0, false)]

/-- Multiply a term by the two operand scales, exactly: Table NF-8 has them applied to the products, before the window (R65, log
entry 120). -/
def applyScales (d : Nat) (x : Num) : Num :=
  (mulNum (mulNum x (scaleOf (fmtA d) (mxScaleA d))).1 (scaleOf (fmtB d) (mxScaleB d))).1

/-- One step of the strict reference loop (R67, R105): running value and flags. The running value is kept in the inputs' format and
rounded once more where FMT_C is another (log entry 121). -/
def strictStep (d : Nat) (a : Arith) (mm : MxMem) (r n p : Nat) (acc : Num × Nat) (kj : Nat × Nat) : Num × Nat :=
  (partPairs d p).foldl (fun acc q =>
    let x := aElem d a mm r kj.1 q.1
    let y := bElem d a mm n kj.2 q.2.1
    let f := fmtA d
    let v := fmaRound f a 0 (if q.2.2 then numNegate x.1 else x.1) y.1 acc.1
    ((decodeNum f true v.1).1, acc.2 ||| v.2 ||| x.2 ||| y.2)) acc

/-- The products of part `p` of C[r, n] as terms, each with its scales applied (log entry 120), and the flags their operands raise. -/
def fastTerms (d : Nat) (a : Arith) (mm : MxMem) (r n p : Nat) : List Num × Nat :=
  (positions d mm r n).foldl (fun acc kj =>
    (partPairs d p).foldl (fun acc q =>
      let x := aElem d a mm r kj.1 q.1
      let y := bElem d a mm n kj.2 q.2.1
      let v := fastProduct (fmtA d == .fp32) x.1 y.1
      let t := applyScales d v.1
      ((if q.2.2 then numNegate t else t) :: acc.1, acc.2 ||| v.2 ||| x.2 ||| y.2 ||| snanFlag a.strict [x.1, y.1])) acc) ([], 0)

/-- Part `p` of C[r, n] before its single rounding, and the flags so far (R61, R64, R67, R105, R127). -/
def mxValue (d : Nat) (a : Arith) (mm : MxMem) (r n p : Nat) : Num × Nat :=
  let c0 := if mxAcc d then cElem d a mm r n p else (numZero, 0)
  let cf := c0.2 ||| (if mxAcc d then snanFlag a.strict [c0.1] else 0)
  if allSkipped d mm.k then
    (if mxAcc d then c0.1 else .fin (a.rmode == .rd) 0 0, cf)
  else if a.strict && 3 ≤ fmtGroup (fmtA d) then
    (positions d mm r n).foldl (strictStep d a mm r n p) (c0.1, cf)
  else
    let ts := fastTerms d a mm r n p
    let w := windowNum a.rmode (if fmtGroup (fmtA d) = 4 then 160 else if fmtGroup (fmtA d) = 1 then 4096 else 80)
      (if mxAcc d then c0.1 :: ts.1 else ts.1)
    (w.1, w.2 ||| ts.2 ||| cf)

/-- The SR draw of element (r, n) of the output tile (R59). -/
def mxDraw (d seed r n : Nat) : Nat :=
  srDraw seed (mxSrStream d) (mxSrRound d) (mxTrow d) (mxTcol d) (r * mxN d + n)

/-- Round a value to FMT_C (INT32 by R64). -/
def mxRound (d : Nat) (a : Arith) (seed r n : Nat) (x : Num) : Nat × Nat :=
  if fmtC d = .int32 then convertInt 32 a.strict a.rmode x else roundNum (fmtC d) a (mxDraw d seed r n) x

/-- The arithmetic of an operation's results: strict mode affects that of FP32 and FP64 operands only (R67, log entry 122). -/
def mxResArith (d : Nat) (a : Arith) : Arith := { a with strict := a.strict && 3 ≤ fmtGroup (fmtA d) }

/-- XI8 results take no operand scale as INT32 (R64). -/
def mxResult (d : Nat) (a : Arith) (seed : Nat) (mm : MxMem) (r n p : Nat) : Nat × Nat :=
  let v := mxValue (if fmtC d = .int32 then withBits (withBits d 511 480 0) 479 448 0 else d) a mm r n p
  let c := mxRound d (mxResArith d a) seed r n v.1
  (c.1, c.2 ||| v.2)

/-- A write of results: Tuft of the group, offset, bytes, value. -/
structure StoreWrite where
  tuft : Nat
  off : Nat
  len : Nat
  val : Nat
  deriving DecidableEq, Repr

/-- The writes and flags of element (r, n) of a C that is not a block format. -/
def plainWrites (d : Nat) (a : Arith) (seed : Nat) (mm : MxMem) (r n : Nat) : List StoreWrite × Nat :=
  let w := fmtBits (fmtC d) / 8
  (List.range (cparts d)).foldl (fun acc p =>
    let c := mxResult d a seed mm r n p
    (⟨cTuft d r n, mxCAddr d + (r % halfTile d) * mxCStride d + ((n % halfTile d) * cparts d + p) * w, w, c.1⟩ :: acc.1, acc.2 ||| c.2))
    ([], 0)

/-- The writes and flags of block `b` of 32 columns in row `r` of a block-format C (R55, R95). -/
def blockWrites (d : Nat) (a : Arith) (seed : Nat) (mm : MxMem) (r b : Nat) : List StoreWrite × Nat :=
  let vs := (List.range 32).map (fun i => mxValue d a mm r (32 * b + i) 0)
  let k := toBlock (fmtC d) (mxResArith d a) (fun i => mxDraw d seed r (32 * b + i)) (vs.map (·.1))
  let f := fmtC d
  let n0 := (32 * b) % halfTile d
  let t := cTuft d r (32 * b)
  let row := r % halfTile d
  let elems := k.codes.foldr (fun c acc => c + acc * 2 ^ fmtBits f) 0
  let side := mxCSide d + (row * ((cCols d (32 * b) + 31) / 32) + n0 / 32) * sideBytes f
  ([⟨t, mxCAddr d + row * mxCStride d + n0 * fmtBits f / 8, 4 * fmtBits f, elems⟩,
    ⟨t, side, sideBytes f, k.scale + (if f = .xf4 then 256 * k.nudges else 0)⟩], k.flags ||| vs.foldl (fun x v => x ||| v.2) 0)

/-- All writes of an operation to C, and its flags. -/
def mxWrites (d : Nat) (a : Arith) (seed : Nat) (mm : MxMem) : List StoreWrite × Nat :=
  (List.range (mxM d)).foldl (fun acc r =>
    (List.range (if isBlock (fmtC d) then mxN d / 32 else mxN d)).foldl (fun acc n =>
      let w := if isBlock (fmtC d) then blockWrites d a seed mm r n else plainWrites d a seed mm r n
      (w.1 ++ acc.1, acc.2 ||| w.2)) acc) ([], 0)

/-- Blocks that an operation hands to one engine. -/
def mxBlockCount (d : Nat) : Nat := if mxMode d = 2 then 1 else mBlocks d

/-- The rounded results of rows `r0` to `r0 + nr − 1`, columns `n0` to `n0 + nc − 1`, for the vector engine, and flags. -/
def mxRows (d : Nat) (a : Arith) (seed : Nat) (mm : MxMem) (r0 nr n0 nc : Nat) : List (List Nat) × Nat :=
  (List.range nr).foldr (fun i acc =>
    let row := (List.range nc).map (fun j => mxResult d a seed mm (r0 + i) (n0 + j) 0)
    (row.map (·.1) :: acc.1, acc.2 ||| row.foldl (fun x v => x ||| v.2) 0)) ([], 0)

end Sys2Proof.Machine
end

