-- ==== Sys2Proof/Machine/VectorCalc.lean ====
section
/-! DEFINITION. Sys2Proof/Machine/VectorCalc.lean: what a vector chain computes from its descriptor and its operands
(R161–R183): checks, stages, reductions, skip map, results. No state of the machine is named here. -/
namespace Sys2Proof.Machine

/-! ## The descriptor (Tables VE-1, VE-2) -/

def veSrRound (d : Nat) : Nat := bitsOf d 1023 992
def veSrStream (d : Nat) : Nat := bitsOf d 991 960
def veTrow (d : Nat) : Nat := bitsOf d 959 944
def veTcol (d : Nat) : Nat := bitsOf d 943 928
def veInStride (d : Nat) : Nat := bitsOf d 927 912
def veOutStride (d : Nat) : Nat := bitsOf d 911 896
def veAuxStride (d i : Nat) : Nat := if i = 0 then bitsOf d 895 880 else bitsOf d 879 864
def veInAddr (d : Nat) : Nat := bitsOf d 863 845
def veOutAddr (d : Nat) : Nat := bitsOf d 844 826
def veOutSide (d : Nat) : Nat := bitsOf d 825 807
def veAuxAddr (d i : Nat) : Nat := if i = 0 then bitsOf d 806 788 else bitsOf d 787 769
def veRedAddr (d : Nat) : Nat := bitsOf d 768 750
def veSkipAddr (d : Nat) : Nat := bitsOf d 749 731
def veM (d : Nat) : Nat := bitsOf d 730 715 + 1
def veN (d : Nat) : Nat := bitsOf d 714 699 + 1
def veFmtInCode (d : Nat) : Nat := bitsOf d 698 695
def veFmtOutCode (d : Nat) : Nat := bitsOf d 694 691
def veFmtAuxCode (d i : Nat) : Nat := if i = 0 then bitsOf d 690 687 else bitsOf d 686 683
def veAuxKind (d i : Nat) : Nat := if i = 0 then bitsOf d 682 681 else bitsOf d 680 679
def veArrive (d : Nat) : Nat := bitsOf d 678 673
def veStages (d : Nat) : Nat := bitsOf d 671 669 + 1
def veSrcMx (d : Nat) : Bool := bitsOf d 668 668 == 1
def veWork64 (d : Nat) : Bool := bitsOf d 667 667 == 1
def veNoWrite (d : Nat) : Bool := bitsOf d 666 666 == 1
def veSkipEn (d : Nat) : Bool := bitsOf d 665 665 == 1
def veSkipRows (d : Nat) : Nat := if bitsOf d 664 664 = 1 then 64 else 32
def veSkipColsCode (d : Nat) : Nat := bitsOf d 663 661
def veSkipCols (d : Nat) : Nat := 16 * 2 ^ veSkipColsCode d
def veReserved (d : Nat) : Nat := bitsOf d 672 672 + bitsOf d 660 512
def veFmtIn (d : Nat) : Fmt := (fmtOfCode (veFmtInCode d)).getD .fp32
def veFmtOut (d : Nat) : Fmt := (fmtOfCode (veFmtOutCode d)).getD .fp32
def veFmtAux (d i : Nat) : Fmt := (fmtOfCode (veFmtAuxCode d i)).getD .fp32

/-- Stage word `i`. -/
def stageWord (d i : Nat) : Nat := bitsOf d (64 * i + 63) (64 * i)
def stImm (w : Nat) : Nat := bitsOf w 63 32
def stC (w : Nat) : Nat := bitsOf w 25 23
def stB (w : Nat) : Nat := bitsOf w 22 20
def stA (w : Nat) : Nat := bitsOf w 19 17
def stOp (w : Nat) : Nat := bitsOf w 5 0
def stReserved (w : Nat) : Nat := bitsOf w 31 26 + bitsOf w 16 6

/-- The stage words of a chain. -/
def stageList (d : Nat) : List Nat := (List.range (veStages d)).map (stageWord d)

/-- Operands an operation uses: A, B, C; none for a reserved code (Table VE-4). -/
def opArity (op : Nat) : Option Nat :=
  if op = 0x04 ∨ op = 0x09 ∨ op = 0x0A then some 3
  else if op = 0x00 ∨ op = 0x07 ∨ op = 0x08 then some 1
  else if op ≤ 0x06 then some 2
  else if op = 0x13 then some 2
  else if 0x10 ≤ op ∧ op ≤ 0x19 then some 1
  else if 0x20 ≤ op ∧ op ≤ 0x24 then some 1
  else none

def isReduce (op : Nat) : Bool := 0x20 ≤ op && op ≤ 0x24
/-- Row reductions: RSUM, RMAX, RAMAX. -/
def rowReduce (op : Nat) : Bool := 0x20 ≤ op && op ≤ 0x22

/-- The reduction stage's index and operation, if the chain has one. -/
def reduceStage (d : Nat) : Option (Nat × Nat) :=
  ((List.range (veStages d)).find? (fun i => isReduce (stOp (stageWord d i)))).map (fun i => (i, stOp (stageWord d i)))

/-! ## Regions and checks (R164–R166, R171–R174, Table VE-8) -/

def workBytes (d : Nat) : Nat := if veWork64 d then 8 else 4

def auxRegions (d i : Nat) : List Region :=
  let b := fmtBits (veFmtAux d i) / 8
  match veAuxKind d i with
  | 1 => rowRegions (veAuxAddr d i) (veAuxStride d i) (veM d) (veN d * b)
  | 2 => [(veAuxAddr d i, veM d * b)]
  | 3 => [(veAuxAddr d i, veN d * b)]
  | _ => []

/-- The side plane of a block-format input lies at OUT_SIDE's counterpart for inputs: the descriptor names none, so the
input's side entries follow its element plane, aligned to 128 bytes (DESIGN CHOICE, log entry 13). -/
def veInSide (d : Nat) : Nat := (veInAddr d + veM d * veInStride d + 127) / 128 * 128

def veInRegions (d : Nat) : List Region :=
  if veSrcMx d then []
  else rowRegions (veInAddr d) (veInStride d) (veM d) (elemBytes (veFmtIn d) (veN d)) ++ sideRegion (veFmtIn d) (veInSide d) (veM d) (veN d)

def redRegions (d : Nat) : List Region :=
  match reduceStage d with
  | some (_, op) => [(veRedAddr d, (if rowReduce op then veM d else veN d) * workBytes d)]
  | none => []

def skipTiles (d : Nat) : Nat := (veN d + veSkipCols d - 1) / veSkipCols d
def skipMapBytes (d : Nat) : Nat := pad32 (((veM d + veSkipRows d - 1) / veSkipRows d * skipTiles d + 7) / 8)
def skipRegions (d : Nat) : List Region := if veSkipEn d then [(veSkipAddr d, skipMapBytes d)] else []

def veOutTile (d : Nat) : List Region :=
  if veNoWrite d then []
  else rowRegions (veOutAddr d) (veOutStride d) (veM d) (elemBytes (veFmtOut d) (veN d)) ++ sideRegion (veFmtOut d) (veOutSide d) (veM d) (veN d)

def veReads (d : Nat) : List Region := veInRegions d ++ auxRegions d 0 ++ auxRegions d 1
def veOuts (d : Nat) : List Region := veOutTile d ++ redRegions d ++ skipRegions d

/-- A source field of a stage word is not permitted: reserved, or an absent AUX. -/
def badSource (d src : Nat) : Bool := src == 7 || (src == 2 && veAuxKind d 0 == 0) || (src == 3 && veAuxKind d 1 == 0)

/-- A stage word breaks a rule of Table VE-8's first row. -/
def badStage (d w : Nat) : Bool :=
  match opArity (stOp w) with
  | none => true
  | some n => stReserved w != 0 || badSource d (stA w) || (n < 2 && stB w != 0) || (2 ≤ n && badSource d (stB w)) ||
      (n < 3 && stC w != 0) || (3 ≤ n && badSource d (stC w))

/-- Every check of a chain descriptor. FMT_IN and FMT_OUT are ignored where R176 and R173 say so; a reserved FMT_AUX is refused
whatever its KIND (R48), INT32 there only where it names an input (log entry 123). -/
def veChecks (d limit : Nat) : List (Bool × Nat) :=
  let inOk := veSrcMx d || veFmtInCode d ≤ 7
  let outOk := veNoWrite d || veFmtOutCode d ≤ 8
  let auxOk := fun i => decide (veFmtAuxCode d i ≤ (if veAuxKind d i = 0 then 8 else 7))
  let reds := (stageList d).filter (fun w => isReduce (stOp w))
  let colMax := if veWork64 d then 2048 else 4096
  let geo := inOk && outOk && auxOk 0 && auxOk 1
  [ (!inOk || !outOk || !auxOk 0 || !auxOk 1, 0x0405),
    ((stageList d).any (badStage d) || veReserved d != 0 || (!veNoWrite d && veFmtOutCode d == 8)
      || (List.range 2).any (fun i => veAuxKind d i != 0 && isBlock (veFmtAux d i))
      || (veNoWrite d && reds.isEmpty && !veSkipEn d) || 4 < veSkipColsCode d, 0x0450),
    (1 < reds.length || reds.any (fun w => stA w != 0), 0x0451),
    ((List.range 2).any (fun i => veAuxKind d i == 3 && colMax < veN d), 0x0452),
    (geo && (veReads d ++ veOuts d).any (fun r => limit < r.1 + r.2), 0x0455),
    ((!veSrcMx d && veInAddr d % 32 != 0) || [veInStride d, veOutAddr d, veOutStride d, veAuxAddr d 0, veAuxAddr d 1, veAuxStride d 0,
      veAuxStride d 1, veRedAddr d, veSkipAddr d].any (· % 32 != 0), 0x0455),
    (geo && (overlap (veOutTile d) (veReads d ++ redRegions d ++ skipRegions d)), 0x0455),
    (!veSrcMx d && isBlock (veFmtIn d) && veN d % 32 != 0, 0x0403),
    (!veNoWrite d && isBlock (veFmtOut d) && veN d % 32 != 0, 0x0403),
    (!veSrcMx d && isBlock (veFmtIn d) && (veInAddr d % 128 != 0 || veInStride d % 128 != 0), 0x0404),
    (!veNoWrite d && isBlock (veFmtOut d) && (veOutAddr d % 128 != 0 || veOutStride d % 128 != 0 || veOutSide d % 128 != 0), 0x0404) ]

/-! ## Stages (Table VE-4, R169, R170) -/

/-- The working format: FP32 with 8 extra mantissa bits in fast mode, FP32 in strict mode, FP64 (R170). -/
def workFmt (d : Nat) (a : Arith) : Fmt := if veWork64 d then .fp64 else if a.strict then .fp32 else .fp40

/-- How stage results round: by RMODE in strict mode or FP64 work, to nearest even in fast FP32 work (R170). -/
def workArith (d : Nat) (a : Arith) : Arith := if veWork64 d || a.strict then a else { a with rmode := .rne }

/-- A number rounded to the working format, as the number its code denotes. -/
def toWork (d : Nat) (a : Arith) (x : Num) : Num × Nat :=
  let r := roundNum (workFmt d a) (workArith d a) 0 x
  ((decodeNum (workFmt d a) true r.1).1, r.2)

/-- Less in the order of R169: −0 below +0; no NaN. -/
def numLess (x y : Num) : Bool :=
  match cmpNum x y with
  | some .lt => true
  | some .eq => numIsZero x && numIsZero y && numNeg x && !numNeg y
  | _ => false

def numMin (x y : Num) : Num := if numIsNan x || numIsNan y then .nan false else if numLess y x then y else x
def numMax (x y : Num) : Num := if numIsNan x || numIsNan y then .nan false else if numLess x y then y else x

/-- Result of an operation whose correctly rounded code is `r`: that in strict mode and where an operand is zero, infinite or a
NaN; within 1 ulp of `v`, which it gives of nonzero finite operands, otherwise (R167). -/
def boundedOp (op : Nat) (f : Fmt) (a : Arith) (x y : Num) (r : Nat × Nat)
    (v : Bool → Nat → Int → Bool → Nat → Int → Option Approx) : Num × Nat :=
  let exact := ((decodeNum f true r.1).1, r.2)
  if a.strict then exact
  else match x, y with
    | .fin n1 m1 e1, .fin n2 m2 e2 =>
      if m1 = 0 ∨ m2 = 0 then exact
      else match v n1 m1 e1 n2 m2 e2 with
        | some z => nearResult op 1 f a x y z
        | none => exact
    | _, _ => exact

/-- A stage result beyond the working format's range becomes an infinity, under any rounding mode (R170). -/
def stageRange (v : Num × Nat) : Num × Nat := if v.2 &&& fOF != 0 then (.inf (numNeg v.1), v.2) else v

/-- The result of one stage from its operands A, B, C and X before R170's range rule, and the flags it raises (Table VE-4, R169). -/
def stageRes (d : Nat) (ar : Arith) (op : Nat) (a b c x : Num) : Num × Nat :=
  let f := workFmt d ar
  let wa := workArith d ar
  let rnd := fun (v : Num × Nat) => let r := toWork d ar v.1; (r.1, r.2 ||| v.2)
  let quotient := fun n1 m1 e1 n2 m2 e2 => some (divOf f n1 m1 e1 n2 m2 e2)
  match op with
  | 0x00 => rnd (a, 0)
  | 0x01 => rnd (addNum wa.rmode a b)
  | 0x02 => rnd (addNum wa.rmode a (numNegate b))
  | 0x03 => rnd (mulNum a b)
  | 0x04 => let p := mulNum a b; let s := addNum wa.rmode p.1 c; rnd (s.1, s.2 ||| p.2)
  | 0x05 => rnd (numMin a b, 0)
  | 0x06 => rnd (numMax a b, 0)
  | 0x07 => rnd (numAbs a, 0)
  | 0x08 => rnd (numNegate a, 0)
  | 0x09 => rnd (numMin (numMax a b) c, 0)
  | 0x0A => rnd (match cmpNum a b with | some .gt => c | _ => x, 0)
  | 0x10 => boundedOp op f wa (.fin false 1 0) a (divRound f wa 0 (.fin false 1 0) a) quotient
  | 0x11 =>
    match a with
    | .nan _ => (.nan false, 0)
    | .inf n => if n then (.nan false, fIV) else (numZero, 0)
    | .fin n m _ => if m = 0 then (.inf n, fDZ) else if n then (.nan false, fIV) else methodOp op 1 f wa a
  | 0x12 => boundedOp op f wa a (.fin false 1 0) (sqrtRound f wa 0 a)
      (fun n m e _ _ _ => if n then none else some (sqrtOf f m e))
  | 0x13 => boundedOp op f wa a b (divRound f wa 0 a b) quotient
  | 0x16 =>
    match a with
    | .nan _ => (.nan false, 0)
    | .inf n => if n then (.nan false, fIV) else (.inf false, 0)
    | .fin n m _ => if m = 0 then (.inf true, fDZ) else if n then (.nan false, fIV) else methodOp op 2 f wa a
  | 0x14 => methodOp op 2 f wa a
  | 0x15 => methodOp op 2 f wa a
  | 0x17 => methodOp op 2 f wa a
  | 0x18 => methodOp op 2 f wa a
  | 0x19 => methodOp op 2 f wa a
  | _ => rnd (a, 0)

/-- The result of one stage and its flags (R167–R170). -/
def stageOp (d : Nat) (ar : Arith) (op : Nat) (a b c x : Num) : Num × Nat := stageRange (stageRes d ar op a b c x)

/-- Operands that come from outside the chain: the input and the AUX elements at (row, column), with entry flags. -/
structure VeIn where
  input : Nat → Nat → Num × Nat
  aux0 : Nat → Nat → Num × Nat
  aux1 : Nat → Nat → Num × Nat

/-- An operand of a stage (Table VE-3); IMM is an FP32 input (R51, R69). The flags of input and AUX elements are raised on entry. -/
def stageSrc (a : Arith) (v : VeIn) (r c imm : Nat) (x : Num) (src : Nat) : Num × Nat :=
  match src with
  | 0 => (x, 0)
  | 1 => ((v.input r c).1, 0)
  | 2 => ((v.aux0 r c).1, 0)
  | 3 => ((v.aux1 r c).1, 0)
  | 4 => let k := decodeNum .fp32 a.subn imm; (k.1, k.2 ||| snanFlag a.strict [k.1])
  | 5 => (.fin false r 0, 0)
  | _ => (.fin false c 0, 0)

/-- X after stages `ws` for element (r, c), and flags. -/
def runStages (d : Nat) (a : Arith) (v : VeIn) (r c : Nat) (ws : List Nat) (x0 : Num × Nat) : Num × Nat :=
  ws.foldl (fun acc w =>
    let s := stageSrc a v r c (stImm w) acc.1
    let n := (opArity (stOp w)).getD 0
    let o := stageOp d a (stOp w) (s (stA w)).1 (s (stB w)).1 (s (stC w)).1 acc.1
    let fl := (s (stA w)).2 ||| (if 2 ≤ n then (s (stB w)).2 else 0) ||| (if 3 ≤ n then (s (stC w)).2 else 0)
    (o.1, acc.2 ||| o.2 ||| fl)) x0

/-- Element (r, c) after all stages, with every entry flag. -/
def chainElem (d : Nat) (a : Arith) (v : VeIn) (r c : Nat) : Num × Nat :=
  let i := v.input r c
  let e := if veAuxKind d 0 = 0 then 0 else (v.aux0 r c).2
  let e1 := if veAuxKind d 1 = 0 then 0 else (v.aux1 r c).2
  runStages d a v r c (stageList d) (i.1, i.2 ||| e ||| e1)

/-- The value the reduction stage `k` takes at (r, c). -/
def tapElem (d : Nat) (a : Arith) (v : VeIn) (k r c : Nat) : Num :=
  (runStages d a v r c ((stageList d).take k) (v.input r c)).1

/-! ## Entry and end of the chain -/

/-- Entry conversion: exact widening, but FP64 data in FP32 work narrows by RNE (R170), and so does INT32 that the foot hands over
(log entry 124). -/
def enterWork (d : Nat) (a : Arith) (f : Fmt) (x : Num × Nat) : Num × Nat :=
  let sn := snanFlag a.strict [x.1]
  if (f = .fp64 ∨ f = .int32) ∧ !veWork64 d then
    let r := roundNum .fp32 { a with rmode := .rne } 0 x.1
    ((decodeNum .fp32 true r.1).1, r.2 ||| x.2 ||| sn)
  else (x.1, x.2 ||| sn)

/-- Input element (r, c) from the Tuft store. -/
def storeInput (d : Nat) (a : Arith) (rd : Nat → Byte) (r c : Nat) : Num × Nat :=
  enterWork d a (veFmtIn d) (elemAt rd (veFmtIn d) a (veInAddr d) (veInStride d) (veInSide d) (veN d) r c)

/-- AUX element for (r, c) from the Tuft store (R166). -/
def auxInput (d i : Nat) (a : Arith) (rd : Nat → Byte) (r c : Nat) : Num × Nat :=
  let f := veFmtAux d i
  match veAuxKind d i with
  | 1 => enterWork d a f (elemAt rd f a (veAuxAddr d i) (veAuxStride d i) 0 (veN d) r c)
  | 2 => enterWork d a f (elemAt rd f a (veAuxAddr d i) 0 0 (veM d) 0 r)
  | 3 => enterWork d a f (elemAt rd f a (veAuxAddr d i) 0 0 (veN d) 0 c)
  | _ => (numZero, 0)

def veDraw (d seed r c : Nat) : Nat := srDraw seed (veSrStream d) (veSrRound d) (veTrow d) (veTcol d) (r * veN d + c)

/-- XI8 output: saturates at ±127 with SA (R170), the limits of XI8 in Table NF-1; the thread groups' conversions take the same limits
(log entry 125). An inexact result raises IX in strict mode (log entry 167). -/
def toXi8 (strict : Bool) (mode : RMode) (x : Num) : Nat × Nat :=
  match x with
  | .nan _ => (0, fIV)
  | .inf n => (if n then 0x81 else 0x7F, fSA)
  | .fin n m e =>
    let v := roundInt mode n m e
    if v < -127 then (0x81, fSA) else if 127 < v then (0x7F, fSA) else (ofSigned 8 v, intInexact strict m e)

/-- The chain end: element (r, c) as a code of FMT_OUT. -/
def veRound (d : Nat) (a : Arith) (seed r c : Nat) (x : Num) : Nat × Nat :=
  if veFmtOut d = .xi8 then toXi8 a.strict a.rmode x else roundNum (veFmtOut d) a (veDraw d seed r c) x

/-- Writes, their zero codes for the skip map, and flags of the output tile's row `r`. With NO_WRITE = 1 no element is converted to
FMT_OUT, and the skip map goes by the elements in the working format (R173, R174; log entry 126). -/
def veRowWrites (d : Nat) (a : Arith) (seed : Nat) (v : VeIn) (r : Nat) : List StoreWrite × List Nat × Nat :=
  let xs := (List.range (veN d)).map (fun c => chainElem d a v r c)
  let fl := xs.foldl (fun acc x => acc ||| x.2) 0
  let f := veFmtOut d
  if veNoWrite d then ([], xs.map (fun x => bit !(numIsZero x.1)), fl)
  else if isBlock f then
    (List.range (veN d / 32)).foldl (fun acc b =>
      let k := toBlock f a (fun i => veDraw d seed r (32 * b + i)) (((xs.drop (32 * b)).take 32).map (·.1))
      let elems := k.codes.foldr (fun c acc => c + acc * 2 ^ fmtBits f) 0
      (⟨0, veOutAddr d + r * veOutStride d + 4 * fmtBits f * b, 4 * fmtBits f, elems⟩ ::
        ⟨0, veOutSide d + (r * (veN d / 32) + b) * sideBytes f, sideBytes f, k.scale + (if f = .xf4 then 256 * k.nudges else 0)⟩ :: acc.1,
        acc.2.1 ++ (if k.scale = 255 then k.codes.map (fun _ => 1) else k.codes), acc.2.2 ||| k.flags)) ([], [], fl)
  else
    let cs := (List.range (veN d)).zip xs |>.map (fun p => veRound d a seed r p.1 p.2.1)
    let w := fmtBits f / 8
    ((List.range (veN d)).zip cs |>.map (fun p => ⟨0, veOutAddr d + r * veOutStride d + p.1 * w, w, p.2.1⟩),
      cs.map (fun c => if c.1 % 2 ^ (fmtBits f - 1) = 0 ∧ !isInt f then 0 else c.1), cs.foldl (fun acc c => acc ||| c.2) fl)

/-- A reduction over the taps of one row or column: code in the working format as written, and flags (R172). -/
def reduceList (d : Nat) (a : Arith) (op : Nat) (xs : List Num) : Nat × Nat :=
  let f : Fmt := if veWork64 d then .fp64 else .fp32
  let ar : Arith := if a.rmode = .sr then { a with rmode := .rne } else a
  if op = 0x20 ∨ op = 0x23 then
    if a.strict then
      let r := xs.foldl (fun acc x =>
        let s := addNum ar.rmode acc.1 x
        let c := roundNum f ar 0 s.1
        ((decodeNum f true c.1).1, acc.2 ||| c.2 ||| s.2)) (numZero, 0)
      (codeOf f r.1, r.2)
    else if xs.isEmpty then (0, 0) else windowReduce f ar 0 (if veWork64 d then 160 else 80) xs
  else
    let ys := if op = 0x22 then xs.map numAbs else xs
    roundNum f ar 0 (ys.foldl numMax (.inf true))

/-- Writes and flags of the chain's reduction. -/
def reduceWrites (d : Nat) (a : Arith) (v : VeIn) : List StoreWrite × Nat :=
  match reduceStage d with
  | none => ([], 0)
  | some (k, op) =>
    (List.range (if rowReduce op then veM d else veN d)).foldl (fun acc i =>
      let xs := if rowReduce op then (List.range (veN d)).map (tapElem d a v k i) else (List.range (veM d)).map (fun r => tapElem d a v k r i)
      let r := reduceList d a op xs
      (⟨0, veRedAddr d + i * workBytes d, workBytes d, r.1⟩ :: acc.1, acc.2 ||| r.2)) ([], 0)

/-- The skip map as a number: bit (b, t) is set when the sub-block's written elements are all zero (R174). -/
def skipMap (d : Nat) (rows : List (List Nat)) : Nat :=
  (List.range ((veM d + veSkipRows d - 1) / veSkipRows d)).foldl (fun acc b =>
    (List.range (skipTiles d)).foldl (fun acc t =>
      let z := ((rows.drop (b * veSkipRows d)).take (veSkipRows d)).all (fun row =>
        ((row.drop (t * veSkipCols d)).take (veSkipCols d)).all (· == 0))
      acc + bit z * 2 ^ (b * skipTiles d + t)) acc) 0

/-- Everything a chain writes, and its flags. -/
def chainWrites (d : Nat) (a : Arith) (seed : Nat) (v : VeIn) : List StoreWrite × Nat :=
  let rows := (List.range (veM d)).map (veRowWrites d a seed v)
  let red := reduceWrites d a v
  let fl := rows.foldl (fun acc r => acc ||| r.2.2) red.2
  ((if veNoWrite d then [] else (rows.map (·.1)).flatten) ++ red.1 ++
    (if veSkipEn d then [⟨0, veSkipAddr d, skipMapBytes d, skipMap d (rows.map (·.2.1))⟩] else []), fl)

end Sys2Proof.Machine
end

