-- ==== Sys2Proof/Machine/Tufts.lean ====
section
/-! DEFINITION. Sys2Proof/Machine/Tufts.lean: what every unit of a Tuft uses: its store, arrival counters, arithmetic flags
and barriers, the paths of its groups, and what a vector chain reads and writes there. -/
namespace Sys2Proof.Machine

def tuft (s : State) (t : Nat) : TuftState := tgetD s.tufts t {}
def setTuft (t : Nat) (x : TuftState) (s : State) : State := { s with tufts := tput s.tufts t x }
def modTuft (t : Nat) (f : TuftState → TuftState) (s : State) : State := setTuft t (f (tuft s t)) s

def meadowOfTuft (t : Nat) : Nat := t / 128

/-! ## The Tuft store (R221, R227) -/

def storeRd (s : State) (t off : Nat) : Byte := readByte s (storeKey t off)
def storeNum (s : State) (t off n : Nat) : Nat := readNum s (storeKey t off) n
def storePoison (s : State) (t off n : Nat) : Bool := poisoned s (storeKey t off) n
def regionsPoison (s : State) (t : Nat) (rs : List Region) : Bool := rs.any (fun r => storePoison s t r.1 r.2)

/-- Write `n` bytes of a store, poisoned where `bad`. -/
def storeWrite (t off n v : Nat) (bad : Bool) (s : State) : State :=
  let u := writeNum (storeKey t off) n v s
  if bad then poisonRange (storeKey t off) n u else u

/-- The writes of an operation, whose group begins at Tuft `t0`, together replace sector `k` whole. -/
def writesSector (t0 : Nat) (ws : List StoreWrite) (k : Nat) : Bool :=
  (List.range 32).all (fun i => ws.any (fun w =>
    storeKey (t0 + w.tuft) w.off ≤ 32 * k + i && 32 * k + i < storeKey (t0 + w.tuft) w.off + w.len))

/-- Apply the writes of an operation whose group begins at Tuft `t0`: poisoned where `bad`, and ending the poison of the sectors
they replace whole otherwise (R510). -/
def applyWrites (t0 : Nat) (ws : List StoreWrite) (bad : Bool) (s : State) : State :=
  let u := ws.foldl (fun u w => storeWrite (t0 + w.tuft) w.off w.len w.val bad u) s
  if bad then u else { u with poison := u.poison.filter (fun k => !writesSector t0 ws k) }

/-! ## Arithmetic flags (R75) -/

/-- The flags of Table NF-11 with their bits. -/
def arithFlagBits : List (Nat × Flag) :=
  [(0, flArithFlagsIv), (1, flArithFlagsDz), (2, flArithFlagsOf), (3, flArithFlagsUf), (4, flArithFlagsIx), (5, flArithFlagsFz),
   (6, flArithFlagsSa), (7, flArithFlagsBn)]

/-- One operation on a Tuft raises the flags of a mask: each flag is set and its counter counts the operation. -/
def raiseArith (t mask : Nat) (s : State) : State :=
  arithFlagBits.foldl (fun u f => if mask.testBit f.1 then raise f.2 t u else u) s

/-! ## Paths (R214–R216) -/

/-- The lowest lane of a mask. -/
def lowLane (m : Nat) : Nat := ((List.range 32).find? (fun i => m.testBit i)).getD 32

/-- Paths in order of their lowest lane. -/
def insertPath (p : TPath) : List TPath → List TPath
  | [] => [p]
  | q :: t => if lowLane p.lanes < lowLane q.lanes then p :: q :: t else q :: insertPath p t

def sortPaths (ps : List TPath) : List TPath := ps.foldr insertPath []

def runnable (p : TPath) : Bool := p.park == .run

/-- The next runnable path after lane `cur` in order, wrapping. -/
def nextRunnable (ps : List TPath) (cur : Nat) : Option TPath :=
  match ps.find? (fun p => runnable p && cur < lowLane p.lanes) with
  | some p => some p
  | none => ps.find? runnable

/-- Merge the paths that `f` picks into one running path at `pc`. -/
def mergePaths (f : TPath → Bool) (pc : Nat) (g : Group) : Group :=
  let lanes := (g.paths.filter f).foldl (fun m p => m ||| p.lanes) 0
  { g with paths := sortPaths ({ lanes := lanes, pc := pc } :: g.paths.filter (fun p => !f p)), cur := lowLane lanes }

def minPc (ps : List TPath) : Nat := (ps.map (·.pc)).foldl (fun m x => min m x) (2 ^ 64)

/-- Choose the path that runs: the present one while it can; else the next runnable; with none runnable, the paths at the
JOIN of lowest program counter resume as one, or, with every path at a BAR.W, all resume as one (R213, R215). The Bool says
whether the group switched. A group with a faulted global access is stalled as a whole (R199). -/
def schedule (g : Group) : Group × Bool :=
  if g.paths.any (fun p => p.park == .fault) then (g, false)
  else if g.paths.any (fun p => runnable p && lowLane p.lanes == g.cur) then (g, false)
  else match nextRunnable g.paths g.cur with
    | some p => ({ g with cur := lowLane p.lanes }, true)
    | none =>
      let js := g.paths.filter (fun p => p.park == .join)
      if !js.isEmpty then (mergePaths (fun p => p.park == .join && p.pc == minPc js) (minPc js) g, true)
      else if !g.paths.isEmpty && g.paths.all (fun p => p.park == .barW) then (mergePaths (fun _ => true) (minPc g.paths) g, true)
      else (g, false)

/-- Schedule every group of a Tuft, counting path switches. -/
def scheduleTuft (t : Nat) (s : State) : State :=
  let x := tuft s t
  let rs := x.groups.map (fun e => (e.1, schedule e.2))
  let n := (rs.filter (fun r => r.2.2)).length
  bump tgCountsRotations t n (setTuft t { x with groups := rs.map (fun r => (r.1, r.2.1)) } s)

/-- Unpark the paths of a Tuft that `f` releases. -/
def wakePaths (t : Nat) (f : Park → Bool) (s : State) : State :=
  let x := tuft s t
  scheduleTuft t (setTuft t { x with groups := x.groups.map (fun e =>
    (e.1, { e.2 with paths := e.2.paths.map (fun p => if f p.park then { p with park := .run } else p) })) } s)

/-! ## Arrival counters (R207–R209) -/

def arvGet (s : State) (t c : Nat) : Nat := tgetD (tuft s t).arv c 0

/-- (count − target), as a signed 32-bit value, is zero or positive. -/
def arvReached (count target : Nat) : Bool := (count + 2 ^ 32 - target % 2 ^ 32) % 2 ^ 32 < 2 ^ 31

/-- Write a counter and release the paths that wait for it. -/
def arvPut (t c v : Nat) (s : State) : State :=
  wakePaths t (fun p => match p with | .arv k tgt => k == c && arvReached (v % 2 ^ 32) tgt | _ => false)
    (modTuft t (fun x => { x with arv := tput x.arv c (v % 2 ^ 32) }) s)

/-- An operation that names a counter completes: one more arrival. -/
def arrive (t c : Nat) (s : State) : State := arvPut t c (arvGet s t c + 1) s

/-! ## Chains on the store -/

/-- The element at (r, c) of rows received from the foot, in the operation's FMT_C. -/
def footInput (d : Nat) (a : Arith) (f : Fmt) (rows : List (List Nat)) (r c : Nat) : Num × Nat :=
  enterWork d a f (decodeNum f a.subn ((rows.getD r []).getD c 0))

/-- Where a chain's elements come from on a Tuft. -/
def chainInputs (s : State) (t : Nat) (d : Nat) (a : Arith) (srcFmt : Fmt) (rows : List (List Nat)) : VeIn :=
  { input := if veSrcMx d then footInput d a srcFmt rows else storeInput d a (storeRd s t)
    aux0 := auxInput d 0 a (storeRd s t)
    aux1 := auxInput d 1 a (storeRd s t) }

/-- Poison in any input, AUX or block handed over (R183). -/
def chainPoison (s : State) (t : Nat) (c : VeChain) : Bool := c.poison || regionsPoison s t (veReads c.desc.toNat)

/-- The output-tile writes of the first `k` chunks of a chain (R161, R182): a chunk is 64 columns of a row. -/
def chunkWrites (d : Nat) (a : Arith) (seed : Nat) (v : VeIn) (k : Nat) : List StoreWrite :=
  if veNoWrite d then []
  else
    let per := (veN d + 63) / 64
    let f := veFmtOut d
    ((List.range (veM d)).map (fun r =>
      let full := k - min k (r * per)
      if full = 0 then []
      else (veRowWrites d a seed v r).1.filter (fun w =>
        let base := veOutAddr d + r * veOutStride d
        let col := if isBlock f then (if w.len = 4 * fmtBits f then (w.off - base) / (4 * fmtBits f) * 32
            else (w.off - veOutSide d) / sideBytes f % (veN d / 32) * 32)
          else (w.off - base) / (fmtBits f / 8)
        col / 64 < full))).flatten

end Sys2Proof.Machine
end

