-- ==== Sys2Proof/Machine/Work.lean ====
section
/-! DEFINITION. Sys2Proof/Machine/Work.lean: graphs and their nodes, tasks, sequences, pools, and the end of a task
(R96, R156, R228–R238, R254, R402–R404). -/
namespace Sys2Proof.Machine

/-! ## Descriptors (Tables LM-2, LM-3, NF-10) -/

def tkEntry (d : Nat) : Nat := bitsOf d 1023 967
def tkArgs (d : Nat) : Nat := bitsOf d 959 903
def tkArith (d : Nat) : Nat := bitsOf d 895 864
def tkGroups (d : Nat) : Nat := bitsOf d 863 848 + 1
def tkRegs (d : Nat) : Nat := (bitsOf d 847 843 + 1) * 8
def tkTufts (d : Nat) : Nat := 2 ^ bitsOf d 842 841
def tkJoin (d : Nat) : Bool := bitsOf d 840 840 == 1
def tkBarriers (d : Nat) : Bool := bitsOf d 839 839 == 1
def tkLimit (d : Nat) : Nat := (bitsOf d 838 836 + 1) * 65536
def tkBindV (d : Nat) : Bool := bitsOf d 835 835 == 1
def tkBindRegion (d : Nat) : Nat := bitsOf d 834 831
def tkBindUnit (d : Nat) : Nat := bitsOf d 830 819
def tkSeqV (d : Nat) : Bool := bitsOf d 818 818 == 1
def tkSeq (d : Nat) : Nat := bitsOf d 817 809
def tkPlaceV (d : Nat) : Bool := bitsOf d 808 808 == 1
def tkPlaceSward (d : Nat) : Nat := bitsOf d 807 805 * 16 + bitsOf d 804 801
def tkPlaceStrict (d : Nat) : Bool := bitsOf d 800 800 == 1
def tkReserved (d : Nat) : Nat := bitsOf d 966 960 + bitsOf d 902 896 + bitsOf d 799 512
def tkReq (d r : Nat) : Nat := bitsOf d (64 * r + 63) (64 * r)
def rqName (q : Nat) : Nat := bitsOf q 63 32
def rqBlocks (q : Nat) : Nat := bitsOf q 31 21 + 1
def rqKind (q : Nat) : Nat := bitsOf q 20 19
def rqRelease (q : Nat) : Bool := bitsOf q 18 18 == 1

/-- Requests of a task that are not empty, with their number. -/
def tkReqs (d : Nat) : List (Nat × Nat) := (List.range 8).filterMap (fun r => if rqKind (tkReq d r) = 0 then none else some (r, tkReq d r))

/-- An arithmetic control word (Table NF-10). -/
def decodeArith (w : Nat) : Arith :=
  { rmode := (rmodeOf (bitsOf w 10 8)).getD .rne, subn := w.testBit 4, strict := w.testBit 3, trap := w.testBit 1 }

/-- The checks of R56 and R74 on a control word. -/
def arithChecks (w : Nat) : List (Option Nat) :=
  [failIf (rmodeOf (bitsOf w 10 8)).isNone 0x0401, failIf (bitsOf w 31 11 + bitsOf w 7 5 + bitsOf w 2 2 != 0) 0x0402]

/-- The word in force for a task: its own, or the job default. -/
def taskArith (s : State) (d : Nat) : Arith := decodeArith (if (tkArith d).testBit 0 then s.ob.job.arith else tkArith d)

/-! ## Tasks -/

def taskGet (s : State) (id : Nat) : Option TaskRec := s.work.tasks.find? (fun r => r.id == id)
def taskMod (id : Nat) (f : TaskRec → TaskRec) (s : State) : State :=
  { s with work.tasks := s.work.tasks.map (fun r => if r.id == id then f r else r) }

def TaskRec.d (r : TaskRec) : Nat := r.desc.toNat
def taskTufts (r : TaskRec) : List Nat := if r.phase = .waiting then [] else span r.tuft0 (tkTufts r.d)

/-- The lower nonzero reason. -/
def mergeCode (a b : Nat) : Nat := if a = 0 then b else if b = 0 then a else min a b

/-- An operation or event reports a reason to its task (R238). -/
def taskReport (id code : Nat) (s : State) : State := taskMod id (fun r => { r with code := mergeCode r.code code }) s

/-- An operation of a task raises flags on a Tuft (R75). -/
def taskFlags (id t mask : Nat) (s : State) : State :=
  raiseArith t mask (taskMod id (fun r => { r with flags := r.flags ||| mask }) s)

/-- The task that runs on a Tuft, with its record. -/
def taskOn (s : State) (t : Nat) : Option TaskRec := (tuft s t).task.bind (taskGet s)

/-- Join groups of a task: the lead of the aligned four a Tuft belongs to, when the task joined (R91, R235). -/
def joinedLead (s : State) (t : Nat) : Option Nat :=
  match taskOn s t with
  | some r => if tkJoin r.d then some (t / 4 * 4) else none
  | none => none

/-- The completion queue of a task's record (R403): its sequence's, or the graph's. -/
def seqGet (s : State) (n : Nat) : Option SeqEnt := tget s.work.seqs n

/-! ## Graphs (R402, R403) -/

def graphGet (s : State) (g : Nat) : Option GraphRec := s.work.graphs.find? (fun x => x.id == g)
def graphMod (g : Nat) (f : GraphRec → GraphRec) (s : State) : State :=
  { s with work.graphs := s.work.graphs.map (fun x => if x.id == g then f x else x) }
def nodeGet (s : State) (g n : Nat) : Option NodeRec := (graphGet s g).bind (fun x => x.nodes[n]?)
def nodeMod (g n : Nat) (f : NodeRec → NodeRec) (s : State) : State :=
  graphMod g (fun x => { x with nodes := x.nodes.mapIdx (fun i y => if i = n then f y else y) }) s

/-- Completion queue of a node's record. -/
def nodeCq (s : State) (x : GraphRec) (y : NodeRec) : Nat :=
  if y.kind = 0 ∧ tkSeqV y.desc then ((seqGet s (tkSeq y.desc)).map (·.cq)).getD x.cq else x.cq

/-- One reservation of a command on a queue is used up. -/
def useReservation (id q : Nat) (s : State) : State :=
  unreserve q 1 { s with ob.openCmds := s.ob.openCmds.map (fun o => if o.id == id then
    { o with resv := o.resv.map (fun r => if r.1 == q then (r.1, r.2 - 1) else r) } else o) }

/-- Write a node record where the node asks for one (Table CF-5). `r0` holds the task's or router's fields. -/
def nodeRecord (x : GraphRec) (n : Nat) (y : NodeRec) (status reason r0 flags : Nat) (s : State) : State :=
  if y.report then
    let q := nodeCq s x y
    let c : CompRec := {
      r1 := cpTime s, r0 := n + r0, token := y.token, reason := reason, opcode := 0xFF, sq := x.sq, epoch := x.epoch,
      flags := flags, kind := y.kind + 1, status := status }
    cqWrite q c (useReservation x.id q s)
  else s

/-- What RESULT0 of a node's record says whether or not the node ran: a task's sequence, a router node's Meadow (R395). -/
def nodeR0 (y : NodeRec) : Nat :=
  if y.kind = 0 then (if tkSeqV y.desc then packBits [(tkSeq y.desc, 22), (1, 31)] else 0)
  else if y.kind = 2 then y.meadow * 4096 else 0

/-- A node ends: its record, its state, and its successors, which become ready or are doomed (R403). -/
def nodeEnds (g n status reason r0 flags : Nat) (s : State) : State :=
  match graphGet s g with
  | none => s
  | some x =>
    match x.nodes[n]? with
    | none => s
    | some y =>
      let t := nodeMod g n (fun y => { y with st := .ended status reason }) (nodeRecord x n y status reason (r0 ||| nodeR0 y) flags s)
      y.succ.foldl (fun t k => nodeMod g k (fun z =>
        if status = 0 then
          { z with preds := z.preds - 1, st := if z.preds ≤ 1 ∧ z.st = .blocked then .ready else z.st }
        else { z with preds := z.preds - 1, st := if z.st = .blocked then .doomed else z.st }) t) t

/-- Doomed nodes end as cancelled with 0x010D, in ascending order, each dooming its own successors. -/
def sweepDoomed (g : Nat) (s : State) : State :=
  match graphGet s g with
  | none => s
  | some x => (List.range x.nodes.length).foldl (fun t n =>
      match nodeGet t g n with
      | some y => if y.st = .doomed then nodeEnds g n 3 0x010D 0 0 t else t
      | none => t) s

def nodeOver (y : NodeRec) : Bool := match y.st with | .ended _ _ => true | _ => false

/-- Failed on its own account: refused or failed (R403). -/
def nodeFailed (y : NodeRec) : Option Nat := match y.st with | .ended st r => if st = 1 ∨ st = 2 then some r else none | _ => none

/-- GRAPH_SUBMIT completes when every node has completed (R403): failed with the first failed node, else done. -/
def graphCheck (g : Nat) (s : State) : State :=
  match graphGet s g with
  | none => s
  | some x =>
    if x.nodes.all nodeOver then
      let fails := (List.range x.nodes.length).filterMap (fun n => (x.nodes[n]?.bind nodeFailed).map (fun r => (n, r)))
      let t := { s with work.graphs := s.work.graphs.filter (fun y => y.id != g) }
      match fails with
      | (n, r) :: _ => endById g (endFailed r fails.length n) t
      | [] => endById g (endDone 0 0) t
    else s

/-- A node ends, and what follows from it in its graph. -/
def nodeDone (g n status reason r0 flags : Nat) (s : State) : State :=
  graphCheck g (sweepDoomed g (nodeEnds g n status reason r0 flags s))

/-! ## The pool (R148, R228–R233) -/

/-- Bytes of a region's share. -/
def shareBytes (r : ExpertRegion) : Nat := bitsOf r.desc.toNat 275 262 * 1024

/-- Blocks that region shares touch in every Sward pool. -/
def shareBlock (s : State) (b : Nat) : Bool :=
  s.res.regions.any (fun e => e.2.armed && (let r := e.2; r.share < 4096 * b + 4096 && 4096 * b < r.share + shareBytes r))

/-- A block of a Sward pool is free: in no share and no allocation. -/
def blockFree (s : State) (sw b : Nat) : Bool :=
  !shareBlock s b && !s.work.pool.any (fun a => a.sward == sw && !a.lost && a.off ≤ b && b < a.off + a.blocks)

/-- Free blocks of a Sward, and those in runs: (largest run, present run, total). -/
def poolScan (s : State) (sw : Nat) : Nat × Nat :=
  let r := (List.range 2048).foldl (fun (acc : Nat × Nat × Nat) b =>
    if blockFree s sw b then (max acc.1 (acc.2.1 + 1), acc.2.1 + 1, acc.2.2 + 1) else (acc.1, 0, acc.2.2)) (0, 0, 0)
  (r.2.2, r.1)

/-- The lowest run of `n` free blocks (R230). -/
def poolFit (s : State) (sw n : Nat) : Option Nat :=
  (List.range (2049 - min n 2048)).find? (fun o => n ≤ 2048 && (List.range n).all (fun i => blockFree s sw (o + i)))

/-- The named buffer of a name. -/
def bufNamed (s : State) (name : Nat) : Option PoolAlloc := s.work.pool.find? (fun a => a.name == some name)

def namedCount (s : State) : Nat := (s.work.pool.filter (fun a => a.name.isSome)).length

/-- Blocks a request can ever be given: the pool less its shares. -/
def poolMax (s : State) : Nat := 2048 - ((List.range 2048).filter (shareBlock s)).length

/-- Serve one request: the state with the allocation, and its offset in blocks; none when it does not fit. -/
def poolServe (task sw q : Nat) (s : State) : Option (Nat × State) :=
  if rqKind q = 3 then
    match bufNamed s (rqName q) with
    | some a => some (a.off, { s with work.pool := s.work.pool.map (fun b => if b.name == a.name then { b with holders := task :: b.holders } else b) })
    | none => none
  else
    (poolFit s sw (rqBlocks q)).map (fun o =>
      (o, { s with work.pool := s.work.pool ++ [{ sward := sw, off := o, blocks := rqBlocks q, name := if rqKind q = 2 then some (rqName q) else none, holders := [task] }] }))

/-- Serve a task's requests together, in request order; none when any cannot be met (R230). -/
def poolServeAll (task sw : Nat) : List (Nat × Nat) → State → Option (List (Nat × Nat) × State)
  | [], s => some ([], s)
  | (r, q) :: t, s =>
    match poolServe task sw q s with
    | none => none
    | some (o, u) => (poolServeAll task sw t u).map (fun x => ((r, o) :: x.1, x.2))

/-- Blocks that nobody names and nobody holds are free (R231). -/
def poolPrune (s : State) : State := { s with work.pool := s.work.pool.filter (fun a => a.name.isSome || !a.holders.isEmpty) }

/-- Remove a name; the blocks go when no running task holds the buffer (R231, R233). -/
def poolRelease (name : Nat) (s : State) : State :=
  poolPrune { s with work.pool := s.work.pool.map (fun a => if a.name == some name then { a with name := none } else a) }

/-- A task lets go of its buffers and applies RELEASE (R231). -/
def poolLeave (r : TaskRec) (s : State) : State :=
  let t := { s with work.pool := s.work.pool.map (fun a => { a with holders := a.holders.filter (· != r.id) }) }
  poolPrune ((tkReqs r.d).foldl (fun t q => if rqKind q.2 != 1 && rqRelease q.2 then poolRelease (rqName q.2) t else t) t)

/-! ## The end of a task (R238, R254) -/

def repKey (sw region unit : Nat) : Nat := sw * 65536 + region * 4096 + unit

/-- The binding's reference is dropped (R150, R238). -/
def bindDrop (r : TaskRec) (s : State) : State :=
  if tkBindV r.d then
    let k := repKey (r.tuft0 / 8) (tkBindRegion r.d) (tkBindUnit r.d)
    match tget s.res.reps k with
    | some p => { s with res.reps := tput s.res.reps k { p with refs := p.refs - 1 } }
    | none => s
  else s

/-- The sequence after one of its tasks has ended: halted by a failure and then until it is closed, free when closing with no
task of it running, else ready (R157, R404). POSITION is a free value: no rule says what advances it (log entry 16). -/
def seqAfter (r : TaskRec) (failed : Bool) (s : State) : State :=
  if tkSeqV r.d then
    match seqGet s (tkSeq r.d) with
    | none => s
    | some e =>
      let others := s.work.tasks.any (fun x => x.id != r.id && tkSeqV x.d && tkSeq x.d == tkSeq r.d && x.phase != .waiting)
      if e.st = 6 then (if others then s else { s with work.seqs := tdel s.work.seqs (tkSeq r.d) })
      else
        let e' := { e with st := if failed || e.st == 5 then 5 else if others then e.st else 1, position := freshVal s % 2 ^ 24, stamp := s.work.clock }
        { drawn s with work.seqs := tput s.work.seqs (tkSeq r.d) e', work.clock := s.work.clock + 1 }
  else s

/-- Codes that refuse a task before it starts. -/
def refusalCodes : List Nat := [0x0182, 0x0183, 0x0466, 0x0570, 0x0571]

/-- TUFT_CEIL STATE of a Tuft that is not withdrawn. -/
def tuftActivity (t st : Nat) (s : State) : State := if getF s tuftCeilState t = 3 then s else setF tuftCeilState t st s

/-- The task's record is written and everything it held is given back. -/
def finishTask (r : TaskRec) (status code : Nat) (s : State) : State :=
  let tufts := taskTufts r
  let t := tufts.foldl (fun u x => tuftActivity x 1 (modTuft x (fun y => { y with task := none, groups := [], waiting := [], bars := [] }) u)) s
  let t := if r.phase = .waiting then t else bindDrop r (poolLeave r t)
  let t := { t with work.swardBars := t.work.swardBars.filter (fun e => e.2.task != r.id) }
  let t := { t with work.tasks := t.work.tasks.filter (fun x => x.id != r.id) }
  seqAfter r (status == 2) (nodeDone r.graph r.node status code (r.tuft0 % 1024 * 4096) r.flags t)

/-- A task that cannot start fails or is refused. -/
def failWaiting (r : TaskRec) (code : Nat) (s : State) : State :=
  finishTask r (if refusalCodes.contains code then 1 else 2) code s

/-- Matrix operations of a task that run on a Tuft. -/
def mxBusy (s : State) (id t : Nat) : Bool := (tuft s t).mx.running.any (fun o => o.task == id)

/-- Router invocations of a task that have started. -/
def invBusy (s : State) (id : Nat) : Bool :=
  s.stile.queue.any (fun e => e.2.any (fun i => i.started && (match i.owner with | .task x _ _ => x == id | .node _ _ => false)))

def ownedByTask (id : Nat) (c : CopyRec) : Bool := c.owner == .task id

/-- A task is aborting. -/
def aborting (s : State) (id : Nat) : Bool := match taskGet s id with | some r => (match r.phase with | .aborting _ => true | _ => false) | none => false

/-- An aborting task completes once nothing of it runs (R96, R254). -/
def finishAborted (id : Nat) (s : State) : State :=
  match taskGet s id with
  | none => s
  | some r =>
    match r.phase with
    | .aborting c =>
      if (taskTufts r).any (mxBusy s id) || invBusy s id || s.copies.recs.any (ownedByTask id) then s
      else finishTask r (if c = 0x010F then 3 else 2) c s
    | _ => s

/-- The running chain of an aborted task stops at a chunk boundary: an unknown number of its chunks is written (R182). -/
def stopChain (t : Nat) (s : State) : State :=
  let x := tuft s t
  match x.ve.running with
  | none => s
  | some c =>
    let d := c.desc.toNat
    let total := veM d * ((veN d + 63) / 64)
    let c := match x.ve.buf with
      | some (ord, fc, rows, bad) => if veSrcMx d && c.ord == ord then { c with rows := c.rows ++ rows, poison := c.poison || bad, srcCode := fc } else c
      | none => c
    let limit := if veSrcMx d then c.rows.length * ((veN d + 63) / 64) else total
    let k := freshVal s % (limit + 1)
    let a := match taskGet s c.task with | some r => taskArith s r.d | none => {}
    let ws := chunkWrites d a s.ob.job.seed (chainInputs s t d a ((fmtOfCode c.srcCode).getD .fp32) c.rows) k
    modTuft t (fun y => { y with ve := { y.ve with running := none, buf := none } }) (applyWrites t ws (chainPoison s t c) (drawn s))

/-- Entries of a copy have left the queue: the record goes with them. -/
def dropCopies (f : CopyRec → Bool) (s : State) : State :=
  let gone := (s.copies.recs.filter f).map (·.id)
  { s with copies.recs := s.copies.recs.filter (fun c => !f c), copies.ents := s.copies.ents.filter (fun e => !gone.contains e.copy) }

/-- The copies of a task stop (R254): one whose burst is a host read on its way keeps that burst, the others are discarded. -/
def stopCopies (id : Nat) (s : State) : State :=
  let held := fun (c : CopyRec) => s.link.reads.any (fun r => r.2.1 == c.id)
  let t := dropCopies (fun c => ownedByTask id c && !held c) s
  { t with
    copies.recs := t.copies.recs.map (fun c => if ownedByTask id c then { c with rest := [] } else c)
    copies.ents := (t.copies.ents.filter (fun e => e.moving || !(t.copies.recs.any (fun c => ownedByTask id c && c.id == e.copy)))).map (fun e =>
      if t.copies.recs.any (fun c => ownedByTask id c && c.id == e.copy) then { e with pieces := [] } else e) }

/-- Accesses whose waiter `f` picks wait no more; a fault that nothing waits on closes (R331). -/
def dropWaiters (f : Waiter → Bool) (s : State) : State :=
  let units := s.xl.units.map (fun e =>
    (e.1, { e.2 with
      slots := (e.2.slots.map (fun x => { x with accs := x.accs.filter (fun a => !f a.who) })).filter (fun x => !x.accs.isEmpty)
      noSlot := e.2.noSlot.filter (fun a => !f a.1.who) }))
  { s with xl.units := units, xl.moveWait := s.xl.moveWait.filter (fun a => !f a.who) }

/-- Waiters that belong to a task: paths of its Tufts, its copies. -/
def waiterOfTask (tufts copies : List Nat) : Waiter → Bool
  | .path t _ _ => tufts.contains t
  | .copy i => copies.contains i
  | _ => false

/-- Discard the queued invocations of a task. -/
def dropInvocations (id : Nat) (s : State) : State :=
  { s with stile.queue := s.stile.queue.map (fun e => (e.1, e.2.filter (fun i =>
      i.started || (match i.owner with | .task x _ _ => x != id | .node _ _ => true)))) }

/-- Every block of an operation has been handed to every engine it feeds. -/
def mxHanded (o : MxOp) : Bool := o.ords.all (fun e => mxBlockCount o.desc.toNat ≤ tgetD o.handed e.1 0)

/-- What an abort leaves of a Tuft's array: an operation that has its weights and has handed its blocks over ends of itself; one
that still loads, or whose blocks no chain will take, stops (R96, R182). Pairs of operations and chains count afresh. -/
def mxAborted (id : Nat) (m : MxTuft) : MxTuft :=
  { m with
    queue := [], active := [], shadow := [], loading := [], loadQ := [], outOrd := 0
    running := m.running.filter (fun o => o.task != id || (o.loads == 0 && mxHanded o)) }

/-- Abort a running task with a code (R96, R218, R254, R331): queued operations are discarded, thread groups stop, its
copies stop at a burst boundary, its Tufts' weight sets become invalid (R103); the task completes when nothing of it runs. -/
def abortTask (id code : Nat) (s : State) : State :=
  match taskGet s id with
  | none => s
  | some r =>
    if r.phase != .running then s
    else
      let tufts := taskTufts r
      let copies := (s.copies.recs.filter (ownedByTask id)).map (·.id)
      let t := dropInvocations id (dropWaiters (waiterOfTask tufts copies) (stopCopies id s))
      let t := tufts.foldl (fun u x => modTuft x (fun y => { y with
          groups := [], waiting := [], laneCopies := [],
          mx := mxAborted id y.mx, ve := { y.ve with queue := [], buf := none, ord := 0 } }) (stopChain x u)) t
      finishAborted id (taskMod id (fun r => { r with phase := .aborting code, groupsLeft := 0 }) t)

/-- Abort the task that runs on a Tuft. -/
def abortOn (t code : Nat) (s : State) : State := match (tuft s t).task with | some id => abortTask id code s | none => s

/-- Nothing of a running task is left but its record (R238). -/
def taskIdle (s : State) (r : TaskRec) : Bool :=
  r.groupsLeft == 0 &&
  !(taskTufts r).any (fun t => let x := tuft s t
    !x.mx.queue.isEmpty || !x.mx.running.isEmpty || !x.ve.queue.isEmpty || x.ve.running.isSome || !x.laneCopies.isEmpty) &&
  !s.copies.recs.any (ownedByTask r.id) &&
  !s.stile.queue.any (fun e => e.2.any (fun i => match i.owner with | .task x _ _ => x == r.id | .node _ _ => false))

/-- The reason of a task that was not aborted: the lowest reported, FLAG_TRAP among them (R74, R238). -/
def taskReason (s : State) (r : TaskRec) : Nat :=
  mergeCode r.code (if (taskArith s r.d).trap && r.flags &&& (fIV ||| fOF) != 0 then 0x0410 else 0)

/-- TASK_COMPLETE (R238). -/
def completeTask (id : Nat) (s : State) : State :=
  match taskGet s id with
  | none => s
  | some r =>
    match r.phase with
    | .running => if taskIdle s r then (let c := taskReason s r; finishTask r (if c = 0 then 0 else 2) c s) else s
    | .aborting _ => finishAborted id s
    | .waiting => s

end Sys2Proof.Machine
end

