-- ==== Sys2Proof/Machine/Lists.lean ====
section
/-! DEFINITION. Sys2Proof/Machine/Lists.lean: reads and writes of translated memory, the fields of a router descriptor and of its
output area, the exchange block (Tables SP-2, SP-3, LM-6). -/
namespace Sys2Proof.Machine

/-! ## Translated memory -/

/-- What a read of translated memory answers: numbers with the poisoned 32-byte pieces of each, a stall, a fault's code. -/
inductive VRes where
  | ok (vs : List Nat) (bad : List (List Nat)) (s : State)
  | stall (s : State)
  | fail (code : Nat) (s : State)
  deriving DecidableEq

/-- Something that was read is poisoned. -/
def anyBad (bad : List (List Nat)) : Bool := bad.any (fun l => !l.isEmpty)

/-- Directory, caches and slices after an access to translated runs. -/
def runsAccess (k : ReqKind) (unit : Nat) (runs : List (Nat × Nat × Nat)) (s : State) : State :=
  runs.foldl (fun t r => if isDevMem r.2.1 r.2.2 then rangeAccess k (portOfXunit unit) r.2.1 r.2.2 t else t) s

/-- Translated bytes read, or written, by an agent on the die of a translation unit, as non-caching requests of its port (R287). -/
def ioRead (unit : Nat) (runs : List (Nat × Nat × Nat)) (s : State) : Nat × Bool × State := readRuns runs (runsAccess .ncrd unit runs s)
def ioPut (unit : Nat) (runs : List (Nat × Nat × Nat)) (v : Nat) (poison : Bool) (s : State) : State :=
  writeRuns runs v poison (runsAccess .ncwr unit runs s)

/-- The host-link epoch in which a command was accepted, or a graph, or the graph of a task (R383). -/
def cmdEpoch (s : State) (id : Nat) : Option Nat := (s.ob.openCmds.find? (fun o => o.id == id)).map (·.epoch)
def graphEpoch (s : State) (g : Nat) : Nat := ((graphGet s g).map (·.epoch)).getD (getF s hlStatusLinkEpoch 0)
def taskEpoch (s : State) (id : Nat) : Nat :=
  ((taskGet s id).map (fun r => graphEpoch s r.graph)).getD (getF s hlStatusLinkEpoch 0)

/-- The epoch of the work that an access belongs to, if it belongs to a command's work. -/
def waiterEpoch (s : State) : Waiter → Option Nat
  | .copy id => (s.copies.recs.find? (fun c => c.id == id)).map (·.epoch)
  | .cmd id => cmdEpoch s id
  | .stile m => (tgetD s.stile.queue m []).head?.map (fun i => match i.owner with
    | .task id _ _ => taskEpoch s id
    | .node g _ => graphEpoch s g)
  | _ => none

/-- Read ranges (virtual address, bytes) through a translation unit, one number for each. -/
def vreads (a : XAcc) : List (Nat × Nat) → State → VRes
  | [], s => .ok [] [] s
  | (va, n) :: t, s =>
    match readOrCode (waiterEpoch s a.who) (translateRange { a with va := va, r := true, w := false } n s) with
    | (.stall, u) => .stall u
    | (.fail c, u) => .fail c u
    | (.runs rs, u) =>
      let bad := runsPoison rs u
      let (v, _, u) := ioRead a.unit rs u
      match vreads a t u with
      | .ok vs b u => .ok (v :: vs) (bad :: b) u
      | r => r

/-- The runs of a range to be written. -/
def vruns (a : XAcc) (va n : Nat) (s : State) : RangeRes × State :=
  runsOrCode (waiterEpoch s a.who) (translateRange { a with va := va, r := false, w := true } n s)

/-- Write a number over runs, its poisoned pieces given. -/
def vput (unit : Nat) (runs : List (Nat × Nat × Nat)) (v : Nat) (bad : List Nat) (s : State) : State :=
  writePieces runs v bad (runsAccess .ncwr unit runs s)

/-- The part of runs that covers bytes `off` to `off + n` of a range whose runs are given. -/
def subRuns : Nat → Nat → List (Nat × Nat × Nat) → List (Nat × Nat × Nat)
  | _, _, [] => []
  | off, n, (va, pa, len) :: t =>
    if n = 0 then []
    else if len ≤ off then subRuns (off - len) n t
    else
      let k := min n (len - off)
      (va + off, pa + off, k) :: subRuns 0 (n - k) t

/-! ## The descriptor (Table SP-2) -/

def rtLogits (d : Nat) : Nat := bitsOf d 511 455
def rtOut (d : Nat) : Nat := bitsOf d 447 391
def rtBias (d : Nat) : Nat := bitsOf d 383 327
def rtSeq (d : Nat) : Nat := bitsOf d 319 263
def rtCount (d : Nat) : Nat := bitsOf d 255 199
def rtCapacity (d : Nat) : Nat := bitsOf d 191 160
def rtTokens (d : Nat) : Nat := bitsOf d 159 144 + 1
def rtExperts (d : Nat) : Nat := bitsOf d 143 132 + 1
def rtLayer (d : Nat) : Nat := bitsOf d 127 112
def rtStride (d : Nat) : Nat := bitsOf d 111 96
def rtScale (d : Nat) : Nat := bitsOf d 95 64
def rtLast (d : Nat) : Nat := bitsOf d 26 24
def rtFallback (d : Nat) : Nat := bitsOf d 23 22
def rtPolicy (d : Nat) : Nat := bitsOf d 21 20
def rtGate (d : Nat) : Nat := bitsOf d 19 18
def rtRenorm (d : Nat) : Bool := bitsOf d 17 17 == 1
def rtXf16 (d : Nat) : Bool := bitsOf d 16 16 == 1
def rtK (d : Nat) : Nat := bitsOf d 15 12
def rtDynamic (d : Nat) : Bool := d.testBit 11
def rtReserved (d : Nat) : Nat :=
  bitsOf d 454 448 + bitsOf d 390 384 + bitsOf d 326 320 + bitsOf d 262 256 + bitsOf d 198 192 + bitsOf d 131 128 +
    bitsOf d 63 27 + bitsOf d 10 0
def rtLogitBytes (d : Nat) : Nat := if rtXf16 d then 2 else 4

/-! ## The output area (Table SP-3) -/

def pad128 (n : Nat) : Nat := (n + 127) / 128 * 128
def offsBytes (d : Nat) : Nat := pad128 (4 * (rtExperts d + 1))
def pairCount (d : Nat) : Nat := rtTokens d * rtK d
/-- Z. -/
def roundBytes (d : Nat) : Nat := offsBytes d + pad128 (8 * pairCount d)
def combineOff (d : Nat) : Nat := 128 + (rtLast d + 1) * roundBytes d
def outBytes (d : Nat) : Nat := combineOff d + pad128 (16 * pairCount d)

/-! ## The exchange block (Table LM-6) -/

def exList (b : Nat) : Nat := bitsOf b 63 0
def exMap (b : Nat) : Nat := bitsOf b 127 64
def exSegTab (b : Nat) : Nat := bitsOf b 191 128
def exRows (b : Nat) : Nat := bitsOf b 255 192
def exBuf (b : Nat) : Nat := bitsOf b 319 256
def exRowStride (b : Nat) : Nat := bitsOf b 351 320
def exBufStride (b : Nat) : Nat := bitsOf b 383 352
def exRowBytes (b : Nat) : Nat := bitsOf b 415 384
def exRound (b : Nat) : Nat := bitsOf b 423 416
def exFmtIn (b : Nat) : Nat := bitsOf b 431 424
def exFmtOut (b : Nat) : Nat := bitsOf b 439 432

def exFmtOk (c : Nat) : Bool := fmtOfCode c == some .fp32 || fmtOfCode c == some .xf16

/-- A block that is not permitted: 0x0174. -/
def exBad (combine : Bool) (b : Nat) : Bool :=
  bitsOf b 511 440 != 0 || exRowBytes b == 0 || exRowBytes b % 4 != 0 || (!combine && decide (7 < exRound b)) ||
    (combine && (!exFmtOk (exFmtIn b) || !exFmtOk (exFmtOut b)))

/-- The invocation of this package that wrote the lists at an address: (Meadow, number, descriptor) (log entry 17). -/
def exInvocation (s : State) (va : Nat) : Option (Nat × Nat × Nat) :=
  (s.stile.lists.find? (fun l => l.1 == va)).map (fun l => (l.2.1, l.2.2.1, l.2.2.2.toNat))

end Sys2Proof.Machine
end

