-- ==== Sys2Proof/Machine/Routes.lean ====
section
/-! DEFINITION. Sys2Proof/Machine/Routes.lean: positions in the heath and the fixed routes of bursts through the tensor
fabric (R415, R420, R427–R429, R431). -/
namespace Sys2Proof.Machine

def ownPlane (s : State) : Nat := getF s tfPosPlane 0
def ownY (s : State) : Nat := getF s tfPosY 0
def ownZ (s : State) : Nat := getF s tfPosZ 0
def sparePlane (s : State) : Nat := getF s tfPosSparePlane 0

/-- Segment index of a plane (R420). -/
def seg (spare p : Nat) : Nat := (p + 18 - spare - 1) % 9
/-- Plane of a segment index. -/
def planeOfSeg (spare k : Nat) : Nat := (k + spare + 1) % 9

/-- Where a module stands: plane, row, column. -/
abbrev HeathPos := Nat × Nat × Nat

def ownPos (s : State) : HeathPos := (ownPlane s, ownY s, ownZ s)

/-- The module that a direction leads to (Table TF-1; directions 0 to 7 are x+1, x−1, x+2, x−2, y+, y−, z+, z−). -/
def neighbourOf (at0 : HeathPos) (dir : Nat) : HeathPos :=
  let (p, y, z) := at0
  match dir with
  | 0 => ((p + 1) % 9, y, z)
  | 1 => ((p + 8) % 9, y, z)
  | 2 => ((p + 2) % 9, y, z)
  | 3 => ((p + 7) % 9, y, z)
  | 4 => (p, (y + 1) % 4, z)
  | 5 => (p, (y + 3) % 4, z)
  | 6 => (p, y, (z + 1) % 4)
  | _ => (p, y, (z + 3) % 4)

/-- The neighbour a port faces. -/
def neighbour (s : State) (port : Nat) : HeathPos := neighbourOf (ownPos s) (port % 8)

/-- A port can carry traffic. -/
def portUp (s : State) (p : Nat) : Bool := getF s tfPortStatusWidth p != 0 && !flagSet s tfPortStatusDisabled p

/-- A port that carries data: up and not fenced (R425). -/
def portOpen (s : State) (p : Nat) : Bool := portUp s p && !flagSet s tfPortStatusFenced p

/-- A direction with at least one of its two partner ports open. Log entry 157. -/
def dirOpen (s : State) (dir : Nat) : Bool := portOpen s dir || portOpen s (dir + 8)

/-- The x directions in R427's order of preference: x+1, x+2, x−1, x−2. -/
def xPreference : List Nat := [0, 2, 1, 3]

/-- Every x route of `n` hops from plane `p` to plane `q` that never enters the spare plane, in the order of R427's steps 2
and 3. -/
def xWalks (spare q : Nat) : Nat → Nat → List (List Nat)
  | 0, p => if p = q then [[]] else []
  | n + 1, p => xPreference.flatMap (fun d =>
      let next := (neighbourOf (p, 0, 0) d).1
      if next = spare then [] else (xWalks spare q n next).map (d :: ·))

/-- The x route read from plane `p`: the fewest hops, then the order of preference (R427). -/
def xRead (spare p q : Nat) : List Nat := ((List.range 9).findSome? (fun n => (xWalks spare q n p).head?)).getD []

/-- The x route of a pair of planes, read from the one of lower segment index; the other direction takes the same planes in
reverse (R427). -/
def xRoute (spare p q : Nat) : List Nat :=
  if seg spare p ≤ seg spare q then xRead spare p q else (xRead spare q p).reverse.map (fun d => d ^^^ 1)

/-- A route of one ring of four: the shorter way round, a distance of 2 in the + direction (R427). -/
def ringRoute (plus a b : Nat) : List Nat :=
  match (b + 4 - a) % 4 with
  | 0 => []
  | 1 => [plus]
  | 2 => [plus, plus]
  | _ => [plus + 1]

/-- The fixed route of a burst: x first, then y, then z (R427). -/
def fixedRoute (spare : Nat) (a b : HeathPos) : List Nat :=
  xRoute spare a.1 b.1 ++ ringRoute 4 a.2.1 b.2.1 ++ ringRoute 6 a.2.2 b.2.2

/-- The modules that a route passes, its start not among them. -/
def routeStops : HeathPos → List Nat → List HeathPos
  | _, [] => []
  | p, d :: t => neighbourOf p d :: routeStops (neighbourOf p d) t

/-- A detour (R431; DESIGN CHOICE, log 138): out by the open direction from whose neighbour the fixed route that does not come
back here is shortest, the first in the order of the x preference, y+, y−, z+, z− on a tie. Log entry 138. -/
def detour (s : State) (dest : HeathPos) : Option (List Nat) :=
  let start := ownPos s
  let ways := ((xPreference ++ [4, 5, 6, 7]).filter (fun d => dirOpen s d && (neighbourOf start d).1 != sparePlane s)).map (fun d =>
    d :: fixedRoute (sparePlane s) (neighbourOf start d) dest)
  let ways := ways.filter (fun r => !(routeStops start r).contains start)
  ways.foldl (fun best r => match best with | some b => if r.length < b.length then some r else best | none => some r) none

/-- Where a rank of the partition stands (R421). -/
def rankPos (s : State) (rank : Nat) : Option HeathPos :=
  s.fab.part.bind (fun p => (p.planeOf[rank / 16]?).map (fun plane => (plane, rank / 4 % 4, rank % 4)))

/-- The directions of the route from this module to a rank: the fixed route, or a detour where no port of its first direction
is open; none where the rank is unreachable (R427, R429, R431). -/
def routeTo (s : State) (rank : Nat) : Option (List Nat) :=
  (rankPos s rank).bind (fun dest =>
    match fixedRoute (sparePlane s) (ownPos s) dest with
    | [] => some []
    | d :: t => if dirOpen s d then some (d :: t) else detour s dest)

/-- The port of a direction for a pair of ranks: (source XOR destination) mod 2 picks one of the partners (R427). -/
def hashPort (source dest dir : Nat) : Nat := dir + 8 * ((source ^^^ dest) % 2)

/-- The port this module sends by: the hash's, or its partner where that one is down. -/
def exitPort (s : State) (rank dir : Nat) : Nat :=
  let p := hashPort (getF s tfPosRank 0) rank dir
  if portOpen s p then p else (p + 8) % 16

/-- A hop passes its ring's dateline, which the model lays between segment 7 and segment 0, and between row or column 3
and 0 (DESIGN CHOICE, log 138: the spec does not place it). -/
def crosses (spare : Nat) (a : HeathPos) (dir : Nat) : Bool :=
  let b := neighbourOf a dir
  match dir with
  | 4 | 5 => a.2.1 + b.2.1 == 3 && a.2.1 % 3 == 0
  | 6 | 7 => a.2.2 + b.2.2 == 3 && a.2.2 % 3 == 0
  | _ => seg spare a.1 + seg spare b.1 == 7 && seg spare a.1 % 7 == 0

/-- The hops of a route, each with its port by the hash and its dateline class: 1 once the route has passed the dateline of
the ring it moves in (R427). -/
def routeHops (spare source dest : Nat) : HeathPos → List Nat → Nat → Nat → List FabHop
  | _, [], _, _ => []
  | a, d :: t, axis, cls =>
    let own := if d < 4 then 0 else d / 2
    let before := if own = axis then cls else 0
    let now := if crosses spare a d then 1 else before
    { port := hashPort source dest d, cls := now } :: routeHops spare source dest (neighbourOf a d) t own now

/-- The hops of a burst to a rank; its first port is the one in use here. -/
def burstHops (s : State) (rank : Nat) : Option (List FabHop) :=
  (routeTo s rank).map (fun r =>
    match routeHops (sparePlane s) (getF s tfPosRank 0) rank (ownPos s) r 0 0 with
    | [] => []
    | h :: t => { h with port := exitPort s rank (h.port % 8) } :: t)

/-- A message with the route it takes now; none for a burst that no route carries. -/
def sendNow (s : State) (m : FabMsg) : Option FabMsg :=
  match m with
  | .burst rank seq va len val bad _ => (burstHops s rank).map (fun h => .burst rank seq va len val bad h)
  | m => some m

/-- The virtual channel of a message (R414): bursts and what asks for them, acknowledgements, collective data, the rest. -/
def msgChannel : FabMsg → Nat
  | .burst _ _ _ _ _ _ _ => 0
  | .count _ _ _ _ _ _ => 0
  | .segment _ _ _ _ _ => 0
  | .readRow _ _ _ => 0
  | .ack _ _ => 1
  | .refuse _ _ => 1
  | .fields _ _ => 2
  | .collData _ _ _ => 2
  | .barrier _ => 3
  | .hello _ _ _ _ _ _ _ => 3

/-- The port by which a burst left. -/
def burstPort : FabMsg → Option Nat
  | .burst _ _ _ _ _ _ (h :: _) => some h.port
  | _ => none

/-- The destination and number of a burst. -/
def burstName : FabMsg → Option (Nat × Nat)
  | .burst rank seq _ _ _ _ _ => some (rank, seq)
  | _ => none

/-- A credit of VC0 is free on the port a burst leaves by (R144, R414). A credit comes back with the burst's acknowledgement (DESIGN
CHOICE, log entry 184). -/
def linkFree (s : State) (m : FabMsg) : Bool :=
  match burstPort m with
  | some p => decide ((s.fab.unacked.filter (fun x => burstPort x == some p)).length < Config.linkCredits p + 1)
  | none => true

/-- A burst leaves on the route that holds now; without a credit of its link it waits, and where no route carries it, for one. -/
def emitBurst (m : FabMsg) (s : State) : State :=
  match sendNow s m with
  | none => { s with fab.unacked := s.fab.unacked ++ [m] }
  | some x =>
    if linkFree s x then { s with fabOut := x :: s.fabOut, fab.unacked := s.fab.unacked ++ [x] }
    else { s with fab.held := s.fab.held ++ [m] }

/-- Send a burst into the tensor fabric: numbered for its destination, on its route, kept until acknowledged (R427, R428). -/
def sendBurst (rank va n v : Nat) (bad : List Nat) (s : State) : State :=
  let q := tgetD s.fab.nextSeq rank 0
  emitBurst (.burst rank q va n v bad []) { s with fab.nextSeq := tput s.fab.nextSeq rank (q + 1) }

/-- Bursts that wait for a credit leave, oldest first, where one is free. -/
def releaseBursts (s : State) : State := s.fab.held.foldl (fun t m => emitBurst m t) { s with fab.held := [] }

/-- Bursts that `f` names are no longer sent. -/
def forgetBursts (f : Nat × Nat → Bool) (s : State) : State :=
  let keep := fun (m : FabMsg) => !(burstName m).any f
  releaseBursts { s with fab.unacked := s.fab.unacked.filter keep, fab.held := s.fab.held.filter keep }

/-- Bursts not acknowledged are sent again after a route change, on the routes that hold now (R428). -/
def resendBursts (s : State) : State :=
  (s.fab.unacked ++ s.fab.held).foldl (fun t m => emitBurst m t) { s with fab.unacked := [], fab.held := [] }

/-- A remote transfer that names this rank may run (R426). -/
def rankOk (s : State) (rank : Nat) : Bool :=
  match s.fab.part with | some p => flagSet s tfPosPartUp 0 && decide (rank < p.planes * 16) | none => false

/-- Reason code of a transfer to a rank: 0x0301 outside the partition or with none up, 0x0302 where no route reaches it
(R426, R429). -/
def rankCode (s : State) (rank : Nat) : Nat :=
  if !rankOk s rank then 0x0301 else if (routeTo s rank).isNone then 0x0302 else 0

end Sys2Proof.Machine
end

