-- ==== Sys2Proof/Machine/Copies.lean ====
section
/-! DEFINITION. Sys2Proof/Machine/Copies.lean: copy descriptors, submission, the queue of a copy engine and its bursts
(R147, R239–R255). -/
namespace Sys2Proof.Machine

/-! ## The descriptor (Table LM-4) -/

def cpSrc (d : Nat) : Nat := bitsOf d 511 455
def cpDst (d : Nat) : Nat := bitsOf d 447 391
def cpSrcS2 (d : Nat) : Nat := bitsOf d 383 352
def cpDstS2 (d : Nat) : Nat := bitsOf d 351 320
def cpSrcS1 (d : Nat) : Nat := bitsOf d 319 288
def cpDstS1 (d : Nat) : Nat := bitsOf d 287 256
def cpGateValue (d : Nat) : Nat := bitsOf d 255 224
def cpLen (d : Nat) : Nat := bitsOf d 223 200
def cpRows (d : Nat) : Nat := bitsOf d 199 184 + 1
def cpPlanes (d : Nat) : Nat := bitsOf d 183 172 + 1
def cpRank (d : Nat) : Nat := bitsOf d 171 160
def cpMask (d : Nat) : Nat := bitsOf d 159 152
def cpSrcTuft (d : Nat) : Nat := bitsOf d 151 149
def cpSrcSpace (d : Nat) : Nat := bitsOf d 148 146
def cpDstSpace (d : Nat) : Nat := bitsOf d 145 143
def cpOp (d : Nat) : Nat := bitsOf d 142 139
def cpArrive (d : Nat) : Nat := bitsOf d 138 133
def cpArriveV (d : Nat) : Bool := bitsOf d 132 132 == 1
def cpGateCtr (d : Nat) : Nat := bitsOf d 131 126
def cpGateV (d : Nat) : Bool := bitsOf d 125 125 == 1
def cpFence (d : Nat) : Bool := bitsOf d 124 124 == 1
def cpFill (d : Nat) : Nat := bitsOf d 63 0
def cpReserved (d : Nat) : Nat := bitsOf d 454 448 + bitsOf d 390 384 + bitsOf d 123 64

/-- The source of a descriptor counts: a FILL has none (R239). -/
def cpHasSrc (d : Nat) : Bool := cpOp d == 0
def isExchange (d : Nat) : Bool := cpOp d == 2 || cpOp d == 3

/-- Rows of one side: (address, bytes), planes outermost. -/
def sideRows (addr s1 s2 : Nat) (d : Nat) : List Region :=
  (List.range (cpPlanes d)).flatMap (fun j => (List.range (cpRows d)).map (fun i => (addr + j * s2 + i * s1, cpLen d)))
def srcRows (d : Nat) : List Region := sideRows (cpSrc d) (cpSrcS1 d) (cpSrcS2 d) d
def dstRows (d : Nat) : List Region := sideRows (cpDst d) (cpDstS1 d) (cpDstS2 d) d

/-! ## Checks (Tables LM-5, LM-11) -/

/-- What a descriptor is checked against: the submitter's task, its Tufts' places in the Sward, Sward. -/
structure CopyCtx where
  task : Option TaskRec
  sward : Nat

/-- Tuft mask of the submitting task within its Sward. -/
def ctxMask (c : CopyCtx) : Nat :=
  match c.task with | some r => (taskTufts r).foldl (fun m t => m + 2 ^ (t % 8)) 0 | none => 0
def ctxLimit (c : CopyCtx) : Nat := match c.task with | some r => tkLimit r.d | none => 0

/-- Byte ranges of the task's buffers in its Sward's pool. -/
def ctxBuffers (s : State) (c : CopyCtx) : List Region :=
  match c.task with
  | some r => (s.work.pool.filter (fun a => a.sward == c.sward && a.holders.contains r.id)).map (fun a => (a.off * 4096, a.blocks * 4096))
  | none => []

/-- The replica the task is bound to. -/
def ctxReplica (s : State) (c : CopyCtx) : List Region :=
  match c.task with
  | some r =>
    if tkBindV r.d then
      match tget s.res.reps (repKey c.sward (tkBindRegion r.d) (tkBindUnit r.d)), tget s.res.regions (tkBindRegion r.d) with
      | some p, some g => [(p.off, rgUnitBytes g.desc.toNat)]
      | _, _ => []
    else []
  | none => []

def inside (r : Region) (rs : List Region) : Bool := rs.any (fun x => x.1 ≤ r.1 && r.1 + r.2 ≤ x.1 + x.2)

/-- A range of the pool touches a region's share. -/
def touchesShare (s : State) (r : Region) : Bool :=
  s.res.regions.any (fun e => e.2.armed && rangesMeet r.1 r.2 e.2.share (shareBytes e.2))

def localSpace (sp : Nat) : Bool := sp == 0 || sp == 1

/-- Checks of one side: space, address alignment, limits. `write` for the destination. -/
def sideChecks (s : State) (c : CopyCtx) (d sp : Nat) (rows : List Region) (addr s1 s2 : Nat) (write : Bool) : List (Option Nat) :=
  [failIf (localSpace sp && (addr % 32 != 0 || cpLen d % 32 != 0 || s1 % 32 != 0 || s2 % 32 != 0)) 0x0171,
   failIf (sp == 0 && rows.any (fun r => ctxLimit c < r.1 + r.2)) 0x0172,
   failIf (sp == 1 && rows.any (fun r => !inside r (ctxBuffers s c) && !touchesShare s r)) 0x0172,
   failIf (sp == 1 && rows.any (fun r => touchesShare s r && (write || !inside r (ctxReplica s c)))) 0x0564,
   failIf (sp == 2 && rows.any (fun r => regionGuard s r.1 r.2 write == 0x0563)) 0x0563,
   failIf (sp == 2 && rows.any (fun r => regionGuard s r.1 r.2 write == 0x0564)) 0x0564]

/-- Every check of a descriptor (R239–R241, R249, R570). -/
def copyChecks (s : State) (c : CopyCtx) (d : Nat) : List (Option Nat) :=
  let src := cpOp d != 1
  let plain := cpOp d ≤ 1
  [failIf (3 < cpOp d || 3 < cpDstSpace d || (cpOp d != 1 && 3 < cpSrcSpace d)) 0x0170,
   failIf (cpReserved d != 0) 0x0170,
   failIf (cpOp d != 1 && cpFill d != 0) 0x0170,
   failIf (src && cpSrcSpace d == 3 && cpDstSpace d == 3) 0x0170,
   failIf (plain && cpLen d == 0) 0x0170,
   failIf (cpDstSpace d == 0 && (cpMask d == 0 || cpMask d &&& (255 - ctxMask c) != 0)) 0x0172,
   failIf (src && cpSrcSpace d == 0 && !(ctxMask c).testBit (cpSrcTuft d)) 0x0172,
   failIf (src && cpSrcSpace d == 0 && cpDstSpace d == 0 && (cpMask d).testBit (cpSrcTuft d) && overlap (srcRows d) (dstRows d)) 0x0173,
   failIf (src && cpSrcSpace d == 1 && cpDstSpace d == 1 && overlap (srcRows d) (dstRows d)) 0x0173,
   failIf (isExchange d && (cpDst d + cpSrcS1 d + cpSrcS2 d + cpDstS1 d + cpDstS2 d + cpLen d + bitsOf d 199 172 + cpRank d != 0
      || cpSrcSpace d != 2 || cpDstSpace d != 2)) 0x0174]
  ++ sideChecks s c d (cpDstSpace d) (dstRows d) (cpDst d) (cpDstS1 d) (cpDstS2 d) true
  ++ (if src then sideChecks s c d (cpSrcSpace d) (srcRows d) (cpSrc d) (cpSrcS1 d) (cpSrcS2 d) false else [])

/-! ## Translation and pieces (R242) -/

/-- One row of a side as runs (virtual, physical or offset, bytes). -/
def rowRuns (a : XAcc) (sp : Nat) (r : Region) (s : State) : RangeRes × State :=
  if sp = 2 then translateRange { a with va := r.1 } r.2 s else (.runs [(r.1, r.1, r.2)], s)

/-- Pair the runs of a source row with those of its destination row; `n` bounds the pieces. -/
def pairRuns : Nat → List (Nat × Nat × Nat) → List (Nat × Nat × Nat) → List Piece
  | 0, _, _ => []
  | n + 1, (va, pa, l) :: xs, (vb, pb, m) :: ys =>
    let k := min l m
    { src := pa, srcVa := va, dst := pb, dstVa := vb, len := k } ::
      pairRuns n (if l = k then xs else (va + k, pa + k, l - k) :: xs) (if m = k then ys else (vb + k, pb + k, m - k) :: ys)
  | _, _, _ => []

/-- Pieces of a list of (source row, destination row) pairs. -/
def rowPieces (a : XAcc) (srcSp dstSp : Nat) : List (Region × Region) → State → (Except (Option Nat) (List Piece)) × State
  | [], s => (.ok [], s)
  | (x, y) :: t, s =>
    match rowRuns { a with r := true, w := false } srcSp x s with
    | (.stall, u) => (.error none, u)
    | (.fail c, u) => (.error (some c), u)
    | (.runs xs, u) =>
      match rowRuns { a with r := false, w := true } dstSp y u with
      | (.stall, u) => (.error none, u)
      | (.fail c, u) => (.error (some c), u)
      | (.runs ys, u) =>
        match rowPieces a srcSp dstSp t u with
        | (.ok ps, u) => (.ok (pairRuns (xs.length + ys.length) xs ys ++ ps), u)
        | e => e

/-- The source space that counts for pairing: a FILL has none. -/
def pairSpace (d : Nat) : Nat := if cpHasSrc d then cpSrcSpace d else 3

/-- The pieces of a COPY or FILL. -/
def copyPieces (a : XAcc) (d : Nat) (s : State) : (Except (Option Nat) (List Piece)) × State :=
  -- the stream of R325 is trained by the first global address
  let reads := cpHasSrc d && cpSrcSpace d == 2
  let a' := { a with r := reads, w := !reads }
  let va := if reads then cpSrc d else cpDst d
  rowPieces a (pairSpace d) (cpDstSpace d) ((if cpHasSrc d then srcRows d else dstRows d).zip (dstRows d))
    (if reads || cpDstSpace d == 2 then pfSubmission a' va s else s)

/-- Translate ranges, (virtual address, bytes, written), one after another. -/
def rangesRuns (a : XAcc) : List (Nat × Nat × Bool) → State → (Except (Option Nat) (List (Nat × Nat × Nat × Bool))) × State
  | [], s => (.ok [], s)
  | (va, n, w) :: t, s =>
    match translateRange { a with va := va, r := !w, w := w } n s with
    | (.stall, u) => (.error none, u)
    | (.fail c, u) => (.error (some c), u)
    | (.runs rs, u) =>
      match rangesRuns a t u with
      | (.ok l, u) => (.ok (rs.map (fun r => (r.1, r.2.1, r.2.2, w)) ++ l), u)
      | e => e

/-- Global ranges of this module that an exchange of block `b` and invocation `d` touches, so far as they are known when it is
submitted: `tokens` are those of its round. Rows in expert buffers are translated when their segment starts are known (DEDUCED, log
entry 183). -/
def exRanges (combine : Bool) (b d : Nat) (tokens : List Nat) : List (Nat × Nat × Bool) :=
  let e := rtExperts d
  let row := exRowBytes b
  let out := if combine then row / (fmtBits ((fmtOfCode (exFmtIn b)).getD .fp32) / 8) * (fmtBits ((fmtOfCode (exFmtOut b)).getD .fp32) / 8) else row
  let lists := if combine then [(exList b + combineOff d, 16 * pairCount d, false), (exSegTab b, 4 * e * (rtLast d + 1), false)]
    else [(exList b + 128 + exRound b * roundBytes d, roundBytes d, false), (exSegTab b + exRound b * e * 4, 4 * e, true)]
  (exMap b, 4 * e, false) :: lists ++ tokens.map (fun t => (exRows b + t * exRowStride b, out, combine))

/-- The run list of an exchange (R324): its block, its lists and its token rows. A block that the checks refuse has no more than
itself. -/
def exchangeRuns (a : XAcc) (desc : Nat) (s : State) : (Except (Option Nat) (List (Nat × Nat × Nat × Bool))) × State :=
  let combine := cpOp desc == 3
  let own := (cpSrc desc, 64, false)
  match vreads a [(cpSrc desc, 64)] s with
  | .stall t => (.error none, t)
  | .fail c t => (.error (some c), t)
  | .ok vs _ t =>
    let b := vs.getD 0 0
    match exInvocation t (exList b) with
    | none => rangesRuns a [own] t
    | some (_, _, d) =>
      if exBad combine b then rangesRuns a [own] t
      else if combine then rangesRuns a (own :: exRanges true b d (List.range (rtTokens d))) t
      else
        let at0 := exList b + 128 + exRound b * roundBytes d
        match vreads a [(at0 + 4 * rtExperts d, 4)] t with
        | .stall t => (.error none, t)
        | .fail c t => (.error (some c), t)
        | .ok n _ t =>
          let k := min (n.getD 0 0) (pairCount d)
          match vreads a [(at0 + offsBytes d, 8 * k)] t with
          | .stall t => (.error none, t)
          | .fail c t => (.error (some c), t)
          | .ok es _ t => rangesRuns a (own :: exRanges false b d ((List.range k).map (fun i => (es.getD 0 0 >>> (64 * i)) % 65536))) t

/-- Groups of at most 64 pairs (R242 step 3); `n` bounds their number. -/
def chunk64 : Nat → List Piece → List (List Piece)
  | 0, _ => []
  | n + 1, ps => if ps.isEmpty then [] else ps.take 64 :: chunk64 n (ps.drop 64)

/-! ## The queue (R243–R245) -/

def copyGet (s : State) (id : Nat) : Option CopyRec := s.copies.recs.find? (fun c => c.id == id)
def copyMod (id : Nat) (f : CopyRec → CopyRec) (s : State) : State :=
  { s with copies.recs := s.copies.recs.map (fun c => if c.id == id then f c else c) }
def entGet (s : State) (id : Nat) : Option CopyEnt := s.copies.ents.find? (fun e => e.id == id)
def entMod (id : Nat) (f : CopyEnt → CopyEnt) (s : State) : State :=
  { s with copies.ents := s.copies.ents.map (fun e => if e.id == id then f e else e) }

/-- Credits a submitter holds on an engine (R243). -/
def creditsOf : Submitter → Nat
  | .tuft _ => 8
  | _ => 16

/-- Entries of a submitter in an engine's queue. -/
def entsOf (s : State) (sward : Nat) (sub : Submitter) : List CopyEnt :=
  s.copies.ents.filter (fun e => match copyGet s e.copy with | some c => c.sward == sward && c.sub == sub | none => false)

/-- Queue a record's remaining entries while its submitter has credits; `n` bounds their number. -/
def queueEnts (id : Nat) : Nat → State → State
  | 0, s => s
  | n + 1, s =>
    match copyGet s id with
    | none => s
    | some c =>
      match c.rest with
      | [] => s
      | ps :: t =>
        if (entsOf s c.sward c.sub).length < creditsOf c.sub then
          let e : CopyEnt := { id := s.copies.nextId, copy := id, first := !c.queued, pieces := ps, whole := ps, stale := c.restStale }
          queueEnts id n (copyMod id (fun c => { c with rest := t, queued := true })
            { s with copies.ents := s.copies.ents ++ [e], copies.nextId := s.copies.nextId + 1 })
        else s

/-- Paths parked for a copy's credits go on once its last entry is queued. -/
def releaseSubmitter (id : Nat) (s : State) : State :=
  match copyGet s id with
  | some c => if c.rest.isEmpty then (match c.sub with | .tuft t => wakePaths t (fun p => p == .credit id) s | _ => s) else s
  | none => s

/-- A credit of a submitter is free again: its waiting records queue entries, oldest first. -/
def creditFree (sward : Nat) (sub : Submitter) (s : State) : State :=
  ((s.copies.recs.filter (fun c => c.sward == sward && c.sub == sub && !c.rest.isEmpty)).map (·.id)).foldl
    (fun t id => match copyGet t id with | some c => releaseSubmitter id (queueEnts id c.rest.length t) | none => t) s

/-- The access a copy's translations are made with. -/
def copyAccess (s : State) (c : CopyRec) : XAcc :=
  let seq := match c.owner with
    | .task id => (taskGet s id).bind (fun r => if tkSeqV r.d then some (tkSeq r.d) else none)
    | _ => none
  { unit := c.sward / 16, sward := c.sward % 16, tuft := (match c.sub with | .tuft t => t % 8 | _ => 0), seq := seq
    agent := (match c.sub with | .resid _ => 4 | _ => 2), cp := c.sub == .cp, va := 0, who := .copy c.id }

/-- Translate a record's sides and queue what its credits allow; a fault stalls it, or ends it with a code (R242). -/
def submitGo (id : Nat) (s : State) : Option Nat × State :=
  match copyGet s id with
  | none => (none, s)
  | some c =>
    let d := c.desc.toNat
    let go := fun (es : List (List Piece)) (runs : List (Nat × Nat × Nat × Bool)) (t : State) =>
      (none, releaseSubmitter id (queueEnts id es.length (copyMod id (fun c => { c with rest := es, runs := runs, translated := true }) t)))
    if isExchange d then
      match exchangeRuns (copyAccess s c) d s with
      | (.error none, t) => (none, t)
      | (.error (some code), t) => (some code, t)
      | (.ok runs, t) => go [[]] runs t
    else match copyPieces (copyAccess s c) d s with
    | (.error none, t) => (none, t)
    | (.error (some code), t) => (some code, t)
    | (.ok ps, t) => go (chunk64 ps.length ps) [] t

/-- The epoch of what submits a descriptor: its task's or its node's graph; a unit copy of the residency manager belongs to no
command. -/
def ownerEpoch (s : State) : CopyOwner → Nat
  | .task id => taskEpoch s id
  | .node g _ => graphEpoch s g
  | .unit _ _ _ _ => getF s hlStatusLinkEpoch 0

/-- Bursts of a copy that no acknowledgement has come for (R428). -/
def burstsOut (s : State) (c : CopyRec) : Bool := (s.fab.unacked ++ s.fab.held).any (fun m => (burstName m).any c.out.contains)

/-- A copy gives up what is left of it. -/
def copyStops (c : CopyRec) (code : Nat) (s : State) : State :=
  let t := copyMod c.id (fun c => { c with rest := [], code := mergeCode c.code code }) (forgetBursts c.out.contains s)
  { t with copies.ents := t.copies.ents.filter (fun e => e.copy != c.id) }

/-- Submit a checked descriptor: its number, the state, and the code with which its translation has ended it, if it has: the
descriptor then completes (R322, R331). -/
def submitCopy (sward : Nat) (sub : Submitter) (owner : CopyOwner) (desc : W512) (s : State) : Nat × Option Nat × State :=
  let id := s.copies.nextId
  let c : CopyRec := { id := id, sward := sward, sub := sub, owner := owner, desc := desc, epoch := ownerEpoch s owner, translated := false }
  let r := submitGo id { s with copies.recs := s.copies.recs ++ [c], copies.nextId := id + 1 }
  (id, r.1, match r.1 with
    | some code => copyMod id (fun c => { c with translated := true }) (copyStops c code r.2)
    | none => r.2)

/-- The Tufts that a descriptor's gate and arrival name (R245, R246). -/
def gateSet (c : CopyRec) : List Nat :=
  let d := c.desc.toNat
  if cpDstSpace d = 0 then ((List.range 8).filter (fun i => (cpMask d).testBit i)).map (fun i => c.sward * 8 + i)
  else match c.sub with | .tuft t => [t] | _ => []

/-- A gated descriptor's gate is satisfied. -/
def gateOpen (s : State) (c : CopyRec) : Bool :=
  let d := c.desc.toNat
  !cpGateV d || (gateSet c).all (fun t => arvReached (arvGet s t (cpGateCtr d)) (cpGateValue d))

/-- An entry waits at a gate or fence: the first of its descriptor, not moving. -/
def entWaits (s : State) (e : CopyEnt) : Bool :=
  match copyGet s e.copy with
  | some c => e.first && !e.moving && (!gateOpen s c ||
      (cpFence c.desc.toNat && (entsOf s c.sward c.sub).any (fun x => x.id < e.id)))
  | none => false

/-- An entry may start: gate and fence satisfied, in its submitter's order, fewer than four moving (R244, R245). -/
def entMayStart (s : State) (e : CopyEnt) : Bool :=
  match copyGet s e.copy with
  | none => false
  | some c =>
    !e.stalled && !entWaits s e && !(entsOf s c.sward c.sub).any (fun x => x.id < e.id && !x.moving) &&
      (s.copies.ents.filter (fun x => x.moving && ((copyGet s x.copy).map (·.sward)) == some c.sward)).length < 4

/-! ## Bursts (R239, R247, R255) -/

/-- Data a copy takes from elsewhere: what a remote module sends, or its refusal (R252). -/
def dataByte (v i : Nat) : Nat := (v >>> (8 * i)) % 256

/-- Key of a byte of a space, for the spaces of this module: store of a Tuft, pool, device memory. -/
def spaceKey (sward sp tuftNo a : Nat) : Nat :=
  if sp = 0 then storeKey (sward * 8 + tuftNo) a else if sp = 1 then poolKey sward a else a

/-- Cut `n` bytes from `a` at the 32-byte boundaries of `a`: (offset from `a`, bytes). -/
def cuts (a n : Nat) : List (Nat × Nat) :=
  (sectorsOf a n).map (fun k => let lo := max a (32 * k); (lo - a, min (a + n) (32 * k + 32) - lo))

/-- The source of a burst: its bytes as a number, and whether a byte range of it is poisoned. A source in another module or
in host memory is what came back from there: `reply`, with its poisoned 32-byte pieces. -/
def burstSource (s : State) (c : CopyRec) (p : Piece) (n : Nat) (reply : Nat × List Nat) : (Nat → Nat → Nat) × (Nat → Nat → Bool) :=
  let d := c.desc.toNat
  if cpOp d = 1 then
    (fun o m => (List.range m).foldl (fun v i => v + dataByte (cpFill d) ((p.dstVa + o + i) % 8) * 256 ^ i) 0, fun _ _ => false)
  else if cpSrcSpace d = 3 ∨ (cpSrcSpace d = 2 ∧ isHostWin p.src n) then (fun o m => (reply.1 >>> (8 * o)) % 256 ^ m, fun o m => reply.2.any (fun k => 32 * k < o + m && o < 32 * k + 32))
  else
    let key := spaceKey c.sward (cpSrcSpace d) (cpSrcTuft d) p.src
    (fun o m => readNum s (key + o) m, fun o m => poisoned s (key + o) m || (cpSrcSpace d == 2 && biasLost s (p.src + o) m))

/-- Write a burst's bytes to one destination, sector by sector; poisoned source bytes poison the sectors they reach. -/
def burstTo (key n : Nat) (src : (Nat → Nat → Nat) × (Nat → Nat → Bool)) (s : State) : State :=
  (cuts key n).foldl (fun t c =>
    let t := if key < storeKey 0 0 then devWrite (key + c.1) c.2 (src.1 c.1 c.2) t else writeNum (key + c.1) c.2 (src.1 c.1 c.2) t
    if src.2 c.1 c.2 then poisonRange (key + c.1) c.2 t else t) s

/-- Some byte of a burst reads poison. -/
def burstPoison (key n : Nat) (src : (Nat → Nat → Nat) × (Nat → Nat → Bool)) : Bool := (cuts key n).any (fun c => src.2 c.1 c.2)

/-- A reason of a copy, reported to its owner at completion; the lowest is kept. -/
def copyCode (id code : Nat) (s : State) : State := copyMod id (fun c => { c with code := mergeCode c.code code }) s

/-- Directory, caches and slice after a burst over device memory. -/
def burstCoherent (s : State) (c : CopyRec) (p : Piece) (n : Nat) : State :=
  let d := c.desc.toNat
  let t := if cpOp d = 0 ∧ cpSrcSpace d = 2 ∧ isDevMem p.src n then rangeAccess .ncrd (c.sward / 16) p.src n s else s
  if cpDstSpace d = 2 ∧ isDevMem p.dst n then rangeAccess .ncwr (c.sward / 16) p.dst n t else t

/-- Send a burst of a copy, which is not over before it is acknowledged. -/
def sendOf (id rank va n v : Nat) (bad : List Nat) (s : State) : State :=
  sendBurst rank va n v bad (copyMod id (fun c => { c with out := c.out ++ [(rank, tgetD s.fab.nextSeq rank 0)] }) s)

/-- Cut `n` bytes from `a` at the 512-byte boundaries of `a`, the largest payload of the link (R357): (offset, bytes). -/
def payloads (a n : Nat) : List (Nat × Nat) := unitParts 512 a n

/-- Posted writes of bytes to the host-link window; a poisoned sector goes by itself, with poison. -/
def hostWrites (pa n : Nat) (src : (Nat → Nat → Nat) × (Nat → Nat → Bool)) (s : State) : State :=
  (payloads pa n).foldl (fun t x =>
    let parts := if src.2 x.1 x.2 then (cuts (pa + x.1) x.2).map (fun c => (x.1 + c.1, c.2)) else [x]
    parts.foldl (fun t p => hostSend (.memWrite (pa + p.1 - hostWinBase) p.2 (src.1 p.1 p.2) (src.2 p.1 p.2) true) t) t) s

/-- A burst's bytes reach their destination. -/
def landBurst (c : CopyRec) (p : Piece) (n : Nat) (reply : Nat × List Nat) (s : State) : State :=
  let d := c.desc.toNat
  let src := burstSource s c p n reply
  let t := burstCoherent s c p n
  let t := if cpHasSrc d && cpSrcSpace d == 3 then { t with fabOut := .readRow (cpRank d) p.src n :: t.fabOut } else t
  let t := match cpDstSpace d with
    | 0 => ((List.range 8).filter (fun i => (cpMask d).testBit i)).foldl (fun u i => burstTo (storeKey (c.sward * 8 + i) p.dst) n src u) t
    | 1 => burstTo (poolKey c.sward p.dst) n src t
    | 2 =>
      if isDevMem p.dst n then burstTo p.dst n src t
      else if isHostWin p.dst n then
        if hostReach s p.dst n then hostWrites p.dst n src t
        else copyCode c.id 0x0820 t
      else t
    | _ => sendOf c.id (cpRank d) p.dst n (src.1 0 n) ((List.range ((n + 31) / 32)).filter (fun k => src.2 (32 * k) (min 32 (n - 32 * k)))) t
  if burstPoison (if cpDstSpace d = 2 then p.dst else 0) n src then
    raise flLmStatusPoison c.sward (copyMod c.id (fun c => { c with poison := true }) t)
  else t

/-- A piece's next bytes are read from the host-link window. -/
def readsHost (d : Nat) (p : Piece) : Bool := cpOp d == 0 && cpSrcSpace d == 2 && isHostWin p.src (min p.len 4096)

/-- Bytes of a piece's next burst: at most 64 KiB (R247); a read of host memory is one request, of at most 4,096 bytes (R357). Log entry 158. -/
def burstLen (d : Nat) (p : Piece) : Nat := min p.len (if readsHost d p then 4096 else 65536)

/-- A burst reads or writes the host-link window. -/
def burstToHost (d : Nat) (p : Piece) : Bool := readsHost d p || (cpDstSpace d == 2 && isHostWin p.dst (min p.len 65536))

/-- Host reads that may be outstanding (R357). -/
def readsFull (s : State) : Bool := decide (2048 ≤ s.link.reads.length)

/-- A tag of 14 bits that no host read bears; tag 0 is left to the reads that nothing waits for. -/
def freeTag (s : State) : Nat :=
  (((List.range 2049).map (fun i => (s.link.nextRead + i - 1) % 16383 + 1)).find? (fun t => (tget s.link.reads t).isNone)).getD 1

/-- Move one burst of a piece: at most 64 KiB, within one run (R247). A burst that reads host memory sends its request and
lands when the completion comes (R379); outside the bridge windows the read returns poison (R367). -/
def moveBurst (c : CopyRec) (p : Piece) (reply : Nat × List Nat) (s : State) : State :=
  let d := c.desc.toNat
  let n := burstLen d p
  let reads := readsHost d p
  if burstToHost d p && (!flagSet s hlStatusLinkUp 0 || c.epoch != getF s hlStatusLinkEpoch 0) then
    (let t := copyCode c.id 0x0830 s
     if reads then landBurst c p n (0, allPieces true n) t else t)
  else if reads then
    if hostReach s p.src n then
      let t := freeTag s
      hostSend (.memRead (p.src - hostWinBase) n t)
        { s with link.reads := tput s.link.reads t (c.id, { p with len := n }), link.nextRead := t % 16383 + 1 }
    else landBurst c p n (0, allPieces true n) (copyCode c.id 0x0820 s)
  else landBurst c p n reply s

/-- A host read of a copy ends: its burst lands. A copy of an aborting task was waiting for it, and ends (R254). -/
def readReturns (tag : Nat) (reply : Nat × Bool) (code : Nat) (s : State) : State :=
  match tget s.link.reads tag with
  | none => s
  | some (id, p) =>
    let t := { s with link.reads := tdel s.link.reads tag }
    match copyGet t id with
    | none => t
    | some c =>
      let u := landBurst c p p.len (reply.1, allPieces reply.2 p.len) (if code = 0 then t else copyCode id code t)
      match c.owner with
      | .task x =>
        if aborting u x && !u.link.reads.any (fun r => r.2.1 == id) then finishAborted x (dropCopies (fun y => y.id == id) u) else u
      | _ => u

/-- The pieces left after a burst of the first. -/
def afterBurst (d : Nat) : List Piece → List Piece
  | [] => []
  | p :: t =>
    let n := burstLen d p
    if p.len ≤ n then t else { p with src := p.src + n, srcVa := p.srcVa + n, dst := p.dst + n, dstVa := p.dstVa + n, len := p.len - n } :: t

/-- The first `n` bytes of a list of pieces. -/
def takeBytes : Nat → List Piece → List Piece
  | _, [] => []
  | n, p :: t => if n = 0 then [] else { p with len := min n p.len } :: takeBytes (n - min n p.len) t

def pieceBytes (ps : List Piece) : Nat := (ps.map (·.len)).foldl (· + ·) 0

/-- Translate an entry's remaining runs again (R247, R332); RETRANSLATED counts it. -/
def retranslate (e : CopyEnt) (c : CopyRec) (s : State) : State :=
  let d := c.desc.toNat
  let rows := e.pieces.map (fun p => ((p.srcVa, p.len), (p.dstVa, p.len)))
  match rowPieces (copyAccess s c) (pairSpace d) (cpDstSpace d) rows (bump lmCountsRetranslated c.sward 1 s) with
  | (.ok ps, t) => entMod e.id (fun e => { e with
      pieces := ps, whole := takeBytes (pieceBytes e.whole - pieceBytes e.pieces) e.whole ++ ps, stale := false, stalled := false }) t
  | (.error none, t) => entMod e.id (fun e => { e with stalled := true }) t
  | (.error (some code), t) => entMod e.id (fun e => { e with pieces := [], stale := false }) (copyCode c.id code t)

/-- An exchange's run list is translated again where it is stale (R247, R332). -/
def rerun (e : CopyEnt) (c : CopyRec) (s : State) : State :=
  let t := copyMod c.id (fun c => { c with runs := [] }) (bump lmCountsRetranslated c.sward 1 s)
  match exchangeRuns (copyAccess s c) c.desc.toNat t with
  | (.ok runs, t) => entMod e.id (fun e => { e with stale := false, stalled := false }) (copyMod c.id (fun c => { c with runs := runs }) t)
  | (.error none, t) => entMod e.id (fun e => { e with stalled := true }) t
  | (.error (some code), t) => entMod e.id (fun e => { e with spent := true, moving := true, stale := false }) (copyCode c.id code t)

/-- A copy that moves data to or from another module. -/
def copyRemote (d : Nat) : Bool := cpDstSpace d == 3 || (cpHasSrc d && cpSrcSpace d == 3)

/-- An entry starts where it may, is translated afresh where it is stale, and moves its next burst; a nonzero `refuse` is
the code with which the other side of the fabric ends it; a rank outside the partition, or a partition that is not up, ends it
with 0x0301, and one that no route reaches with 0x0302 (R426, R429). -/
def entStep (op id : Nat) (reply : Nat × List Nat) (refuse : Nat) (s : State) : State :=
  match entGet s id with
  | none => s
  | some e =>
    match copyGet s e.copy with
    | none => s
    | some c =>
      if cpOp c.desc.toNat != op || e.stalled || (!e.moving && !entMayStart s e) then s
      else
        let t := entMod id (fun e => { e with moving := true }) s
        let t := if e.stale then retranslate { e with moving := true } c t else t
        match entGet t id with
        | none => t
        | some e =>
          let code := if copyRemote c.desc.toNat then mergeCode (rankCode t (cpRank c.desc.toNat)) refuse else refuse
          if e.stalled then t
          else if code != 0 then
            -- the descriptor is over: nothing of it is left but the entry that completes it (R252)
            (let u := copyStops c code t
             { u with copies.ents := u.copies.ents ++ [{ e with pieces := [] }] })
          else match e.pieces with
            | [] => t
            | p :: _ =>
              let d := c.desc.toNat
              if (s.link.dState = 3 ∧ burstToHost d p) ∨ (readsHost d p ∧ readsFull s) then s
              else entMod id (fun e => { e with pieces := afterBurst d e.pieces }) (moveBurst c p reply t)

end Sys2Proof.Machine
end

