-- ==== Sys2Proof/Machine/Residency.lean ====
section
/-! DEFINITION. Sys2Proof/Machine/Residency.lean: the residency manager: unit and replica states, scores and locked ways,
staging and lifts (R145–R154). -/
namespace Sys2Proof.Machine

def unitKey (region unit : Nat) : Nat := region * 4096 + unit
def unitGet (s : State) (region unit : Nat) : UnitSt := tgetD s.res.units (unitKey region unit) {}
def unitPut (region unit : Nat) (u : UnitSt) (s : State) : State := { s with res.units := tput s.res.units (unitKey region unit) u }
def repGet (s : State) (sw region unit : Nat) : Option Replica := tget s.res.reps (repKey sw region unit)
def repPut (sw region unit : Nat) (p : Replica) (s : State) : State := { s with res.reps := tput s.res.reps (repKey sw region unit) p }
def repDel (k : Nat) (s : State) : State := { s with res.reps := tdel s.res.reps k }

/-- Descriptor of an armed region that nothing closes. -/
def regionOpen (s : State) (region : Nat) : Option Nat :=
  (tget s.res.regions region).bind (fun r => if r.armed && r.closing.isNone then some r.desc.toNat else none)

/-- A Sward in service: its Meadow is, its fence is open, and it is not out itself. -/
def swardUp (s : State) (sw : Nat) : Bool :=
  meadowUp s (sw / 16) && !s.loam.fences.contains sw &&
    !s.err.out.any (fun o => (o.level == lvSward && o.unit == sw) || (o.level == lvMeadow && o.unit == sw / 16))

/-! ## Hayloft ways (R152, R273) -/

/-- Homes in service. -/
def homesUp (s : State) : List Nat := (List.range 16).filter (homeUp s)

def hayOf (s : State) (h : Nat) : HayState := tgetD s.hay h {}

/-- A way that every home in service can lock and still keep 4 powered beyond its locked ways, ways that are being cleaned for
power-down left out of the count, fewer than 4 of them locked. -/
def lockableWay (s : State) : Option Nat :=
  (List.range 16).find? (fun w => (homesUp s).all (fun h =>
    let y := hayOf s h
    let open_ := (List.range 16).filter (fun v => y.powered.testBit v && !y.cleaning.testBit v && !y.lockedWays.testBit v)
    open_.contains w && !y.disabledWays.testBit w &&
      ((List.range 16).filter (fun v => y.lockedWays.testBit v)).length < 4 && decide (4 < open_.length)))

def setLock (w : Nat) (on : Bool) (s : State) : State :=
  (homesUp s).foldl (fun t h => { t with hay := tmod t.hay h {} (fun y =>
    { y with lockedWays := if on then y.lockedWays ||| 2 ^ w else y.lockedWays &&& (65535 - 2 ^ w) }) }) s

/-- A line comes to stand in way `w` of its set, from memory or from another way; a place that is taken or retired takes none, and a
line with sectors on their way stays where it is. -/
def lockLine (w line : Nat) (y : HayState) : HayState :=
  let pa := line * 128
  let loc := sliceSet pa * 16 + w
  if y.retiredLocs.contains loc || (tget y.lines loc).isSome then y
  else
    match findWay y pa with
    | some v =>
      let l := tgetD y.lines (sliceSet pa * 16 + v) {}
      if locBusy y (sliceSet pa * 16 + v) then y
      else { y with lines := tput (tdel y.lines (sliceSet pa * 16 + v)) loc { l with valid := 15, stream := none } }
    | none => { y with lines := tput y.lines loc { tag := sliceTag pa, valid := 15 } }

/-- A way is locked at every home in service with the lines of a unit in it; other lines leave the way, once what is on its way to
them has come (R146, R149). -/
def lockWay (w : Nat) (lines : List Nat) (s : State) : State :=
  (homesUp s).foldl (fun t0 h =>
    let t := stackRun h 1024 t0
    let y := hayGet t h
    let y := (y.lines.filter (fun e => e.1 % 16 == w)).foldl (fun y e => sliceEvict h e.1 y) y
    hayPut h ((lines.filter (fun l => homeOfLine l == h)).foldl (fun y l => lockLine w l y) y) t) (setLock w true s)

/-- Lines of device memory in translated runs. -/
def runLines (runs : List (Nat × Nat × Nat)) : List Nat :=
  runs.flatMap (fun r => if isDevMem r.2.1 r.2.2 then linesOf r.2.1 r.2.2 else [])

/-- Ways locked for a region. -/
def regionLocks (s : State) (region : Nat) : Nat :=
  (s.res.units.filter (fun e => e.1 / 4096 == region && (match e.2.pkg with | .locked _ _ => true | _ => false))).length

/-- Where a unit's bytes lie in this module: home, or its place in the staging area. -/
def unitSource (d unit : Nat) (u : UnitSt) : Option Nat :=
  let home := rgBase d + unit * rgUnitBytes d
  let stage := rgStage d + u.slot * rgUnitBytes d
  match u.pkg, u.rank with
  | .home, none => some home
  | .staged, _ => some stage
  | .locked st _, _ => some (if st then stage else home)
  | _, _ => none

/-- Lock or unlock a unit by its score: at 192 if a way is free, its lines go into one way of every slice (log entry 134); below 64
back to its previous state. Translation unit `m` gives the unit's place. -/
def lockByScore (m region unit d : Nat) (s : State) : State :=
  let u := unitGet s region unit
  match u.pkg with
  | .locked staged w =>
    if u.score < 64 then setLock w false (unitPut region unit { u with pkg := if staged then .staged else .home } s) else s
  | .staging => s
  | p =>
    if 192 ≤ u.score ∧ regionLocks s region < rgWays d ∧ (p = .staged ∨ u.rank.isNone) then
      match lockableWay s, unitSource d unit u with
      | some w, some src =>
        match translateRange { unit := m, agent := 4, va := src, r := true } (rgUnitBytes d) s with
        | (.runs runs, t) => lockWay w (runLines runs) (unitPut region unit { u with pkg := .locked (decide (p = .staged)) w } t)
        | (_, t) => t
      | _, _ => s
    else s

/-- Scores at an invocation of a layer on Meadow `m`: named units gain (255 − score) / 4, the others of the region lose score / 8. -/
def scoreLayer (m layer : Nat) (named : List Nat) (s : State) : State :=
  s.res.regions.foldl (fun t e =>
    let d := e.2.desc.toNat
    if e.2.armed && e.2.closing.isNone && rgLayer d == layer then
      (List.range (rgUnits d)).foldl (fun t u =>
        let x := unitGet t e.1 u
        let score := if named.contains u then x.score + (255 - x.score) / 4 else x.score - x.score / 8
        lockByScore m e.1 u d (if score = x.score then t else unitPut e.1 u { x with score := score } t)) t
    else t) s

/-- Hints of a Stile: each expert with a nonzero count, for every armed region of the layer (R151). -/
def sendHints (layer : Nat) (experts : List Nat) (s : State) : State :=
  let ks := s.res.regions.flatMap (fun e => let d := e.2.desc.toNat
    if e.2.armed && rgLayer d == layer then (experts.filter (· < rgUnits d)).map (unitKey e.1) else [])
  { s with res.hints := ks.foldl setAdd s.res.hints }

/-! ## Staging (Table SP-7) -/

/-- Units of a region's staging area by place. -/
def stagingSlots (d : Nat) : Nat := rgStageBytes d / rgUnitBytes d

/-- A unit holds its place in the staging area: staging, staged, or locked from there. -/
def holdsSlot (u : UnitSt) : Bool := match u.pkg with | .staging => true | .staged => true | .locked st _ => st | .home => false

/-- Some replica of a unit is being lifted. -/
def unitLifting (s : State) (region unit : Nat) : Bool :=
  s.res.reps.any (fun e => e.1 % 65536 == unitKey region unit && e.2.st == .lifting)

/-- A place for a unit to be staged in: a free one, or that of the evicted staged unit of lowest score. -/
def stagingPlace (region d : Nat) (s : State) : Option (Nat × State) :=
  let held := s.res.units.filter (fun e => e.1 / 4096 == region && holdsSlot e.2)
  match (List.range (stagingSlots d)).find? (fun i => !held.any (fun e => e.2.slot == i)) with
  | some i => some (i, s)
  | none =>
    let out := held.filter (fun e => e.2.pkg == .staged && !unitLifting s region (e.1 % 4096))
    match out.foldl (fun (m : Option (Nat × UnitSt)) e => match m with
        | none => some e
        | some b => if e.2.score < b.2.score then some e else m) none with
    | some e => some (e.2.slot, unitPut region (e.1 % 4096) { e.2 with pkg := .home } s)
    | none => none

/-- A copy descriptor of the manager: `rows` rows of 64 KiB. -/
def unitCopy (src dst rows srcSp dstSp rank : Nat) : W512 :=
  BitVec.ofNat 512 (packBits [(src, 455), (dst, 391), (65536, 288), (65536, 256), (65536, 200), (rows - 1, 184), (rank, 160), (srcSp, 146), (dstSp, 143)])

/-- Begin staging a unit from its remote home with the engine of Sward `sw`. -/
def beginStage (sw region unit : Nat) (s : State) : State :=
  match regionOpen s region with
  | none => s
  | some d =>
    let u := unitGet s region unit
    match u.rank, stagingPlace region d s with
    | some rank, some (i, t) =>
      let u := unitGet t region unit
      let t := unitPut region unit { u with pkg := .staging, slot := i, poisoned := false } t
      (submitCopy sw (.resid (sw / 16)) (.unit region unit sw false)
        (unitCopy (rgBase d + unit * rgUnitBytes d) (rgStage d + i * rgUnitBytes d) (rgUnitBytes d / 65536) 3 2 rank) t).2.2
    | _, _ => s

/-! ## Lifts (R150–R153) -/

/-- Places for replicas in a region's share, as pool offsets. -/
def shareOffsets (r : ExpertRegion) : List Nat :=
  let d := r.desc.toNat
  (List.range (rgShare d / rgUnitBytes d)).map (fun i => r.share + i * rgUnitBytes d)

/-- Replicas of a region in a Sward. -/
def repsOf (s : State) (sw region : Nat) : Table Replica := s.res.reps.filter (fun e => e.1 / 65536 == sw && e.1 % 65536 / 4096 == region)

/-- The victim in a Sward's share: the unreferenced POOLED replica of lowest score, ties to the lower unit. -/
def victim (s : State) (sw region : Nat) : Option (Nat × Replica) :=
  ((repsOf s sw region).filter (fun e => e.2.st == .pooled && e.2.refs == 0)).foldl (fun m e => match m with
    | none => some e
    | some b => if (unitGet s region (e.1 % 4096)).score < (unitGet s region (b.1 % 4096)).score then some e else m) none

/-- Space for a lift: a free place, or that of a victim, which becomes DRAINING and, unreferenced, ABSENT. -/
def liftSpace (sw region : Nat) (s : State) : Option (Nat × State) :=
  match tget s.res.regions region with
  | none => none
  | some r =>
    let used := repsOf s sw region
    match (shareOffsets r).find? (fun o => !used.any (fun e => e.2.off == o)) with
    | some o => some (o, s)
    | none => (victim s sw region).map (fun e => (e.2.off, repDel e.1 s))

/-- No Sward has space for a lift sooner than this one: it has some, or none in service has (R150). -/
def freesSoonest (s : State) (sw region : Nat) : Bool :=
  (liftSpace sw region s).isSome || !(List.range 128).any (fun x => swardUp s x && (liftSpace x region s).isSome)

/-- A poisoned copy is fetched again on demand: a staged copy is given up (R154). -/
def refetch (region unit : Nat) (s : State) : State :=
  let u := unitGet s region unit
  if u.poisoned && u.pkg == .staged then unitPut region unit { u with pkg := .home } s else s

/-- A demand for a unit in a Sward: staging from a remote home, or a lift into the pool share; without space the lift
waits under STALL. -/
def demand (sw region unit : Nat) (s0 : State) : State :=
  match regionOpen s0 region with
  | none => s0
  | some d =>
    if rgUnits d ≤ unit ∨ !swardUp s0 sw then s0
    else
      let s := refetch region unit s0
      let u := unitGet s region unit
      -- an unreferenced poisoned replica is dropped, to be lifted again
      let s := match repGet s sw region unit with
        | some p => if p.poisoned && p.refs == 0 && p.st == .pooled then repDel (repKey sw region unit) s else s
        | none => s
      if (repGet s sw region unit).isSome then s
      else match unitSource d unit u with
        | none => if u.pkg = .home then beginStage sw region unit s else s
        | some src =>
          match liftSpace sw region s with
          | none =>
            let k := repKey sw region unit
            if s.res.waitingLifts.contains k then s
            else raise flResStatusStall (sw / 16) { s with res.waitingLifts := setAdd s.res.waitingLifts k }
          | some (o, t) =>
            let t := { t with res.waitingLifts := setDel t.res.waitingLifts (repKey sw region unit) }
            let t := repPut sw region unit { st := .lifting, off := o } t
            (submitCopy sw (.resid (sw / 16)) (.unit region unit sw true) (unitCopy src o (rgUnitBytes d / 65536) 2 1 0) t).2.2

/-- The manager receives a hint (R151). -/
def hintReceived (sw region unit : Nat) (s : State) : State :=
  let k := unitKey region unit
  if s.res.hints.contains k then
    demand sw region unit { s with res.hints := setDel s.res.hints k, res.wanted := setAdd s.res.wanted k }
  else s

/-! ## Ends of the manager's copies -/

/-- The manager's copy of a unit, if all of its bursts have moved. -/
def unitCopyDone (s : State) (sw region unit : Nat) (lift : Bool) : Option CopyRec :=
  s.copies.recs.find? (fun c => c.owner == .unit region unit sw lift && c.translated && c.rest.isEmpty &&
    !s.copies.ents.any (fun e => e.copy == c.id))

/-- A unit's home read returned poison: POISON, and a notice that names the unit with 0x0566 (R154; log entry 116). -/
def homePoison (sw region unit : Nat) (s : State) : State :=
  notice 0x0566 (unitKey region unit) (sw / 16) (raise flResStatusPoison (sw / 16) s)

/-- Staging ends: STAGED, or HOME and poisoned after a home read error (Table SP-7, R154). -/
def stageDone (sw region unit : Nat) (s : State) : State :=
  match unitCopyDone s sw region unit false with
  | none => s
  | some c =>
    let u := unitGet s region unit
    let bad := c.poison || c.code != 0
    let t := dropCopies (fun x => x.id == c.id) s
    let t := unitPut region unit { u with pkg := if bad then .home else .staged, poisoned := bad } t
    if bad then homePoison sw region unit t else t

/-- A lift ends: the replica is POOLED, poisoned if the home or staged copy read poison; LIFTS counts it. -/
def liftDone (sw region unit : Nat) (s : State) : State :=
  match unitCopyDone s sw region unit true, repGet s sw region unit with
  | some c, some p =>
    let bad := c.poison || c.code != 0
    let t := dropCopies (fun x => x.id == c.id) s
    let t := repPut sw region unit { p with st := .pooled, poisoned := bad, stamp := t.work.clock } t
    let t := { bump resCountsLifts (sw / 16) 1 t with res.wanted := setDel t.res.wanted (unitKey region unit), work.clock := t.work.clock + 1 }
    if bad then homePoison sw region unit t else t
  | _, _ => s

/-! ## Quiesce and release (R154) -/

/-- A region's replicas, staged copies, copies in flight and locked ways are given up. -/
def clearRegion (region : Nat) (s : State) : State :=
  let t := dropCopies (fun c => match c.owner with | .unit g _ _ _ => g == region | _ => false) s
  let t := t.res.units.foldl (fun t e => if e.1 / 4096 == region then
      (match e.2.pkg with | .locked _ w => setLock w false t | _ => t) else t) t
  { t with
    res.units := t.res.units.filter (fun e => e.1 / 4096 != region)
    res.reps := t.res.reps.filter (fun e => e.1 % 65536 / 4096 != region)
    res.hints := t.res.hints.filter (fun k => k / 4096 != region)
    res.wanted := t.res.wanted.filter (fun k => k / 4096 != region)
    res.waitingLifts := t.res.waitingLifts.filter (fun k => k % 65536 / 4096 != region) }

/-- ARMED and QUIESCED on every Meadow. -/
def regionFlags (s : State) : State :=
  let bits := fun (f : ExpertRegion → Bool) => (s.res.regions.filter (fun e => f e.2)).foldl (fun m e => m + 2 ^ e.1) 0
  (List.range 8).foldl (fun t m => setF resStatusQuiesced m (bits (fun r => !r.armed)) (setF resStatusArmed m (bits (·.armed)) t)) s

/-- Tasks that wait on a binding to a region fail with 0x0565; their number. -/
def failBound (region : Nat) (s : State) : Nat × State :=
  let rs := s.work.tasks.filter (fun r => r.phase == .waiting && tkBindV r.d && tkBindRegion r.d == region)
  (rs.length, rs.foldl (fun t r => failWaiting r 0x0565 t) s)

/-- A closing region ends its quiesce once no reference is left, and its release after that. -/
def closeRegion (region : Nat) (s : State) : State :=
  match tget s.res.regions region with
  | none => s
  | some r =>
    match r.closing with
    | none => s
    | some (cmd, release) =>
      if r.armed && s.res.reps.any (fun e => e.1 % 65536 / 4096 == region && e.2.refs != 0) then s
      else
        let t := if r.armed then clearRegion region s else s
        let t := regionFlags { t with res.regions := tput t.res.regions region { r with armed := false, closing := none } }
        if release then
          let (n, t) := failBound region t
          endById cmd (endDone n 0) (regionFlags { t with res.regions := tdel t.res.regions region })
        else endById cmd (endDone 0 0) t

/-- Every closing region is looked at. -/
def closeRegions (s : State) : State := (s.res.regions.map (·.1)).foldl (fun t g => closeRegion g t) s

/-- Replicas of a failed Meadow's Swards are dropped (R154). -/
def dropMeadowReps (m : Nat) (s : State) : State := { s with res.reps := s.res.reps.filter (fun e => e.1 / 1048576 != m) }

end Sys2Proof.Machine
end

