-- ==== Sys2Proof/Machine/Router.lean ====
section
/-! DEFINITION. Sys2Proof/Machine/Router.lean: the Stile routers: the checks of a
descriptor, choice, weights, rounds, merged invocations, lists and counters (R130–R139, R151, R158, R159). -/
namespace Sys2Proof.Machine

/-! ## Checks (Table SP-8) -/

/-- The checks of Table SP-8 on a descriptor (R131). -/
def routerChecks (d : Nat) : List (Option Nat) :=
  [failIf (rtK d == 0 || decide (8 < rtK d) || decide (rtExperts d < rtK d)) 0x0150,
   failIf (rtReserved d != 0 || rtGate d == 3 || rtPolicy d == 3 || rtFallback d == 0 || rtFallback d == 3 || (rtRenorm d && rtGate d != 2)) 0x0151,
   failIf (rtStride d % 32 != 0 || decide (rtStride d < rtExperts d * rtLogitBytes d) || rtOut d % 128 != 0) 0x0153]

/-! ## FP32 arithmetic of the Stile (R133) -/

def f32 (x : Num) : Num := (decodeNum .fp32 true (roundNum .fp32 {} 0 x).1).1
def add32 (x y : Num) : Num := f32 (addNum .rne x y).1
def mul32 (x y : Num) : Num := f32 (mulNum x y).1
def div32 (x y : Num) : Num := (decodeNum .fp32 true (divRound .fp32 {} 0 x y).1).1
def one32 : Num := .fin false 1 0

/-- exp by the fixed, unstated method, within 2 units in the last place (R133). -/
def exp32 (x : Num) : Num :=
  match x with
  | .nan s => .nan s
  | .inf n => if n then numZero else .inf false
  | y => (methodOp 0x40 2 .fp32 {} y).1

def sum32 (xs : List Num) : Num := (decodeNum .fp32 true (windowReduce .fp32 {} 0 80 xs).1).1

/-! ## Choice and weights (R132, R134) -/

/-- A logit as read: a NaN becomes −∞, an infinity the largest finite value of its sign; the flag raised. -/
def routerLogit (xf16 : Bool) (bits : Nat) : Num × List Nat :=
  match (decodeNum (if xf16 then .xf16 else .fp32) true bits).1 with
  | .nan _ => (.inf true, [0])
  | .inf n => ((decodeNum .fp32 true (maxCode .fp32 n)).1, [1])
  | x => (x, [])

/-- A score that routes: not −∞ (nor NaN, which ranks as −∞: the spec states no result there). -/
def scoreLive (x : Num) : Bool := match x with | .nan _ => false | .inf n => !n | .fin _ _ _ => true

/-- Score `x` ranks above `y`. -/
def scoreAbove (x y : Num) : Bool :=
  match scoreLive x, scoreLive y with
  | true, true => cmpNum x y == some .gt
  | true, false => true
  | _, _ => false

/-- The highest score not yet chosen, ties to the lower expert. -/
def bestOf (sc : List Num) (taken : List Nat) : Option Nat :=
  (List.range sc.length).foldl (fun (m : Option Nat) e =>
    if taken.contains e then m else match m with
      | none => some e
      | some b => if scoreAbove (sc.getD e numZero) (sc.getD b numZero) then some e else m) none

/-- The K experts of a token, slot 0 first. -/
def chooseK (sc : List Num) : Nat → List Nat → List Nat
  | 0, acc => acc
  | k + 1, acc => match bestOf sc acc with | some e => chooseK sc k (acc ++ [e]) | none => acc

def maxNum (xs : List Num) : Num := xs.foldl (fun m x => if scoreAbove x m then x else m) (.inf true)

/-- Gate weights of the experts chosen (R132 steps 4 and 5; log entry 128). -/
def gateWeights (d : Nat) (lg : List Num) (chosen : List Nat) : List Num :=
  let at' := fun e => lg.getD e numZero
  let ws :=
    if rtGate d = 2 then
      let w := chosen.map (fun e => div32 one32 (add32 one32 (exp32 (numNegate (at' e)))))
      if rtRenorm d then w.map (fun x => div32 x (sum32 w)) else w
    else
      let pool := if rtGate d = 0 then lg else chosen.map at'
      let mx := maxNum pool
      let ex := fun x => exp32 (add32 x (numNegate mx))
      let tot := sum32 (pool.map ex)
      chosen.map (fun e => div32 (ex (at' e)) tot)
  if rtScale d = 0 then ws else ws.map (fun x => mul32 x (decodeNum .fp32 true (rtScale d)).1)

/-- A pair offered: slot, token, expert, weight. -/
structure Pair where
  slot : Nat
  token : Nat
  expert : Nat
  weight : Nat
  deriving DecidableEq, Repr

/-- A combine entry before layout: STATE, round, expert, weight, row (Table SP-5). -/
structure CombEnt where
  st : Nat := 3
  round : Nat := 0
  expert : Nat := 0
  weight : Nat := 0
  row : Nat := 0
  deriving DecidableEq, Repr, Inhabited

/-- What a token brings: its candidate pairs, its slots that are not routed, flags. -/
def tokenPairs (d tk : Nat) (skip : Bool) (row bias : Nat) : List Pair × List (Nat × CombEnt) × List Nat :=
  if skip then ([], [], [])
  else
    let n := rtLogitBytes d
    let ls := (List.range (rtExperts d)).map (fun e => routerLogit (rtXf16 d) ((row >>> (8 * n * e)) % 256 ^ n))
    let lg := ls.map (·.1)
    let sc := if rtBias d = 0 then lg else
      lg.mapIdx (fun e x => add32 x (decodeNum .fp32 true ((bias >>> (32 * e)) % 2 ^ 32)).1)
    let top := chooseK sc (rtK d) []
    let slots := (List.range top.length).map (fun i => (i, top.getD i 0))
    let live := slots.filter (fun p => scoreLive (sc.getD p.2 numZero))
    let ws := gateWeights d lg top
    (live.map (fun p => ⟨p.1, tk, p.2, codeOf .fp32 (ws.getD p.1 numZero)⟩),
     (slots.filter (fun p => !scoreLive (sc.getD p.2 numZero))).map (fun p => (tk * rtK d + p.1, { st := 1, expert := p.2 })),
     (ls.map (·.2)).flatten)

/-! ## Rounds (R135) -/

/-- One round: accepted pairs by expert in admission order, pairs deferred, combine entries of pairs that end here. A pair that
is passed or failed carries the round in which it ended (log entry 129). -/
structure Round where
  acc : Table (List Pair) := []
  next : List Pair := []
  ends : List (Nat × CombEnt) := []

def offerPair (d r : Nat) (x : Round) (p : Pair) : Round :=
  let seg := tgetD x.acc p.expert []
  if rtCapacity d = 0 ∨ seg.length < rtCapacity d then
    { x with acc := tput x.acc p.expert (seg ++ [p]),
             ends := (p.token * rtK d + p.slot, { st := 0, round := r, expert := p.expert, weight := p.weight, row := seg.length }) :: x.ends }
  else if rtPolicy d = 0 ∧ r < rtLast d then { x with next := x.next ++ [p] }
  else
    let how := if rtPolicy d = 0 then rtFallback d else rtPolicy d
    { x with ends := (p.token * rtK d + p.slot, { st := how, round := r, expert := p.expert, weight := p.weight }) :: x.ends }

/-- Every round from `r` on; `n` bounds their number. Round 0 is used even where no pair is offered (log entry 129). -/
def rounds (d : Nat) : Nat → Nat → List Pair → List Round
  | 0, _, _ => []
  | n + 1, r, ps =>
    if ps.isEmpty && r != 0 then []
    else
      let x := ps.foldl (offerPair d r) {}
      x :: rounds d n (r + 1) x.next

/-- Pairs in the order of R135: slot ascending, then token ascending. -/
def offerOrder (k : Nat) (ps : List Pair) : List Pair := (List.range k).flatMap (fun i => ps.filter (·.slot == i))

def combWord (c : CombEnt) : Nat :=
  packBits [(c.row, 64), (c.weight, 32), (c.st, 30), (c.round, 27), (c.expert, 12)]
def dispWord (tags : Nat → Nat) (p : Pair) : Nat := packBits [(p.weight, 32), (p.slot, 29), (tags p.token % 512, 20), (p.token, 0)]

/-- Little-endian words of `n` bytes one after another. -/
def joinWords (n : Nat) (ws : List Nat) : Nat := ws.foldr (fun w v => w + v * 256 ^ n) 0

/-- The number of accepted pairs of a round. -/
def roundTotal (x : Round) : Nat := (x.acc.map (fun e => e.2.length)).foldl (· + ·) 0

/-- Lists, totals and flags of an invocation from its rounds, its slots that are not routed and its tags. -/
def routeLists (d : Nat) (early : List (Nat × CombEnt)) (flags : List Nat) (tag : Nat → Nat) (rs : List Round) : RouteRes :=
  let ends := early ++ (rs.map (·.ends)).flatten
  let count := fun st => (ends.filter (fun e => e.2.st == st)).length
  let deferred := (rs.map (fun x => x.next.length)).foldl (· + ·) 0
  let totals := [count 0, deferred, count 1, count 2]
  let parts := (rs.mapIdx (fun r x =>
    let seg := fun e => tgetD x.acc e []
    let offs := (List.range (rtExperts d)).foldl (fun (a : List Nat × Nat) e => (a.1 ++ [a.2], a.2 + (seg e).length)) ([], 0)
    [(128 + r * roundBytes d, 4 * (rtExperts d + 1), joinWords 4 (offs.1 ++ [offs.2])),
     (128 + r * roundBytes d + offsBytes d, 8 * roundTotal x,
       joinWords 8 ((x.acc.map (fun e => e.2.map (dispWord tag))).flatten))])).flatten
  let hdr := packBits ([(rtTokens d, 0), (rs.length, 32)] ++ rs.mapIdx (fun r x => (roundTotal x, 64 + 32 * r)) ++
    totals.mapIdx (fun i v => (v, 384 + 64 * i)))
  let comb := (List.range (pairCount d)).map (fun i => combWord ((ends.find? (fun e => e.1 == i)).map (·.2) |>.getD {}))
  let named := (List.range (rtExperts d)).filter (fun e => rs.any (fun x => !(tgetD x.acc e []).isEmpty))
  { parts := (parts ++ [(0, 128, hdr), (combineOff d, 16 * pairCount d, joinWords 16 comb)]).filter (fun p => p.2.1 != 0)
    totals := totals, flags := flags, experts := named }

/-- The tag of token `t` among an invocation's tags. -/
def tagAt (tags t : Nat) : Nat := (tags >>> (16 * t)) % 65536

/-- What the tokens of an invocation bring, numbered from `base`: logit rows, bias, tags. -/
def tokensOf (d base : Nat) (rows : List Nat) (bias tags : Nat) : List (List Pair × List (Nat × CombEnt) × List Nat) :=
  (List.range (rtTokens d)).map (fun t => tokenPairs d (base + t) ((tagAt tags t).testBit 15) (rows.getD t 0) bias)

/-- An invocation by itself, from the data it read: logit rows, bias, tags. -/
def routeAll (d : Nat) (rows : List Nat) (bias tags : Nat) : RouteRes :=
  let toks := tokensOf d 0 rows bias tags
  let rs := rounds d (rtLast d + 1) 0 (offerOrder (rtK d) ((toks.map (·.1)).flatten))
  routeLists d ((toks.map (fun x => x.2.1)).flatten) ((toks.map (fun x => x.2.2)).flatten) (tagAt tags) rs

/-! ## Merged invocations (R158) -/

/-- The part of a round that belongs to the `k`-th of the merged invocations, in its own token numbers and rows. -/
def roundShare (d k : Nat) (x : Round) : Round :=
  let n := rtTokens d
  let own := fun (ps : List Pair) => (ps.filter (fun p => p.token / n == k)).map (fun p => { p with token := p.token % n })
  let acc := (x.acc.map (fun e => (e.1, own e.2))).filter (fun e => !e.2.isEmpty)
  let row := fun (i e : Nat) => (tgetD acc e []).findIdx (fun p => p.token * rtK d + p.slot == i)
  { acc := acc, next := own x.next
    ends := (x.ends.filter (fun e => e.1 / pairCount d == k)).map (fun e =>
      let i := e.1 % pairCount d
      (i, if e.2.st = 0 then { e.2 with row := row i e.2.expert } else e.2)) }

/-- Rounds up to the last that is offered a pair. -/
def trimRounds : List Round → List Round
  | [] => []
  | x :: t => if x.next.isEmpty then [x] else x :: trimRounds t

/-- Invocations of one descriptor but for its addresses, routed as one over the tokens of all, one after another, their
outputs split back: the data each read as (logit rows, bias, tags). -/
def routeMerged (d : Nat) (ins : List (List Nat × Nat × Nat)) : List RouteRes :=
  let n := rtTokens d
  let toks := ins.mapIdx (fun k x => tokensOf d (k * n) x.1 x.2.1 x.2.2)
  let rs := rounds d (rtLast d + 1) 0 (offerOrder (rtK d) ((toks.flatten.map (·.1)).flatten))
  ins.mapIdx (fun k x =>
    let own := toks.getD k []
    let early := ((own.map (fun x => x.2.1)).flatten).map (fun e => (e.1 % pairCount d, e.2))
    routeLists d early ((own.map (fun x => x.2.2)).flatten) (tagAt x.2.2) (trimRounds (rs.map (roundShare d k))))

/-! ## Invocations -/

def invQueue (s : State) (m : Nat) : List Invocation := tgetD s.stile.queue m []
def setInvQueue (m : Nat) (q : List Invocation) (s : State) : State := { s with stile.queue := tput s.stile.queue m q }
def invMod (m id : Nat) (f : Invocation → Invocation) (s : State) : State :=
  setInvQueue m ((invQueue s m).map (fun i => if i.id == id then f i else i)) s

/-- Invocations that wait to start. -/
def invWaiting (s : State) (m : Nat) : Nat := ((invQueue s m).filter (fun i => !i.started)).length

/-- Queue an invocation. -/
def enqueueInv (m : Nat) (desc : W512) (owner : InvOwner) (s : State) : State :=
  let i : Invocation := { id := s.stile.nextId, desc := desc, owner := owner }
  setInvQueue m (invQueue s m ++ [i]) { s with stile.nextId := s.stile.nextId + 1 }

/-- An invocation completes with a code: to its task with its arrival counter, or to its node (R238, R403). -/
def finishInv (m : Nat) (i : Invocation) (code : Nat) (s : State) : State :=
  let t := bump stileCountsInvocations m 1 (setInvQueue m ((invQueue s m).filter (fun j => j.id != i.id)) s)
  match i.owner with
  | .task id tuft ctr =>
    let t := if code = 0 then t else taskReport id code t
    finishAborted id (if (taskGet t id).isSome then arrive tuft ctr t else t)
  | .node g n => nodeDone g n (if code = 0 then 0 else 2) code 0 0 t

/-- The access of an invocation's translations. -/
def stileAccess (s : State) (m : Nat) (i : Invocation) : XAcc :=
  let tf := match i.owner with | .task _ t _ => t | .node _ _ => m * 128
  let seq := match i.owner with
    | .task id _ _ => (taskGet s id).bind (fun r => if tkSeqV r.d then some (tkSeq r.d) else none)
    | .node _ _ => none
  { unit := m, sward := tf / 8 % 16, tuft := tf % 8, agent := 3, va := 0, seq := seq, who := .stile m }

/-- Read the logit rows, the bias and the tags of an invocation. -/
def readInv (a : XAcc) (d : Nat) (s : State) : VRes :=
  let rows := (List.range (rtTokens d)).map (fun t => (rtLogits d + t * rtStride d, rtExperts d * rtLogitBytes d))
  let bias := if rtBias d = 0 then [(rtSeq d, 0)] else [(rtBias d, 4 * rtExperts d)]
  vreads a (rows ++ bias ++ [(rtSeq d, 2 * rtTokens d)]) s

/-- Data of an invocation as `readInv` gives it: rows, bias, tags. -/
def invData (d : Nat) (vs : List Nat) : List Nat × Nat × Nat :=
  (vs.take (rtTokens d), vs.getD (rtTokens d) 0, vs.getD (rtTokens d + 1) 0)

/-- A tag has one of the bits set that must be zero. -/
def tagsBad (d tags : Nat) : Bool := (List.range (rtTokens d)).any (fun k => (tags >>> (16 * k)) % 65536 &&& 0x7E00 != 0)

/-- Waiting invocations of the Meadow that may be merged with one: the same layer and descriptor but for the addresses
(bits 511 to 199). An unlimited capacity makes merging change nothing (R158). -/
def mergeable (s : State) (m : Nat) (i : Invocation) : List Invocation :=
  let d := i.desc.toNat
  if !rtDynamic d || rtCapacity d == 0 then []
  else (invQueue s m).filter (fun j => j.id != i.id && !j.started && j.res.parts.isEmpty &&
    j.desc.toNat % 2 ^ 199 == d % 2 ^ 199 && lowest (routerChecks j.desc.toNat) == 0)

/-- The data of those invocations that can be read now; one that meets a fault is left for its own turn. -/
def mergeReads (m : Nat) : List Invocation → State → List (Invocation × List Nat × Bool) × State
  | [], s => ([], s)
  | j :: t, s =>
    match readInv { stileAccess s m j with who := .none } j.desc.toNat s with
    | .ok vs bad u =>
      if tagsBad j.desc.toNat (invData j.desc.toNat vs).2.2 then mergeReads m t s
      else ((j, vs, anyBad bad) :: (mergeReads m t u).1, (mergeReads m t u).2)
    | _ => mergeReads m t s

/-- Which of them the work scheduler merges is a free value, up to 65,536 tokens (R158; log entry 7). -/
def mergeSet (m : Nat) (i : Invocation) (s : State) : List (Invocation × List Nat × Bool) × State :=
  match mergeable s m i with
  | [] => ([], s)
  | js => mergeReads m (((js.zipIdx.filter (fun p => (freshVal s).testBit p.2)).map (·.1)).take (65536 / rtTokens i.desc.toNat - 1)) (drawn s)

/-- In ascending sequence number, the tag of the first token; ties in the order of the queue. -/
def seqInsert (x : Invocation × List Nat × Bool) : List (Invocation × List Nat × Bool) → List (Invocation × List Nat × Bool)
  | [] => [x]
  | y :: t =>
    let key := fun (z : Invocation × List Nat × Bool) => (invData z.1.desc.toNat z.2.1).2.2 % 512
    if key x ≤ key y then x :: y :: t else y :: seqInsert x t

/-- Decide the head with those it is merged with: each keeps its own part, the head's is the answer. -/
def decideInv (m : Nat) (i : Invocation) (vs : List Nat) (bad : Bool) (s : State) : RouteRes × State :=
  let d := i.desc.toNat
  let (js, t) := mergeSet m i s
  if js.isEmpty then ({ routeAll d (invData d vs).1 (invData d vs).2.1 (invData d vs).2.2 with bad := bad }, t)
  else
    let all := ((i, vs, bad) :: js).foldr seqInsert []
    let any := all.any (·.2.2)
    let rs := all.zip (routeMerged d (all.map (fun x => invData d x.2.1)))
    rs.foldl (fun a x =>
      let r := { x.2 with bad := any }
      if x.1.1.id == i.id then (r, a.2) else (a.1, invMod m x.1.1.id (fun j => { j with res := r }) a.2)) ({}, t)

/-- Translate, read and check, choose and accept (R130–R136); one that a merge has decided already only translates its
outputs (R158). -/
def beginInv (m : Nat) (i : Invocation) (s : State) : State :=
  let d := i.desc.toNat
  let decided := !i.res.parts.isEmpty
  let stall := fun t => invMod m i.id (fun i => { i with started := true, stalled := true, stale := i.stale || decided }) t
  let code := lowest (routerChecks d)
  if code != 0 then finishInv m i code s
  else
    let a := stileAccess s m i
    let s := if decided then s else pfSubmission a (rtLogits d) s
    match (if decided then .ok [] [] s else readInv a d s) with
    | .stall t => stall t
    | .fail c t => finishInv m i c t
    | .ok vs bad t =>
      match vruns a (rtOut d) (outBytes d) t with
      | (.stall, t) => stall t
      | (.fail c, t) => finishInv m i c t
      | (.runs out, t) =>
        match (if rtCount d = 0 then (RangeRes.runs [], t) else vruns a (rtCount d) 32 t) with
        | (.stall, t) => stall t
        | (.fail c, t) => finishInv m i c t
        | (.runs cnt, t) =>
          let go := fun (r : RouteRes) (t : State) => invMod m i.id (fun i => { i with
            started := true, stalled := false, res := { r with outRuns := out, cntRuns := cnt } }) t
          if decided then go i.res t
          else if tagsBad d (invData d vs).2.2 then finishInv m i 0x0154 t
          else go (decideInv m i vs (anyBad bad) t).1 (decideInv m i vs (anyBad bad) t).2

/-- The head of a Stile's queue starts, if none of it runs. -/
def startInv (m : Nat) (s : State) : State :=
  match invQueue s m with
  | i :: _ => if i.started then s else beginInv m i s
  | [] => s

/-- Each flag of an invocation counts once (R137, R159). -/
def stileFlags (m : Nat) (r : RouteRes) (s : State) : State :=
  let fl := fun (on : Bool) (f : Flag) (t : State) => if on then raise f m t else t
  fl (r.flags.contains 0) flStileStatusLogitNan (fl (r.flags.contains 1) flStileStatusLogitInf
    (fl (r.totals.getD 1 0 != 0) flStileStatusDefer (fl (r.totals.getD 2 0 != 0) flStileStatusPass
      (fl (r.totals.getD 3 0 != 0) flStileStatusFail s))))

/-- Add the totals to the counter block by atomic add, which the Meadow cache performs on lines it owns (R137, R286); totals of
poisoned data are poisoned. -/
def addTotals (m : Nat) (r : RouteRes) (s : State) : State :=
  (List.range 4).foldl (fun t k =>
    let rs := subRuns (8 * k) 8 r.cntRuns
    let (v, bad, t) := readRuns rs (runsAccess .rdx m rs t)
    writeRuns rs ((v + r.totals.getD k 0) % 2 ^ 64) (bad || r.bad) t) s

/-- Write the lists, add the counters, pass the hints, complete (R135, R137, R138, R151, R152). -/
def writeInv (m : Nat) (i : Invocation) (s : State) : State :=
  let d := i.desc.toNat
  let r := i.res
  let t := r.parts.foldl (fun t p => vput m (subRuns p.1 p.2.1 r.outRuns) p.2.2 (allPieces r.bad p.2.1) t) s
  let t := if r.cntRuns.isEmpty then t else addTotals m r t
  let t := stileFlags m r t
  let t := sendHints (rtLayer d) r.experts (scoreLayer m (rtLayer d) r.experts t)
  let t := { t with stile.lists := (rtOut d, m, i.id, i.desc) :: t.stile.lists.filter (fun l => l.1 != rtOut d) }
  finishInv m i (if r.totals.getD 3 0 != 0 then 0x0152 else 0) t

/-- The Sward whose RETRANSLATED an invocation counts in: its submitter's, or the first of the Meadow (log entry 187). -/
def invSward (m : Nat) (i : Invocation) : Nat := match i.owner with | .task _ t _ => t / 8 | .node _ _ => 16 * m

/-- An invocation completes; translations that an invalidation made stale are made again first (R332). -/
def completeInv (m : Nat) (s : State) : State :=
  match invQueue s m with
  | [] => s
  | i :: _ =>
    if !i.started || i.stalled then s
    else if !i.stale then writeInv m i s
    else
      let d := i.desc.toNat
      let a := stileAccess s m i
      let stall := fun t => invMod m i.id (fun i => { i with stalled := true }) t
      match vruns a (rtOut d) (outBytes d) (bump lmCountsRetranslated (invSward m i) 1 s) with
      | (.stall, t) => stall t
      | (.fail c, t) => finishInv m i c t
      | (.runs out, t) =>
        match (if rtCount d = 0 then (RangeRes.runs [], t) else vruns a (rtCount d) 32 t) with
        | (.stall, t) => stall t
        | (.fail c, t) => finishInv m i c t
        | (.runs cnt, t) => writeInv m { i with res := { i.res with outRuns := out, cntRuns := cnt } } t

/-- A stalled invocation goes on after RESOLVE retry or MAP, or ends with a code (R330). -/
def resumeInv (m code : Nat) (s : State) : State :=
  match invQueue s m with
  | [] => s
  | i :: _ =>
    if !i.stalled then s
    else if code != 0 then finishInv m i code s
    else if i.res.parts.isEmpty then beginInv m { i with started := false, stalled := false } s
    else completeInv m (invMod m i.id (fun i => { i with stalled := false }) s)

end Sys2Proof.Machine
end

