-- ==== Sys2Proof/Machine/Exchange.lean ====
section
/-! DEFINITION. Sys2Proof/Machine/Exchange.lean: the end of copies, copies that arrive from other modules, and the exchange
operations DISPATCH and COMBINE (R141–R144, R246, R249–R255). -/
namespace Sys2Proof.Machine

/-! ## Ends (R246, R255) -/

/-- The last entry has completed: DESCRIPTORS, ARRIVE, and the reason to the owner. A unit copy of the residency manager
stays until the manager ends it. -/
def completeCopy (c : CopyRec) (s : State) : State :=
  let d := c.desc.toNat
  let code := mergeCode c.code (if c.poison then 0x0575 else 0)
  let t := bump lmCountsDescriptors c.sward 1 s
  let t := if cpArriveV d then (gateSet c).foldl (fun u x => arrive x (cpArrive d) u) t else t
  match c.owner with
  | .task id => dropCopies (fun x => x.id == c.id) (if code = 0 then t else taskReport id code t)
  | .node g n => nodeDone g n (if code = 0 then 0 else 2) code 0 0 (dropCopies (fun x => x.id == c.id) t)
  | .unit _ _ _ _ => t

/-- Nothing of an entry is left to move. -/
def entOver (c : CopyRec) (e : CopyEnt) : Bool := e.moving && (if isExchange c.desc.toNat then e.spent else e.pieces.isEmpty)

/-- A queue entry completes: its credit returns, and the last one completes the descriptor. -/
def entComplete (id : Nat) (s : State) : State :=
  match entGet s id with
  | none => s
  | some e =>
    match copyGet s e.copy with
    | none => s
    | some c =>
      if !entOver c e || s.link.reads.any (fun r => r.2.1 == c.id) || burstsOut s c then s
      else
        let t := creditFree c.sward c.sub { s with copies.ents := s.copies.ents.filter (fun x => x.id != id) }
        match copyGet t e.copy with
        | none => t
        | some c => if c.rest.isEmpty && !t.copies.ents.any (fun x => x.copy == c.id) then completeCopy c t else t

/-- A copy whose access ended with a code completes with it. -/
def copyEnds (id code : Nat) (s : State) : State :=
  match copyGet s id with
  | none => s
  | some c =>
    let t := creditFree c.sward c.sub (copyStops c code s)
    let t := match c.sub with | .tuft x => wakePaths x (fun p => p == .credit id) t | _ => t
    match copyGet t id with
    | some c => completeCopy c t
    | none => t

/-- Rows of experts that a DISPATCH writes, so far as their segment starts are known: rank, virtual address, bytes. -/
def dispatchTo (c : CopyRec) : List (Nat × Nat × Nat) :=
  let b := c.block
  (List.range (c.offs.length - 1)).filterMap (fun x =>
    let n := c.offs.getD (x + 1) 0 - c.offs.getD x 0
    match tget c.starts x with
    | some start => if n = 0 then none else
        some (tgetD c.ranks x 0, exBuf b + x * exBufStride b + start * exRowBytes b, n * exRowBytes b)
    | none => none)

/-- Physical bytes of this module are poisoned by a copy engine: a non-caching write (R287), or one to the host. -/
def poisonWrite (sward pa n : Nat) (s : State) : State :=
  if isDevMem pa n then poisonRange pa n (rangeAccess .ncwr (sward / 16) pa n s)
  else if isHostWin pa n then hostWrites pa n (fun _ _ => 0, fun _ _ => true) s
  else s

/-- The destination of an exchange is poisoned: what it writes in this module, and the experts' rows (R255). -/
def poisonExchange (c : CopyRec) (s : State) : State :=
  let t := (c.runs.filter (·.2.2.2)).foldl (fun t r => poisonWrite c.sward r.2.1 r.2.2.1 t) s
  (if cpOp c.desc.toNat = 2 then dispatchTo c else []).foldl (fun t x =>
    if x.1 = getF t tfPosRank 0 then
      match vruns (copyAccess t c) x.2.1 x.2.2 t with
      | (.runs rs, u) => rs.foldl (fun u r => poisonWrite c.sward r.2.1 r.2.2 u) u
      | _ => t
    else sendBurst x.1 x.2.1 x.2.2 0 (allPieces true x.2.2) t) t

/-- The engine's parity check fails on an entry: its destination is poisoned and the descriptor completes with 0x0576. -/
def copyCheckFail (id : Nat) (s : State) : State :=
  match entGet s id with
  | none => s
  | some e =>
    match copyGet s e.copy with
    | none => s
    | some c =>
      let d := c.desc.toNat
      let t := e.whole.foldl (fun t p => match cpDstSpace d with
        | 0 => ((List.range 8).filter (fun i => (cpMask d).testBit i)).foldl (fun u i => poisonRange (storeKey (c.sward * 8 + i) p.dst) p.len u) t
        | 1 => poisonRange (poolKey c.sward p.dst) p.len t
        | 2 => poisonWrite c.sward p.dst p.len t
        | _ => sendBurst (cpRank d) p.dst p.len 0 (allPieces true p.len) t) s
      let t := if isExchange d then poisonExchange c t else t
      let t := pendErr { level := lvSward, unit := c.sward, reason := 0x0576, cls := 0x01 } (raise flLmStatusCheckErr c.sward t)
      let t := creditFree c.sward c.sub (releaseSubmitter c.id (copyStops c 0x0576 t))
      match copyGet t c.id with
      | some c => completeCopy c t
      | none => t

/-! ## Bursts from other modules (R252, R326) -/

/-- A burst of a remote copy arrives: translated for this module's tables and written, or refused with 0x0208. -/
def remoteWrite (m source burst va len val : Nat) (bad : List Nat) (s : State) : State :=
  match vruns { unit := m, agent := 5, va := va } va len s with
  | (.runs rs, t) => let u := vput m rs val bad t; { u with fabOut := .ack source burst :: u.fabOut }
  | (_, t) => { t with fabOut := .refuse source burst :: t.fabOut }

/-- A remote copy reads this module's memory: the data goes back, or a refusal. -/
def remoteRead (m source burst va len : Nat) (s : State) : State :=
  let a : XAcc := { unit := m, agent := 5, va := va }
  match vreads a [(va, len)] s with
  | .ok vs bad t => sendBurst source va len (vs.getD 0 0) (bad.getD 0 []) t
  | .stall t => { t with fabOut := .refuse source burst :: t.fabOut }
  | .fail _ t => { t with fabOut := .refuse source burst :: t.fabOut }

/-! ## Ranks and sources -/

/-- This module's rank in the job's partition (R421). -/
def ownRank (s : State) : Nat := getF s tfPosRank 0

/-- The lowest reason code that keeps an exchange from one of its ranks (R426, R429). -/
def ranksCode (ranks : List Nat) (s : State) : Nat :=
  (ranks.filter (fun r => r != ownRank s || !rankOk s r)).foldl (fun a r => mergeCode a (rankCode s r)) 0

/-- A source's place in the order of R142. -/
def sourceKey (rank meadow order : Nat) : Nat := (rank * 8 + meadow) * 2 ^ 28 + order

/-- The segment start of a source for an expert: counts of the sources before it. -/
def segmentStart (s : State) (buf round expert source : Nat) : Nat :=
  ((s.stile.counts.filter (fun c => c.buf == buf && c.round == round && c.expert == expert && decide (c.source < source))).map (·.count)).foldl (· + ·) 0

/-- Record a source's count for an expert. -/
def recordCount (c : SegCount) (s : State) : State :=
  { s with stile.counts := c :: s.stile.counts.filter (fun x =>
      !(x.buf == c.buf && x.round == c.round && x.expert == c.expert && x.source == c.source)) }

/-- Counts of an exchange that has begun afresh are forgotten (log entry 18). -/
def forgetCounts (buf round : Nat) (s : State) : State :=
  { s with
    stile.counts := s.stile.counts.filter (fun c => !(c.buf == buf && c.round == round))
    stile.closed := s.stile.closed.filter (· != (buf, round)) }

/-! ## Running an exchange -/

def exAccess (s : State) (c : CopyRec) : XAcc := copyAccess s c

/-- An exchange entry that cannot go on waits for its fault. -/
def exStall (e : CopyEnt) (s : State) : State := entMod e.id (fun e => { e with stalled := true }) s

/-- An exchange ends early with a code. -/
def exEnd (e : CopyEnt) (c : CopyRec) (code : Nat) (s : State) : State :=
  entMod e.id (fun e => { e with spent := true, moving := true, stalled := false }) (copyCode c.id code s)

/-- A block the checks refuse aborts the task, or fails the node (R242 step 1). -/
def exRefuse (e : CopyEnt) (c : CopyRec) (s : State) : State :=
  match c.owner with
  | .task id => abortTask id 0x0174 s
  | _ => exEnd e c 0x0174 s

/-- 32-bit words of a number. -/
def word32 (v i : Nat) : Nat := (v >>> (32 * i)) % 2 ^ 32

/-- Experts of a round with their counts. -/
def roundCounts (offs : List Nat) : List (Nat × Nat) :=
  (List.range (offs.length - 1)).filterMap (fun e => let n := offs.getD (e + 1) 0 - offs.getD e 0; if n = 0 then none else some (e, n))

/-- Counts go to the experts' modules (R250 step 1). -/
def sendCounts (c : CopyRec) (b key : Nat) (offs : List Nat) (ranks : Table Nat) (fresh : Bool) (s : State) : State :=
  let own := ownRank s
  let t := if fresh then forgetCounts (exBuf b) (exRound b) s else s
  let t := (roundCounts offs).foldl (fun t p =>
    let rank := tgetD ranks p.1 own
    if rank = own then recordCount ⟨exBuf b, exRound b, p.1, key, p.2⟩ t
    else { t with fabOut := .count rank (exBuf b) (exRound b) p.1 key p.2 :: t.fabOut }) t
  copyMod c.id (fun c => { c with block := b, offs := offs, ranks := ranks }) t

/-- DISPATCH begins: block, offsets and expert map are read and the counts sent; an invalid map entry ends it with 0x0157. -/
def dispatchBegin (e : CopyEnt) (c : CopyRec) (fresh : Bool) (s : State) : State :=
  let a := exAccess s c
  match vreads a [(cpSrc c.desc.toNat, 64)] s with
  | .stall t => exStall e t
  | .fail code t => exEnd e c code t
  | .ok vs bad t =>
    let b := vs.getD 0 0
    match exInvocation t (exList b) with
    | none => exRefuse e c t
    | some (m, order, d) =>
      if exBad false b then exRefuse e c t
      else if anyBad bad then exEnd e c 0x0575 (raise flLmStatusPoison c.sward t)
      else match vreads a [(exList b + 128 + exRound b * roundBytes d, 4 * (rtExperts d + 1)), (exMap b, 4 * rtExperts d)] t with
        | .stall t => exStall e t
        | .fail code t => exEnd e c code t
        | .ok vs bad t =>
          let offs := (List.range (rtExperts d + 1)).map (word32 (vs.getD 0 0))
          let used := roundCounts offs
          let map := fun x => word32 (vs.getD 1 0) x
          if used.any (fun p => !(map p.1).testBit 31) then exEnd e c 0x0157 t
          else
            let ranks := used.map (fun p => (p.1, bitsOf (map p.1) 27 16))
            let reach := ranksCode (ranks.map (·.2)) t
            if reach != 0 then exEnd e c reach t
            else
            let t := if anyBad bad then copyMod c.id (fun c => { c with poison := true, listBad := true }) t else t
            let key := sourceKey (ownRank t) m order
            entMod e.id (fun e => { e with moving := true, spent := used.isEmpty }) (sendCounts c b key offs ranks fresh t)

/-- Bytes at this module's memory written for an exchange. -/
def exPut (a : XAcc) (va n v : Nat) (bad : List Nat) (s : State) : (Except (Option Nat) Unit) × State :=
  match vruns a va n s with
  | (.stall, t) => (.error none, t)
  | (.fail c, t) => (.error (some c), t)
  | (.runs rs, t) => (.ok (), vput a.unit rs v bad t)

/-- One dispatch entry's row goes to its expert (R250 step 3). -/
def dispatchRow (e : CopyEnt) (c : CopyRec) (s : State) : State :=
  let b := c.block
  let a := exAccess s c
  match exInvocation s (exList b), (roundCounts c.offs).find? (fun p => c.offs.getD p.1 0 ≤ e.next && e.next < c.offs.getD p.1 0 + p.2) with
  | some (_, _, d), some (x, _) =>
    match tget c.starts x, vreads a [(exList b + 128 + exRound b * roundBytes d + offsBytes d + 8 * e.next, 8)] s with
    | some start, .ok vs bad0 t =>
      let tok := vs.getD 0 0 % 65536
      match vreads a [(exRows b + tok * exRowStride b, exRowBytes b)] t with
      | .stall t => exStall e t
      | .fail code t => exEnd e c code t
      | .ok row bad t =>
        let dst := exBuf b + x * exBufStride b + (start + (e.next - c.offs.getD x 0)) * exRowBytes b
        let rank := tgetD c.ranks x 0
        let done := c.offs.getD (c.offs.length - 1) 0 ≤ e.next + 1
        let bad := allPieces (c.listBad || anyBad bad0) (exRowBytes b) ++ bad.getD 0 []
        let t := if bad.isEmpty then t else raise flLmStatusPoison c.sward (copyMod c.id (fun c => { c with poison := true }) t)
        let step := entMod e.id (fun e => { e with next := e.next + 1, spent := done })
        if rank = ownRank t then
          match exPut a dst (exRowBytes b) (row.getD 0 0) bad t with
          | (.ok _, t) => step t
          | (.error none, t) => exStall e t
          | (.error (some code), t) => exEnd e c code t
        else step (sendOf c.id rank dst (exRowBytes b) (row.getD 0 0) bad t)
    | some _, .stall t => exStall e t
    | some _, .fail code t => exEnd e c code t
    | none, _ => s
  | _, _ => s

/-- Every expert with a nonzero count has answered with its segment start. -/
def segmentsIn (c : CopyRec) : Bool := (roundCounts c.offs).all (fun p => (tget c.starts p.1).isSome)

/-- One step of a DISPATCH entry. -/
def dispatchStep (id : Nat) (fresh : Bool) (refuse : Nat) (s : State) : State :=
  match entGet s id with
  | none => s
  | some e =>
    match copyGet s e.copy with
    | none => s
    | some c =>
      if cpOp c.desc.toNat != 2 || e.stalled || e.spent then s
      else if e.stale then (if e.moving || entMayStart s e then rerun e c s else s)
      else if !e.moving then (if entMayStart s e then dispatchBegin e c fresh s else s)
      else if refuse != 0 then exEnd e c refuse s
      else if segmentsIn c then dispatchRow e c s else s

/-- A destination receives a source's counts; with the last source awaited it answers every source (R142). -/
def countMessage (rank meadow order buf round : Nat) (counts : List (Nat × Nat)) (fresh last : Bool) (s : State) : State :=
  let t := if fresh then forgetCounts buf round s else s
  let t := counts.foldl (fun t p => recordCount ⟨buf, round, p.1, sourceKey rank meadow order, p.2⟩ t) t
  if last then
    let out := (t.stile.counts.filter (fun c => c.buf == buf && c.round == round && c.source / 2 ^ 31 != ownRank t)).map (fun c =>
      FabMsg.segment c.source buf round c.expert (segmentStart t buf round c.expert c.source))
    { t with fabOut := out.reverse ++ t.fabOut, stile.closed := (buf, round) :: t.stile.closed.filter (· != (buf, round)) }
  else t

/-- A segment start reaches a source, which writes it to the segment table; for an expert of this module it is formed here, once the
counts of every source are in. -/
def segmentAnswer (id expert start : Nat) (s : State) : State :=
  match entGet s id with
  | none => s
  | some e =>
    match copyGet s e.copy with
    | none => s
    | some c =>
      let b := c.block
      if cpOp c.desc.toNat != 2 || !e.moving || (tget c.ranks expert).isNone || (tget c.starts expert).isSome then s
      else match exInvocation s (exList b) with
        | none => s
        | some (m, order, d) =>
          let local' := tgetD c.ranks expert 0 == ownRank s
          if local' && !s.stile.closed.contains (exBuf b, exRound b) then s else
          let v := (if local' then segmentStart s (exBuf b) (exRound b) expert (sourceKey (ownRank s) m order) else start) % 2 ^ 32
          match exPut (exAccess s c) (exSegTab b + (exRound b * rtExperts d + expert) * 4) 4 v (allPieces c.listBad 4) s with
          | (.ok _, t) => copyMod c.id (fun c => { c with starts := tput c.starts expert v }) t
          | (.error none, t) => exStall e t
          | (.error (some code), t) => exEnd e c code t

/-! ## COMBINE (R143, R251) -/

/-- COMBINE begins: the block and the expert map are read. -/
def combineBegin (e : CopyEnt) (c : CopyRec) (s : State) : State :=
  let a := exAccess s c
  match vreads a [(cpSrc c.desc.toNat, 64)] s with
  | .stall t => exStall e t
  | .fail code t => exEnd e c code t
  | .ok vs bad t =>
    let b := vs.getD 0 0
    match exInvocation t (exList b) with
    | none => exRefuse e c t
    | some (_, _, d) =>
      if exBad true b then exRefuse e c t
      else if anyBad bad then exEnd e c 0x0575 (raise flLmStatusPoison c.sward t)
      else match vreads a [(exMap b, 4 * rtExperts d)] t with
        | .stall t => exStall e t
        | .fail code t => exEnd e c code t
        | .ok vs bad t =>
          let map := fun x => word32 (vs.getD 0 0) x
          let ranks := ((List.range (rtExperts d)).filter (fun x => (map x).testBit 31)).map (fun x => (x, bitsOf (map x) 27 16))
          let reach := ranksCode (ranks.map (·.2)) t
          if reach != 0 then exEnd e c reach t
          else entMod e.id (fun e => { e with moving := true }) (copyMod c.id (fun c => { c with block := b, ranks := ranks, listBad := anyBad bad }) t)

/-- The bytes of the rows of one token's routed pairs with their weights and poisoned pieces; rows of other modules come from
`reply`, by slot. -/
def combineRows (a : XAcc) (c : CopyRec) (d : Nat) (reply : List (Nat × List Nat)) : List (Nat × Nat) → State → (Except (Option Nat) (List (Nat × Nat × List Nat))) × State
  | [], s => (.ok [], s)
  | (slot, w) :: t, s =>
    let b := c.block
    let x := bitsOf w 23 12
    if bitsOf w 31 30 != 0 then combineRows a c d reply t s
    else match tget c.ranks x with
      | none => (.error (some 0x0157), s)
      | some rank =>
        match vreads a [(exSegTab b + (bitsOf w 29 27 * rtExperts d + x) * 4, 4)] s with
        | .stall u => (.error none, u)
        | .fail code u => (.error (some code), u)
        | .ok st bad0 u =>
          let va := exBuf b + x * exBufStride b + (st.getD 0 0 + bitsOf w 95 64) * exRowBytes b
          let mine := fun (v : Nat) (bad : List Nat) (u : State) =>
            match combineRows a c d reply t u with
            | (.ok rs, u) => (.ok ((bitsOf w 63 32, v, allPieces (anyBad bad0) (exRowBytes b) ++ bad) :: rs), u)
            | r => r
          if rank = ownRank u then
            match vreads a [(va, exRowBytes b)] u with
            | .stall u => (.error none, u)
            | .fail code u => (.error (some code), u)
            | .ok row bad u => mine (row.getD 0 0) (bad.getD 0 []) u
          else
            let r := reply.getD slot (0, [])
            mine r.1 r.2 { u with fabOut := .readRow rank va (exRowBytes b) :: u.fabOut }

/-- One element of a token's sum: fused multiply-adds in slot order from +0.0, rounded RNE. -/
def combineElem (fin fout : Fmt) (rows : List (Nat × Nat × List Nat)) (i : Nat) : Nat :=
  let n := fmtBits fin / 8
  let acc := rows.foldl (fun acc r =>
    let x := (decodeNum fin true ((r.2.1 >>> (8 * n * i)) % 256 ^ n)).1
    let z := (decodeNum .fp32 true acc).1
    (fmaRound .fp32 {} 0 x (decodeNum .fp32 true r.1).1 z).1) 0
  if fout = .fp32 then acc else (roundNum fout {} 0 (decodeNum .fp32 true acc).1).1

/-- One token is summed and written. -/
def combineToken (e : CopyEnt) (c : CopyRec) (reply : List (Nat × List Nat)) (s : State) : State :=
  let b := c.block
  let a := exAccess s c
  match exInvocation s (exList b) with
  | none => exEnd e c 0x0174 s
  | some (_, _, d) =>
    match vreads a [(exList b + combineOff d + e.next * rtK d * 16, rtK d * 16)] s with
    | .stall t => exStall e t
    | .fail code t => exEnd e c code t
    | .ok vs bad0 t =>
      let words := (List.range (rtK d)).map (fun i => (i, (vs.getD 0 0 >>> (128 * i)) % 2 ^ 128))
      match combineRows a c d reply words t with
      | (.error none, t) => exStall e t
      | (.error (some code), t) => exEnd e c code t
      | (.ok rows, t) =>
        let fin := (fmtOfCode (exFmtIn b)).getD .fp32
        let fout := (fmtOfCode (exFmtOut b)).getD .fp32
        let n := exRowBytes b / (fmtBits fin / 8)
        let v := joinWords (fmtBits fout / 8) ((List.range n).map (combineElem fin fout rows))
        let whole := anyBad bad0 || c.listBad
        let bad := ((List.range n).filter (fun i => whole || rows.any (fun r => r.2.2.contains (i * (fmtBits fin / 8) / 32)))).map
          (fun i => i * (fmtBits fout / 8) / 32)
        match exPut a (exRows b + e.next * exRowStride b) (n * (fmtBits fout / 8)) v bad t with
        | (.error none, t) => exStall e t
        | (.error (some code), t) => exEnd e c code t
        | (.ok _, t) =>
          let t := if bad.isEmpty then t else raise flLmStatusPoison c.sward (copyMod c.id (fun c => { c with poison := true }) t)
          entMod e.id (fun e => { e with next := e.next + 1, spent := decide (rtTokens d ≤ e.next + 1) }) t

/-- One step of a COMBINE entry. -/
def combineStep (id : Nat) (reply : List (Nat × List Nat)) (refuse : Nat) (s : State) : State :=
  match entGet s id with
  | none => s
  | some e =>
    match copyGet s e.copy with
    | none => s
    | some c =>
      if cpOp c.desc.toNat != 3 || e.stalled || e.spent then s
      else if e.stale then (if e.moving || entMayStart s e then rerun e c s else s)
      else if !e.moving then (if entMayStart s e then combineBegin e c s else s)
      else if refuse != 0 then exEnd e c refuse s
      else combineToken e c reply s

end Sys2Proof.Machine
end

