-- ==== Sys2Proof/Machine/Matrix.lean ====
section
/-! DEFINITION. Sys2Proof/Machine/Matrix.lean: the matrix array of a Tuft: issue, starts with their checks and tags, shadow
loads and switches, completion, mode changes, failed checks and the foot (R91–R117, R177, R178). -/
namespace Sys2Proof.Machine

/-- The quadrant whose queue an operation takes: its own in quarter mode, else 0. -/
def mxKey (d : Nat) : Nat := if mxMode d = 1 then mxQuad d else 0

def MxOp.d (o : MxOp) : Nat := o.desc.toNat

/-- Tufts of an operation: its own, or the four of the join group from the lead. -/
def mxTufts (t d : Nat) : List Nat := if mxMode d = 2 then span (t / 4 * 4) 4 else [t]

def mxGet (s : State) (t : Nat) : MxTuft := (tuft s t).mx
def mxSet (t : Nat) (f : MxTuft → MxTuft) (s : State) : State := modTuft t (fun y => { y with mx := f y.mx }) s

/-- Room in the queue of an operation's quadrant (R93). -/
def mxRoom (s : State) (t d : Nat) : Bool := ((mxGet s t).queue.filter (fun o => mxKey o.d == mxKey d)).length < 4

/-- Rows of a block that an operation hands to a Tuft's engine: first row, rows, first column, columns. -/
def mxBlock (t d b : Nat) : Nat × Nat × Nat × Nat :=
  if mxMode d = 2 then
    let h := joinTile d / 2
    let j := t % 4
    (h * (j / 2), min h (mxM d - h * (j / 2)), h * (j % 2), min h (mxN d - h * (j % 2)))
  else (b * blockRows d, min (blockRows d) (mxM d - b * blockRows d), 0, mxN d)

/-- Rows and columns a chain on Tuft `t` must have to pair with an operation (R176, R179). -/
def mxShape (t d : Nat) : Nat × Nat :=
  if mxMode d = 2 then let b := mxBlock t d 0; (b.2.1, b.2.2.2) else (mxM d, mxN d)

/-- Queue an operation (R93, R176): its place in the order of issue, and its ordinal among those that feed each engine; a Tuft
whose quadrant of C holds nothing feeds none (log entry 166). -/
def mxEnqueue (t task : Nat) (desc : W512) (s : State) : State :=
  let d := desc.toNat
  let ts := if mxOutVe d then (mxTufts t d).filter (fun x => (mxShape x d).1 != 0 && (mxShape x d).2 != 0) else []
  let ords := ts.map (fun x => (x, (mxGet s x).outOrd))
  let o : MxOp := { stamp := (tuft s t).stamp, task := task, desc := desc, ords := ords }
  let u := ts.foldl (fun u x => mxSet x (fun m => { m with outOrd := m.outOrd + 1 }) u) s
  modTuft t (fun y => { y with stamp := y.stamp + 1, mx := { y.mx with queue := y.mx.queue ++ [o] } }) u

/-- Bytes that an operation reads: B and its metadata from the weight set it multiplies by, where that holds all of B. -/
def mxMem (s : State) (t0 : Nat) (o : MxOp) : MxMem :=
  let rd := fun j off => storeRd s (t0 + j) off
  let held := match o.wset.bind (·.image) with
    | some im => fun (_ : Nat) off => memGet im off
    | none => rd
  { a := rd, b := held, m := held, c := rd, k := rd 0
    bd := match o.wset with | some w => if w.image.isSome then w.desc.toNat else o.d | none => o.d }

/-- First Tuft of an operation's group. -/
def mxLead (t d : Nat) : Nat := if mxMode d = 2 then t / 4 * 4 else t

/-- Some input of an operation reads poison (R114): a poisoned weight set, or a poisoned sector of what it reads on each Tuft; B
is not read where one weight set holds it, and neither A nor B where the skip map leaves out every visit (R127). -/
def mxPoison (s : State) (t : Nat) (o : MxOp) : Bool :=
  let d := o.d
  let setBad := match o.wset with | some w => w.poisoned | none => false
  let inSet := match o.wset with | some w => w.image.isSome | none => false
  let rdK := storeRd s (mxLead t d)
  setBad || (List.range (mxTufts t d).length).any (fun j => regionsPoison s (mxLead t d + j)
    (readsAOn d j rdK ++ (if inSet then [] else readsBOn d j rdK) ++ (if mxAcc d then regionsCOn d j else [])))

/-- The record of an operation's task, when it still runs. -/
def mxTask (s : State) (o : MxOp) : Option TaskRec := taskGet s o.task

def mxArith (s : State) (o : MxOp) : Arith := match mxTask s o with | some r => taskArith s r.d | none => {}

/-! ## Starts (R96–R103, R112, R123) -/

/-- An operation waits for an earlier, incomplete one: a hazard, or a change of mode (R92, R112). -/
def mxMustWait (m : MxTuft) (o : MxOp) : Bool :=
  (m.running ++ m.queue).any (fun e => e.stamp < o.stamp && (mxHazard o.d e.d || mxMode e.d != mxMode o.d))

/-- K tiles of an operation's visits in order, without those that the skip map leaves out (R89, R127). -/
def mxVisits (d : Nat) (rdK : Nat → Byte) : List Nat :=
  (List.range (mBlocks d)).flatMap (fun b => (List.range (kTiles d)).filter (fun k => !skipped d rdK b k))

/-- Numbers of a list that differ from the one before them, the first included. -/
def changes : List Nat → Nat
  | [] => 0
  | [_] => 1
  | x :: y :: t => changes (y :: t) + bit (x != y)

/-- Loads an operation makes without a tag hit: one per change of weight set over its visits (R107); joined operations hold no
weight sets. -/
def mxLoads (d : Nat) (rdK : Nat → Byte) : Nat :=
  if mxMode d = 2 then 0 else if setsPerTile d = 1 then changes (mxVisits d rdK) else (mxVisits d rdK).length * setsPerTile d

/-- The metadata of every Tuft that holds a part of B is legal (R123, R124). -/
def mxMetaOk (s : State) (t d : Nat) : Bool :=
  (List.range (if mxMode d = 2 then 2 else 1)).all (fun j =>
    metaOk d (storeRd s (mxLead t d + j)) (storeRd s (mxLead t d)) (rowsBOn d j))

/-- Move an operation from the queue to the running ones; a place in the queue is free again. -/
def mxBegin (t key : Nat) (o : MxOp) (s : State) : State :=
  wakePaths t (fun p => p == .queue) (mxSet t (fun m => { m with
    queue := m.queue.filter (fun e => e.stamp != o.stamp), running := m.running ++ [o],
    loading := if o.loads = 0 then m.loading else tput m.loading key o.stamp
    loadQ := if o.loads = 0 then m.loadQ else m.loadQ ++ [key] }) s)

/-- FORCE_LOAD makes the quadrant's sets of the region invalid: what the store holds there has been rewritten (R102, R153). -/
def forceDrop (d : Nat) (w : WSet) : WSet := if overlap (regionsB w.desc.toNat) (regionsB d) then {} else w

/-- Start a checked operation: no visit at all, tag hit, switch, or load. -/
def mxGo (t : Nat) (o : MxOp) (s : State) : State :=
  let d := o.d
  let key := mxKey d
  let m := mxGet s t
  let act := tgetD m.active key {}
  let sh := tgetD m.shadow key {}
  if mxMode d = 2 then (if mxMetaOk s t d then mxBegin t key o s else abortTask o.task 0x0441 s)
  else if allSkipped d (storeRd s t) then mxBegin t key o s
  else if tagCandidate d && act.key == some (wsetKey d) then
    mxBegin t key { o with wset := some act } (bump mxCountsTagHits t 1 s)
  else if tagCandidate d && sh.key == some (wsetKey d) then
    mxBegin t key { o with wset := some sh }
      (mxSet t (fun m => { m with active := tput m.active key sh, shadow := tput m.shadow key act }) (bump mxCountsTagHits t 1 s))
  else
    let u := if mxForce d then mxSet t (fun m => { m with
      active := tput m.active key (forceDrop d act), shadow := tput m.shadow key (forceDrop d sh) }) s else s
    mxBegin t key { o with loads := mxLoads d (storeRd s t) } u

/-- Checks of an operation at the head of a queue (R96), where its task still runs: none fails, or the lowest code. -/
def mxHeadCode (s : State) (t : Nat) (o : MxOp) : Option (Option Nat) :=
  match mxTask s o with
  | some r => if r.phase != .running then none else some (lowestCode (mxChecks o.d (tkLimit r.d) (tkJoin r.d) (t % 4 == 0)))
  | none => none

/-- The mode of an operation is in force on every Tuft it works on (R92). -/
def mxModeOn (s : State) (t : Nat) (o : MxOp) : Bool := (mxTufts t o.d).all (fun x => (mxGet s x).mode == mxMode o.d)

/-- MX_OP_START: the head of a quadrant's queue is checked, and aborts the task or starts once it has nothing to wait for. -/
def mxStart (t quad : Nat) (s : State) : State :=
  let m := mxGet s t
  match m.queue.find? (fun o => mxKey o.d == quad) with
  | none => s
  | some o =>
    match mxHeadCode s t o with
    | none => s
    | some (some c) => abortTask o.task c s
    | some none => if mxMustWait m o || !mxModeOn s t o || (tget m.loading quad).isSome then s else mxGo t o s

/-! ## Shadow loads (R99, R101, R123) -/

/-- The weight set an operation loads, with the bytes it is loaded from. -/
def mxLoaded (s : State) (t d : Nat) : WSet :=
  let rs := regionsB d ++ (if isBlock (fmtB d) then sideRegion (fmtB d) (mxBSide d) (rowsB d) (bStored d) else []) ++ regionsMeta d
  { key := if tagCandidate d then some (wsetKey d) else none
    poisoned := regionsPoison s t (readsBOn d 0 (storeRd s t))
    desc := BitVec.ofNat 512 d
    image := some ((rs.flatMap (fun r => span r.1 r.2)).foldl (fun im off => memPut im off (storeRd s t off)) []) }

/-- SHADOW_LOAD_DONE of a quadrant, whose load is the first at the shadow port (R90): the metadata check, then the switch that
was due; a further load goes behind the others. -/
def mxLoadDone (t quad : Nat) (s : State) : State :=
  let m := mxGet s t
  match tget m.loading quad, m.running.find? (fun o => tget m.loading quad == some o.stamp) with
  | some st, some o =>
    if m.loadQ.head? != some quad then s
    else
      let d := o.d
      let u := bump mxCountsLoads t 1 s
      if !mxMetaOk s t d then
        abortTask o.task 0x0441 (mxSet t (fun m => { m with
          running := m.running.filter (fun e => e.stamp != st), loading := tdel m.loading quad, loadQ := m.loadQ.drop 1 }) u)
      else
        let w := mxLoaded s t d
        let old := tgetD m.active quad {}
        let left := o.loads - 1
        let bad := w.poisoned || (match o.wset with | some x => x.poisoned | none => false)
        let o' := { o with loads := left, wset := some (if oneSet d then w else { poisoned := bad }) }
        mxSet t (fun m => { m with
          active := tput m.active quad (if oneSet d then w else { w with key := none })
          shadow := tput m.shadow quad (if oneSet d then old else { old with key := none })
          running := m.running.map (fun e => if e.stamp == st then o' else e)
          loading := if left = 0 then tdel m.loading quad else m.loading
          loadQ := m.loadQ.drop 1 ++ (if left = 0 then [] else [quad]) }) u
  | _, _ => s

/-! ## The foot (R176–R179) -/

/-- The operation with OUT_VE whose ordinal on Tuft `t` is `ord`, wherever it was issued. -/
def mxByOrd (s : State) (t ord : Nat) : Option (Nat × MxOp) :=
  let own := ((mxGet s t).running ++ (mxGet s t).queue).find? (fun o => tget o.ords t == some ord)
  match own with
  | some o => some (t, o)
  | none =>
    let l := t / 4 * 4
    (((mxGet s l).running ++ (mxGet s l).queue).find? (fun o => tget o.ords t == some ord)).map (fun o => (l, o))

/-- The chain paired with ordinal `ord`, queued or running. -/
def chainByOrd (s : State) (t ord : Nat) : Option VeChain :=
  let v := (tuft s t).ve
  (v.running.toList ++ v.queue).find? (fun c => veSrcMx c.desc.toNat && c.ord == ord)

/-- The running chain reads the block in the input buffer. -/
def veTakeBlock (t : Nat) (s : State) : State :=
  let v := (tuft s t).ve
  match v.running, v.buf with
  | some c, some (ord, fc, rows, bad) =>
    if veSrcMx c.desc.toNat && c.ord == ord then
      modTuft t (fun y => { y with ve := { y.ve with buf := none, running := some { c with rows := c.rows ++ rows, poison := c.poison || bad, srcCode := fc } } }) s
    else s
  | _, _ => s

/-- A smaller ordinal is still to be handed to the engine. -/
def ordBefore (s : State) (t ord : Nat) : Bool :=
  (List.range ord).any (fun k => match mxByOrd s t k with
    | some (_, o) => tgetD o.handed t 0 < mxBlockCount o.d
    | none => false)

/-- FOOT_HANDOVER on Tuft `t` by the operation issued on Tuft `l`: the next block, after `wait` steps of waiting. -/
def footHandover (t quad wait : Nat) (s0 : State) : State :=
  let s := veTakeBlock t s0
  let pick := fun l => (mxGet s l).running.find? (fun o => mxOutVe o.d && mxKey o.d == quad && o.loads == 0 &&
    (tget o.ords t).isSome && tgetD o.handed t 0 < mxBlockCount o.d)
  match (match pick t with | some o => some (t, o) | none => (pick (t / 4 * 4)).map (fun o => (t / 4 * 4, o))) with
  | none => s
  | some (l, o) =>
    let d := o.d
    let ord := tgetD o.ords t 0
    match taskGet s o.task with
    | none => s
    | some r =>
      match chainByOrd s t ord with
      | none => if r.groupsLeft = 0 ∧ r.phase = .running then abortTask o.task 0x0453 s else s
      | some c =>
        if (veM c.desc.toNat, veN c.desc.toNat) != mxShape t d then abortTask o.task 0x0454 s
        else if (tuft s t).ve.buf.isSome || ordBefore s t ord then s
        else
          let b := mxBlock t d (tgetD o.handed t 0)
          let res := mxRows d (mxArith s o) s.ob.job.seed (mxMem s (mxLead l d) o) b.1 b.2.1 b.2.2.1 b.2.2.2
          let bad := mxPoison s l o
          let u := modTuft t (fun y => { y with ve := { y.ve with buf := some (ord, mxFmtC d, res.1, bad) } }) (bump veCountsFootWait t wait s)
          mxSet l (fun m => { m with running := m.running.map (fun e => if e.stamp == o.stamp then
            { e with handed := tput e.handed t (tgetD e.handed t 0 + 1), flags := if bad then e.flags else e.flags ||| res.2 } else e) }) u

/-! ## Completion (R111) -/

/-- Remove a running operation. -/
def mxLeave (t stamp : Nat) (s : State) : State :=
  mxSet t (fun m => { m with running := m.running.filter (fun e => e.stamp != stamp) }) s

/-- MX_OP_COMPLETE of a quadrant's oldest running operation. `wait` is the steps its ports waited for grants (TS_COUNTS). -/
def mxComplete (t quad wait : Nat) (s0 : State) : State :=
  let s := bump tsCountsStoreWait t wait s0
  match (mxGet s t).running.find? (fun o => mxKey o.d == quad) with
  | none => s0
  | some o =>
    let d := o.d
    if o.loads != 0 || !mxHanded o then s0
    else
      let t0 := mxLead t d
      let res := if mxOutVe d then ([], o.flags) else mxWrites d (mxArith s o) s.ob.job.seed (mxMem s t0 o)
      let bad := mxPoison s t o
      let u := applyWrites t0 res.1 bad s
      -- an operation that reads poison raises no arithmetic flag (R73)
      let u := if bad then u else (mxTufts t d).foldl (fun u x => taskFlags o.task x res.2 u) u
      let u := arrive t0 (mxArrive d) (bump mxCountsOps t 1 (mxLeave t o.stamp u))
      finishAborted o.task u

/-! ## Mode changes and failed checks (R92, R113) -/

/-- Sets of a Tuft become invalid as it takes a mode (R92). -/
def mxTakeMode (mode : Nat) (m : MxTuft) : MxTuft := { m with mode := mode, active := [], shadow := [], loading := [], loadQ := [] }

/-- MX_MODE_CHANGE: with nothing running, a checked operation at the head whose mode is not in force brings it into force, and the
weight sets become invalid; a joined operation changes every Tuft of its group. -/
def mxModeChange (t : Nat) (s : State) : State :=
  match (mxGet s t).queue with
  | o :: _ =>
    if mxHeadCode s t o == some none && !mxModeOn s t o &&
        (mxTufts t o.d).all (fun x => (mxGet s x).running.isEmpty && (x == t || (mxGet s x).queue.isEmpty)) then
      (mxTufts t o.d).foldl (fun u x => mxSet x (mxTakeMode (mxMode o.d)) u) s
    else s
  | [] => s

/-- The operation that works in a quadrant of a Tuft's array, with the Tuft that issued it: one of its own, or the joined
operation of its group's lead. -/
def mxWorking (s : State) (t quad : Nat) : Option (Nat × MxOp) :=
  match (mxGet s t).running.find? (fun o => mxKey o.d == quad) with
  | some o => some (t, o)
  | none => ((mxGet s (t / 4 * 4)).running.find? (fun o => mxMode o.d == 2 && quad == 0)).map (fun o => (t / 4 * 4, o))

/-- MX_CHECK_FAIL on a running operation: output poisoned, CHECK_ERR, a pending record, the task ends with the code.
`parity` tells a weight-register parity failure (0x0431) from a residue or foot failure (0x0430). -/
def mxCheckFail (t quad : Nat) (parity : Bool) (s : State) : State :=
  match mxWorking s t quad with
  | none => s
  | some (l, o) =>
    let d := o.d
    let code := if parity then 0x0431 else 0x0430
    let u := (List.range (mxTufts l d).length).foldl (fun u j =>
      (if mxOutVe d then [] else regionsCOn d j).foldl (fun u r => poisonRange (storeKey (mxLead l d + j) r.1) r.2 u) u) s
    let u := bumpSat mxCountsCheckErrs t 1 (setF mxStatusCheckErr (4 * t + quad) 1 u)
    let u := pendErr { level := lvTuft, unit := t, reason := code, cls := 0x01 } u
    -- a block already handed over reaches the engine poisoned
    let u := (o.ords.map (·.1)).foldl (fun u x => modTuft x (fun y => { y with ve := { y.ve with
      running := y.ve.running.map (fun c => if some c.ord == tget o.ords x then { c with poison := true } else c)
      buf := y.ve.buf.map (fun b => if some b.1 == tget o.ords x then (b.1, b.2.1, b.2.2.1, true) else b) } }) u) u
    finishAborted o.task (abortTask o.task code (mxLeave l o.stamp u))

end Sys2Proof.Machine
end

