-- ==== Sys2Proof/Machine/Vector.lean ====
section
/-! DEFINITION. Sys2Proof/Machine/Vector.lean: the vector engine of a Tuft: issue, starts, completion, failed checks (R161,
R175–R185). -/
namespace Sys2Proof.Machine

def veSet (t : Nat) (f : VeTuft → VeTuft) (s : State) : State := modTuft t (fun y => { y with ve := f y.ve }) s
def VeChain.d (c : VeChain) : Nat := c.desc.toNat

/-- Queue a chain; a chain fed by the array takes the next ordinal. -/
def veEnqueue (t task : Nat) (desc : W1024) (s : State) : State :=
  modTuft t (fun y =>
    let c : VeChain := { stamp := y.stamp, task := task, desc := desc, ord := y.ve.ord }
    { y with stamp := y.stamp + 1,
             ve := { y.ve with queue := y.ve.queue ++ [c], ord := if veSrcMx desc.toNat then y.ve.ord + 1 else y.ve.ord } }) s

/-- A chain waits for a matrix operation issued before it on its Tuft, the one it is fed by included (R181). -/
def veHazard (s : State) (t : Nat) (c : VeChain) : Bool :=
  let m := (tuft s t).mx
  (m.running ++ m.queue).any (fun o => o.stamp < c.stamp &&
    (overlap (veOuts c.d) (regionsIn o.d ++ regionsC o.d) || overlap (veReads c.d) (regionsC o.d)))

/-- Checks of a chain: Table VE-8, and the shape of the operation it pairs with when that is known. -/
def veAllChecks (s : State) (t limit : Nat) (c : VeChain) : List (Bool × Nat) :=
  veChecks c.d limit ++ [(veSrcMx c.d && (match mxByOrd s t c.ord with
    | some (_, o) => (veM c.d, veN c.d) != mxShape t o.d
    | none => false), 0x0454)]

/-- CHAIN_START: the head of the queue, with no chain running and no hazard, is checked and runs, or aborts the task. -/
def veStart (t : Nat) (s : State) : State :=
  let v := (tuft s t).ve
  match v.running, v.queue with
  | none, c :: q =>
    if veHazard s t c then s
    else match taskGet s c.task with
      | none => s
      | some r =>
        if r.phase != .running then s
        else match lowestCode (veAllChecks s t (tkLimit r.d) c) with
          | some code => abortTask c.task code s
          | none => wakePaths t (fun p => p == .queue) (veSet t (fun v => { v with running := some c, queue := q }) s)
  | _, _ => s

/-- FMT_C of the operation a chain is fed by. -/
def VeChain.srcFmt (c : VeChain) : Fmt := (fmtOfCode c.srcCode).getD .fp32

/-- CHAIN_COMPLETE: all output, reduction and skip map are written (R175). `inWait` counts units of 64 steps waited for the
foot, `wait` the steps its ports waited for grants. -/
def veComplete (t inWait wait : Nat) (s0 : State) : State :=
  let s := veTakeBlock t s0
  match (tuft s t).ve.running with
  | none => s0
  | some c =>
    let d := c.d
    if veSrcMx d && c.rows.length < veM d then s
    else
      let a := match taskGet s c.task with | some r => taskArith s r.d | none => {}
      let res := chainWrites d a s.ob.job.seed (chainInputs s t d a c.srcFmt c.rows)
      let bad := chainPoison s t c
      -- a chain that reads poison raises no arithmetic flag (R73)
      let u := taskFlags c.task t (if bad then 0 else res.2) (applyWrites t res.1 bad s)
      let u := bump veCountsChains t 1 (bump veCountsInWait t inWait (bump tsCountsStoreWait t wait u))
      finishAborted c.task (arrive t (veArrive d) (veSet t (fun v => { v with running := none }) u))

/-- VE_CHECK_FAIL: the running chain's outputs are poisoned, CHECK_ERR, a pending record, the task ends with 0x0458. -/
def veCheckFail (t lane : Nat) (s : State) : State :=
  match (tuft s t).ve.running with
  | none => s
  | some c =>
    let u := (veOuts c.d).foldl (fun u r => poisonRange (storeKey t r.1) r.2 u) s
    let u := pendErr { level := lvTuft, unit := t, subunit := lane, reason := 0x0458, cls := 0x01 } (raise flVeStatusCheckErr t u)
    finishAborted c.task (abortTask c.task 0x0458 (veSet t (fun v => { v with running := none, buf := none }) u))

end Sys2Proof.Machine
end

