-- ==== Sys2Proof/Machine/Operands.lean ====
section
/-! DEFINITION. Sys2Proof/Machine/Operands.lean: the instruction word of a thread group, its operand forms and register
checks, the register caches, and the issue of an instruction on the running path of a group (R187–R198, R214–R218). -/
namespace Sys2Proof.Machine

/-! ## The instruction word (Table TG-3) -/

def iw (i : Issue) : Nat := i.word.toNat
def iwClass (w : Nat) : Nat := bitsOf w 63 60
def iwPred (w : Nat) : Nat := bitsOf w 52 50
def iwPneg (w : Nat) : Bool := bitsOf w 49 49 == 1
def iwReuseA (w : Nat) : Bool := bitsOf w 48 48 == 1
def iwReuseB (w : Nat) : Bool := bitsOf w 47 47 == 1
def iwForm (w : Nat) : Nat := bitsOf w 46 45
def iwDst (w : Nat) : Nat := bitsOf w 44 37
def iwA (w : Nat) : Nat := bitsOf w 36 29
def iwB (w : Nat) : Nat := bitsOf w 28 21
def iwC (w : Nat) : Nat := bitsOf w 20 13
/-- PAIR (R190); OP and MOD together, which name what an operation is; ORDER and SCOPE of memory-class instructions (R202). -/
def iwPair (w : Nat) : Bool := bitsOf w 53 53 == 1
def iwCode (w : Nat) : Nat := bitsOf w 59 54 * 2 ^ 13 + bitsOf w 12 0
def iwScope (w : Nat) : Nat := bitsOf w 7 5
/-- ORDER asks for acquire: alone or with release. Log entry 144. -/
def iwAcquire (w : Nat) : Bool := bitsOf w 8 8 == 1
/-- The arrival counter in MOD [5:0]. -/
def iwCtr (w : Nat) : Nat := bitsOf w 5 0
/-- The scalar register of FORM 0b11. -/
def iwScalarB (w : Nat) : Nat := bitsOf w 26 21
/-- The 16-bit signed immediate of FORM 0b01 as a 64-bit pattern. -/
def iwImm16 (w : Nat) : Nat := ofSigned 64 (signedOf 16 (bitsOf w 28 13))
/-- Bytes of an instruction. -/
def iwBytes (w : Nat) : Nat := if iwForm w = 2 then 16 else 8

/-- Pipe of an instruction (Table TG-1): B, or the one that issued it where the class leaves a choice. -/
def onPipeB (i : Issue) : Bool :=
  let c := iwClass (iw i)
  if c = 0 ∨ c = 3 ∨ c = 14 then i.pipeB else !(c == 1 || c == 2)

/-! ## Groups -/

def groupGet (s : State) (t g : Nat) : Option Group := tget (tuft s t).groups g
def groupMod (t g : Nat) (f : Group → Group) (s : State) : State :=
  modTuft t (fun y => { y with groups := y.groups.map (fun e => if e.1 = g then (e.1, f e.2) else e) }) s

/-- The path of a group that runs. -/
def curPath (g : Group) : Option TPath :=
  if g.paths.any (fun p => p.park == .fault) then none
  else g.paths.find? (fun p => runnable p && lowLane p.lanes == g.cur)

/-- Change the running path. -/
def modCur (f : TPath → TPath) (g : Group) : Group :=
  { g with paths := g.paths.map (fun p => if runnable p && lowLane p.lanes == g.cur then f p else p) }

/-- The program counter of a path moves on. -/
def TPath.goTo (p : TPath) (pc : Nat) : TPath := { p with pc := pc, issued := false }

/-- Choose the path of a group that runs next, counting a switch (R215, R216). -/
def scheduleGroup (t g : Nat) (s : State) : State :=
  match groupGet s t g with
  | none => s
  | some x =>
    let r := schedule x
    bump tgCountsRotations t (bit r.2) (groupMod t g (fun _ => r.1) s)

/-- The group rotates to the next runnable path, when there is another (R216). -/
def rotate (t g : Nat) (s : State) : State :=
  match groupGet s t g with
  | none => s
  | some x =>
    match nextRunnable x.paths x.cur with
    | some p => if lowLane p.lanes = x.cur then s else bump tgCountsRotations t 1 (groupMod t g (fun x => { x with cur := lowLane p.lanes }) s)
    | none => s

/-! ## Registers (R187, R195) -/

def vreg (g : Group) (r lane : Nat) : Nat := if r = 255 then 0 else (tgetD g.vregs (r * 32 + lane) 0).toNat
def vpois (g : Group) (r lane : Nat) : Nat := if r = 255 then 0 else tgetD g.vpoison (r * 32 + lane) 0

/-- A value of `n` registers from `r` on, lowest first; vz is zero throughout (log entry 21). -/
def vregs (g : Group) (r n lane : Nat) : Nat :=
  if r = 255 then 0 else (List.range n).foldl (fun v k => v + vreg g (r + k) lane * 2 ^ (32 * k)) 0
def vpoiss (g : Group) (r n lane : Nat) : Nat := if r = 255 then 0 else (List.range n).foldl (fun v k => max v (vpois g (r + k) lane)) 0

/-- Write `n` registers from `r` on in a lane; vz discards. -/
def setVregs (r n lane v bad : Nat) (g : Group) : Group :=
  if r = 255 then g
  else (List.range n).foldl (fun g k =>
    let key := (r + k) * 32 + lane
    { g with vregs := tput g.vregs key (BitVec.ofNat 32 (v >>> (32 * k)))
             vpoison := if bad = 0 then tdel g.vpoison key else tput g.vpoison key bad }) g

def sreg (g : Group) (r : Nat) : Nat := (tgetD g.sregs r 0).toNat
def setSreg (r v : Nat) (g : Group) : Group := { g with sregs := tput g.sregs r (BitVec.ofNat 64 v) }
def predReg (g : Group) (p : Nat) : Nat := (tgetD g.preds p 0).toNat
def predPois (g : Group) (p lane : Nat) : Nat := tgetD g.ppoison (p * 32 + lane) 0

/-- The lanes a mask names. -/
def lanesOf (m : Nat) : List Nat := (List.range 32).filter (fun i => m.testBit i)

/-- Guard mask of an instruction (R197). -/
def guardMask (g : Group) (w : Nat) : Nat :=
  if iwPred w = 0 then 0xFFFFFFFF
  else if iwPneg w then 0xFFFFFFFF - predReg g (iwPred w) else predReg g (iwPred w)

/-! ## Issue -/

/-- What an instruction runs on: Tuft, group number and state, lanes of its path, lanes its guard leaves, address of the
next instruction, its task, whether it had issued and waited. -/
structure ICtx where
  t : Nat
  gi : Nat
  g : Group
  lanes : Nat
  act : Nat
  pc : Nat
  next : Nat
  task : TaskRec
  again : Bool := false

/-- Registers per thread of the group's task. -/
def ICtx.regs (c : ICtx) : Nat := tkRegs c.task.d

/-- A vector register operand of `n` registers is refused (R195). -/
def badV (c : ICtx) (r n : Nat) : Bool := r != 255 && decide (c.regs < r + n)

/-- Operand B of an instruction on scalar registers. -/
def scalarB (i : Issue) (g : Group) : Nat :=
  let w := iw i
  match iwForm w with
  | 0 => sreg g (iwB w)
  | 1 => iwImm16 w
  | 2 => i.word2.toNat % 2 ^ 32
  | _ => sreg g (iwScalarB w)

/-- Where operand B comes from and what it is in a lane, `n` registers wide. -/
def operandB (i : Issue) (c : ICtx) (n lane : Nat) : Nat :=
  if iwForm (iw i) = 0 then vregs c.g (iwB (iw i)) n lane else scalarB i c.g % 2 ^ (32 * n)

/-- Operand C in a lane: a register, or nothing in FORM 0b01. -/
def operandC (i : Issue) (c : ICtx) (n lane : Nat) : Nat := if iwForm (iw i) = 1 then 0 else vregs c.g (iwC (iw i)) n lane

/-! ## What an instruction uses of its group -/

/-- Vector registers written at DST, or read there by a store, and read at SRC_A, SRC_B and SRC_C, how many from each field on;
and the fields that name a scalar register or a predicate. -/
structure RegUse where
  vd : Nat := 0
  data : Nat := 0
  va : Nat := 0
  vb : Nat := 0
  vc : Nat := 0
  sd : Bool := false
  sa : Bool := false
  sb : Bool := false
  pd : Bool := false
  pa : Bool := false
  pb : Bool := false

/-- The vector registers from `r` on; vz is none. -/
def vfield (r n : Nat) : List Nat := if r = 255 then [] else (List.range n).map (r + ·)

/-- Vector registers an instruction reads, with REUSE: store data, A, B in FORM 0b00, C but in FORM 0b01. -/
def sourceRegs (i : Issue) (u : RegUse) : List (Nat × Bool) :=
  let w := iw i
  let field := fun (r n : Nat) (reuse : Bool) => (vfield r n).map (fun k => (k, reuse))
  field (iwDst w) u.data false ++ field (iwA w) u.va (iwReuseA w) ++ (if iwForm w = 0 then field (iwB w) u.vb (iwReuseB w) else []) ++
    (if iwForm w = 1 then [] else field (iwC w) u.vc false)

/-- Every register an instruction reads: its guard among them, and the scalar register of FORM 0b11. -/
def readNames (i : Issue) (u : RegUse) : List RegName :=
  let w := iw i
  (sourceRegs i u).map (fun r => .v r.1) ++ (if u.sa then [.s (iwA w)] else []) ++
    (if u.sb && iwForm w == 0 then [.s (iwB w)] else if iwForm w = 3 then [.s (iwScalarB w)] else []) ++
    (if u.pa then [.p (iwA w)] else []) ++ (if u.pb then [.p (iwB w)] else []) ++ [.p (iwPred w)]

/-- Every register an instruction writes. -/
def writeNames (i : Issue) (u : RegUse) : List RegName :=
  let w := iw i
  (vfield (iwDst w) u.vd).map .v ++ (if u.sd then [.s (iwDst w)] else []) ++ (if u.pd then [.p (iwDst w)] else [])

/-- What is refused at decode (R195, R198): the second word of FORM 0b10, the zero bits of FORM 0b11, a vector register at or
above REGS, a register field that FORM 0b01 takes for its immediate, a scalar field above s63, a predicate field other than p1–p7. -/
def useChecks (i : Issue) (c : ICtx) (u : RegUse) : List (Option Nat) :=
  let w := iw i
  let f := iwForm w
  let badS := fun (r : Nat) => decide (63 < r)
  let badP := fun (p : Nat) => p == 0 || decide (7 < p)
  [failIf ((f == 2 && bitsOf i.word2.toNat 63 32 != 0) || (f == 3 && bitsOf w 28 27 != 0)) 0x0460,
   failIf ((u.vd != 0 && badV c (iwDst w) u.vd) || (u.data != 0 && badV c (iwDst w) u.data) || (u.va != 0 && badV c (iwA w) u.va) ||
     (u.vb != 0 && f == 0 && badV c (iwB w) u.vb) || (u.vc != 0 && f != 1 && badV c (iwC w) u.vc)) 0x0461,
   failIf ((u.vc != 0 && f == 1) || (u.pb && f != 0)) 0x0460,
   failIf ((u.sd && badS (iwDst w)) || (u.sa && badS (iwA w)) || (u.sb && f == 0 && badS (iwB w)) ||
     (u.pd && badP (iwDst w)) || (u.pa && badP (iwA w)) || (u.pb && badP (iwB w))) 0x0460]

/-- Poison of what a lane's result is computed from: its guard, its vector operands, store data apart. -/
def operandPoison (i : Issue) (c : ICtx) (u : RegUse) (lane : Nat) : Nat :=
  let w := iw i
  max (if iwPred w = 0 then 0 else predPois c.g (iwPred w) lane) (max (vpoiss c.g (iwA w) u.va lane)
    (max (if iwForm w = 0 then vpoiss c.g (iwB w) u.vb lane else 0) (if iwForm w = 1 then 0 else vpoiss c.g (iwC w) u.vc lane)))

/-! ## The register caches (R194) -/

/-- A register cache after a use: the entry is the most recent of 8. -/
def rcUse (e : Nat × Nat) (l : List (Nat × Nat)) : List (Nat × Nat) := (e :: l.filter (· != e)).take 8

/-- Operand reads and the result's entry: RC_HITS, BANK_EXTRA, the caches. An entry stays until another replaces it; what it
holds is what the file holds. Log entry 145. -/
def useCaches (i : Issue) (c : ICtx) (u : RegUse) (s : State) : State :=
  let x := tuft s c.t
  let src := sourceRegs i u
  let hit := fun (r : Nat) => x.rcA.contains (c.gi, r) || x.rcB.contains (c.gi, r)
  let missed := (src.filter (fun r => !hit r.1)).map (·.1)
  let extra := ((List.range 4).map (fun b => (missed.filter (fun r => r % 4 == b)).length - 1)).foldl (· + ·) 0
  let enter := fun (b : Bool) (l : List (Nat × Nat)) =>
    let l := src.foldl (fun l r => if l.contains (c.gi, r.1) then rcUse (c.gi, r.1) l
      else if r.2 && b == onPipeB i && !hit r.1 then rcUse (c.gi, r.1) l else l) l
    if b == onPipeB i && c.act != 0 then (vfield (iwDst (iw i)) u.vd).foldl (fun l r => rcUse (c.gi, r) l) l else l
  bump tgCountsRcHits c.t (src.length - missed.length) (bump tgCountsBankExtra c.t extra
    (modTuft c.t (fun y => { y with rcA := enter false y.rcA, rcB := enter true y.rcB }) s))

/-! ## Issue (R190, R191) -/

/-- Groups by their last issue to a pipe, most recent first. -/
def issuedTo (x : TuftState) (pipeB : Bool) : List Nat := if pipeB then x.issB else x.issA

/-- Group `a` issued to a pipe less recently than `b`; a group that never did comes before every one that did. -/
def lessRecent (l : List Nat) (a b : Nat) : Bool := l.contains b && !(l.takeWhile (· != b)).contains a && a != b

/-- The pipe's turn is this group's: no other group that is ready on the pipe issued to it less recently. -/
def itsTurn (i : Issue) (x : TuftState) : Bool :=
  i.ready.all (fun g => !lessRecent (issuedTo x (onPipeB i)) g.toNat i.group.toNat ||
    match tget x.groups g.toNat with | some y => (curPath y).isNone | none => true)

/-- The instruction shares its Tuft step with the one before it: that went to the other pipe and, where both are of one group,
has PAIR and writes no register that this one reads or writes. -/
def joinsStep (i : Issue) (c : ICtx) (u : RegUse) (x : TuftState) : Bool :=
  i.dual && match x.step with
    | some e => e.pipeB != onPipeB i &&
        (e.group != c.gi || (e.pair && (readNames i u ++ writeNames i u).all (fun r => !e.writes.contains r)))
    | none => false

/-- The instruction issues: ISSUED, DUAL, the order of the pipe, the register caches; the path holds it until it goes on. An
instruction that had issued and waited takes no second slot. -/
def counted (i : Issue) (c : ICtx) (u : RegUse) (s : State) : State :=
  if c.again then s
  else
    let joins := joinsStep i c u (tuft s c.t)
    let put := fun (l : List Nat) => c.gi :: l.filter (· != c.gi)
    let t := modTuft c.t (fun x => { x with
      issA := if onPipeB i then x.issA else put x.issA
      issB := if onPipeB i then put x.issB else x.issB
      step := if joins then none else some { group := c.gi, pipeB := onPipeB i, pair := iwPair (iw i), writes := writeNames i u } }) s
    useCaches i c u (bump tgCountsIssued c.t 1 (bump tgCountsDual c.t (bit joins)
      (groupMod c.t c.gi (modCur (fun p => { p with issued := true })) t)))

/-- The running path goes on after the instruction. -/
def advance (c : ICtx) (s : State) : State := groupMod c.t c.gi (modCur (·.goTo c.next)) s

/-- The lines of an instruction are in the instruction cache. -/
def lineHeld (x : TuftState) (pc : Nat) (w : Nat) : Bool :=
  x.icache.contains (pc / 128) && x.icache.contains ((pc + iwBytes w - 1) / 128)

/-- An instruction of class `cls` on the running path of its group: refused with the lowest failing code, which aborts the
task, or run. It issues only where its lines are in the instruction cache and its pipe's turn is its group's; where its guard
leaves no lane it does nothing but issue. Log entry 143. -/
def issueOp (cls : Nat) (i : Issue) (use : ICtx → State → RegUse) (checks : ICtx → State → List (Option Nat))
    (go : ICtx → State → State) (s : State) : State :=
  let t := i.tuft.val
  let gi := i.group.toNat
  match groupGet s t gi with
  | none => s
  | some g =>
    match curPath g, taskGet s g.task with
    | some p, some r =>
      if r.phase != .running || !lineHeld (tuft s t) p.pc (iw i) || (!p.issued && !itsTurn i (tuft s t)) ||
          (iwClass (iw i) != cls && iwClass (iw i) != 15) then s
      else
        let c : ICtx := { t := t, gi := gi, g := g, lanes := p.lanes, act := p.lanes &&& guardMask g (iw i), pc := p.pc,
                          next := p.pc + iwBytes (iw i), task := r, again := p.issued }
        let code := lowest (failIf (iwClass (iw i) == 15 || i.opReserved) 0x0460 :: useChecks i c (use c s) ++ checks c s)
        if code != 0 then abortTask r.id code s
        else if c.act = 0 then advance c (counted i c (use c s) s)
        else go c (counted i c (use c s) s)
    | _, _ => s

/-- The running path parks, the next path is chosen. -/
def parkPath (c : ICtx) (pc : Nat) (k : Park) (s : State) : State :=
  scheduleGroup c.t c.gi (groupMod c.t c.gi (modCur (fun p => { (if pc = c.pc then p else p.goTo pc) with park := k })) s)

/-- What an instruction leaves in a lane: value, poison, arithmetic flags. -/
structure LaneVal where
  lane : Nat
  val : Nat
  bad : Nat := 0
  flags : Nat := 0

/-- The flags that lanes raise together: a poisoned lane raises none (R73). -/
def laneFlags (vs : List LaneVal) : Nat := vs.foldl (fun m v => if v.bad = 0 then m ||| v.flags else m) 0

/-- Write lane results, `n` registers each, with the flags of the task's arithmetic, and go on. -/
def writeLanes (c : ICtx) (dst n : Nat) (vs : List LaneVal) (s : State) : State :=
  advance c (groupMod c.t c.gi (fun g => vs.foldl (fun g v => setVregs dst n v.lane v.val v.bad g) g)
    (taskFlags c.task.id c.t (laneFlags vs) s))

end Sys2Proof.Machine
end

