-- ==== Sys2Proof/Machine/Flags.lean ====
section
/-! DEFINITION. Sys2Proof/Machine/Flags.lean: results and arithmetic flags of the thread-group classes 0x0 to 0x3
(R192, R193, R169, Tables NF-2, NF-9). -/
namespace Sys2Proof.Machine

/-- An integer or logic operation on patterns of `w` bits. A result the spec does not state is a free value that the operands and
the OP and MOD of the word, `code`, fix (R45). -/
def intResult (code : Nat) (op : IntOp) (w a b : Nat) : Nat :=
  let m := 2 ^ w
  let fv := Config.intValue code w a b
  match op with
  | .add => (a + b) % m
  | .sub => (a + m - b % m) % m
  | .mul => (a * b) % m
  | .and => a &&& b
  | .or => a ||| b
  | .xor => a ^^^ b
  | .shl => if b < w then (a <<< b) % m else fv % m
  | .shr => if b < w then a >>> b else fv % m
  | .sar => if b < w then ofSigned w (signedOf w a / (2 ^ b : Nat)) else fv % m
  | .minS => if signedOf w b < signedOf w a then b else a
  | .minU => min a b
  | .maxS => if signedOf w a < signedOf w b then b else a
  | .maxU => max a b
  | .mov => b
  | .other => fv % m
  | .reserved => 0

/-- The rounding mode of an instruction: its override, or the task's. -/
def modeOf (a : Arith) : RndMod → RMode
  | .task => a.rmode | .rne => .rne | .rz => .rz | .rd => .rd | .ru => .ru | .sr => .sr

/-- Arithmetic of thread-group instructions: SR rounds by RNE (R192). -/
def tgArith (a : Arith) (r : RndMod) : Arith := { a with rmode := if modeOf a r = .sr then .rne else modeOf a r }

/-- MIN and MAX of R169 with the flag of a signalling NaN. -/
def fpMinMax (isMin : Bool) (f : Fmt) (a : Arith) (x y : Num) : Nat × Nat :=
  (codeOf f (if isMin then numMin x y else numMax x y), snanFlag a.strict [x, y])

/-- A floating-point result, rounded once: code and flags. -/
def fpResult (op : FpOp) (f : Fmt) (a : Arith) (x y z : Num) : Nat × Nat :=
  match op with
  | .add => let s := addNum a.rmode x y; let r := roundNum f a 0 s.1; (r.1, r.2 ||| s.2 ||| snanFlag a.strict [x, y])
  | .mul => let p := mulNum x y; let r := roundNum f a 0 p.1; (r.1, r.2 ||| p.2 ||| snanFlag a.strict [x, y])
  | .fma => fmaRound f a 0 x y z
  | .min => fpMinMax true f a x y
  | .max => fpMinMax false f a x y
  | .div => divRound f a 0 x y
  | .sqrt => sqrtRound f a 0 x
  | .rcp => divRound f a 0 (.fin false 1 0) x
  | .reserved => (0, 0)

def cvtFmt : CvtFmt → Fmt
  | .fp32 => .fp32 | .fp64 => .fp64 | .xf16 => .xf16 | .xf8a => .xf8a | .xf8b => .xf8b | .xi8 => .xi8 | .s32 => .int32 | .s64 => .int32

/-- Registers a conversion operand takes. -/
def cvtRegs : CvtFmt → Nat
  | .fp64 => 2 | .s64 => 2 | _ => 1

/-- The number a conversion's source denotes. -/
def cvtSource (f : CvtFmt) (subn : Bool) (v : Nat) : Num × Nat :=
  match f with
  | .s64 => let x := signedOf 64 v; (.fin (decide (x < 0)) x.natAbs 0, 0)
  | f => decodeNum (cvtFmt f) subn (v % 2 ^ fmtBits (cvtFmt f))

/-- A converted value: code and flags; a draw serves only XF formats under SR (R193). -/
def cvtResult (src dst : CvtFmt) (a : Arith) (mode : RMode) (draw v : Nat) : Nat × Nat :=
  let x := cvtSource src a.subn v
  let xf := dst == .xf16 || dst == .xf8a || dst == .xf8b
  let ar : Arith := { a with rmode := if mode = .sr ∧ !xf then .rne else mode }
  let r := match dst with
    | .s32 => convertInt 32 a.strict ar.rmode x.1
    | .s64 => convertInt 64 a.strict ar.rmode x.1
    | .xi8 => toXi8 a.strict ar.rmode x.1
    | f => roundNum (cvtFmt f) ar draw x.1
  (r.1, r.2 ||| x.2 ||| snanFlag a.strict [x.1])

/-- A relation on an ordering; unordered makes only `ne` true. -/
def relHolds (r : CmpRel) (o : Option Ordering) : Bool :=
  match r, o with
  | .eq, some .eq => true
  | .ne, some .eq => false
  | .ne, _ => true
  | .lt, some .lt => true
  | .le, some .lt => true
  | .le, some .eq => true
  | .gt, some .gt => true
  | .ge, some .gt => true
  | .ge, some .eq => true
  | _, _ => false

/-- A compare of two patterns: result and flags. -/
def cmpResult (rel : CmpRel) (ty : CmpTy) (a : Arith) (x y : Nat) : Bool × Nat :=
  match ty with
  | .s32 => (relHolds rel (some (compare (signedOf 32 x) (signedOf 32 y))), 0)
  | .s64 => (relHolds rel (some (compare (signedOf 64 x) (signedOf 64 y))), 0)
  | .u32 => (relHolds rel (some (compare x y)), 0)
  | .u64 => (relHolds rel (some (compare x y)), 0)
  | .fp32 =>
    let u := decodeNum .fp32 a.subn x
    let v := decodeNum .fp32 a.subn y
    (relHolds rel (cmpNum u.1 v.1), u.2 ||| v.2 ||| snanFlag a.strict [u.1, v.1])
  | .fp64 =>
    let u := decodeNum .fp64 a.subn x
    let v := decodeNum .fp64 a.subn y
    (relHolds rel (cmpNum u.1 v.1), u.2 ||| v.2 ||| snanFlag a.strict [u.1, v.1])

/-! ## FP ADD atomics across lanes (R205) -/

/-- The sum of operands by window accumulation, rounded once: value and flags. Both roundings of an FP ADD use RNE; SUBN acts on
the operands and on what is rounded (R69, R192). -/
def laneSum (f : Fmt) (a : Arith) (xs : List Nat) : Num × Nat :=
  let ns := xs.map (decodeNum f a.subn)
  let r := windowReduce f a 0 (if f = .fp64 then 160 else 80) (ns.map (·.1))
  ((decodeNum f true r.1).1, r.2 ||| ns.foldl (fun m x => m ||| x.2) 0 ||| snanFlag a.strict (ns.map (·.1)))

/-- old + a lane sum, rounded once: code and flags. -/
def addLaneSum (f : Fmt) (task : Arith) (old : Nat) (xs : List Nat) : Nat × Nat :=
  let a : Arith := { task with rmode := .rne }
  let x := decodeNum f a.subn old
  if xs.isEmpty then (let r := roundNum f a 0 x.1; (r.1, r.2 ||| x.2 ||| snanFlag a.strict [x.1]))
  else
    let sum := laneSum f a xs
    let n := addNum .rne x.1 sum.1
    let r := roundNum f a 0 n.1
    (r.1, r.2 ||| n.2 ||| x.2 ||| sum.2 ||| snanFlag a.strict [x.1])

/-- A MIN or MAX atomic on FP32, which follows R169: code and flags. -/
def fpMinMaxCode (isMin : Bool) (a : Arith) (x y : Nat) : Nat × Nat :=
  let u := decodeNum .fp32 a.subn x
  let v := decodeNum .fp32 a.subn y
  let r := fpMinMax isMin .fp32 a u.1 v.1
  (r.1, r.2 ||| u.2 ||| v.2)

end Sys2Proof.Machine
end

