-- ==== Sys2Proof/Machine/Threads.lean ====
section
/-! DEFINITION. Sys2Proof/Machine/Threads.lean: launch and exit of groups, arithmetic, branches, barriers, arrival counters,
the issue of matrix operations, chains and invocations, instruction fetch and register-file errors (R187–R220). -/
namespace Sys2Proof.Machine

/-! ## Launch (R188, R234) -/

def allOnes : Nat := 2 ^ 64 - 1

/-- Residency of a Tuft for a task. -/
def residency (d : Nat) : Nat := min 48 (2048 / tkRegs d)

/-- Scalar registers at launch. -/
def launchRegs (s : State) (r : TaskRec) (t gi : Nat) : Table W64 :=
  let d := r.d
  let rep := if tkBindV d then ((repGet s (t / 8) (tkBindRegion d) (tkBindUnit d)).map (·.off)).getD allOnes else allOnes
  let vals := [tkArgs d, gi, t - r.tuft0, rep] ++
    (List.range 8).map (fun k => ((r.allocs.find? (fun a => a.1 == k)).map (fun a => a.2 * 4096)).getD allOnes) ++
    [t, if tkSeqV d then tkSeq d else allOnes]
  vals.mapIdx (fun k v => (k, BitVec.ofNat 64 v))

/-- GROUP_LAUNCH: the next waiting group of a Tuft becomes resident when residency allows and no Tuft of the
task is still gated (R487). The register caches keep what they hold until it is replaced (R194). -/
def launchGroup (t : Nat) (s : State) : State :=
  let x := tuft s t
  match x.waiting, taskOn s t with
  | gi :: rest, some r =>
    if r.phase == .running && (taskTufts r).all (fun u => getF s tuftCeilState u != 2) && x.groups.length < residency r.d then
      let g : Group := { idx := gi, task := r.id, paths := [{ lanes := 0xFFFFFFFF, pc := tkEntry r.d }], sregs := launchRegs s r t gi }
      setTuft t { x with waiting := rest, groups := tput x.groups gi g } s
    else s
  | _, _ => s

/-! ## Arithmetic classes (R190–R193) -/

/-- The n-th free value from the next one on. -/
def freeAt (s : State) (k : Nat) : Nat := Config.free (s.freeCtr + k)
def drawnN (n : Nat) (s : State) : State := { s with freeCtr := s.freeCtr + n }

def opReserved (b : Bool) : List (Option Nat) := [failIf b 0x0460]

/-- INTEGER_OP (class 0x0). -/
def doIntegerOp (i : Issue) (op : IntOp) (wide : Bool) (s : State) : State :=
  let n := if wide then 2 else 1
  let use : RegUse := { vd := n, va := if op == .mov then 0 else n, vb := n }
  issueOp 0 i (fun _ _ => use) (fun _ _ => opReserved (op == .reserved)) (fun c s =>
    writeLanes c (iwDst (iw i)) n ((lanesOf c.act).map (fun l =>
      { lane := l, val := intResult (iwCode (iw i)) op (32 * n) (vregs c.g (iwA (iw i)) n l) (operandB i c n l)
        bad := operandPoison i c use l })) s) s

/-- FP_OP (class 0x1). Divide, square root and reciprocal exist in FP32 only. -/
def doFpOp (i : Issue) (op : FpOp) (dbl : Bool) (rnd : RndMod) (s : State) : State :=
  let n := if dbl then 2 else 1
  let f : Fmt := if dbl then .fp64 else .fp32
  let use : RegUse := { vd := n, va := n, vb := if op == .sqrt || op == .rcp then 0 else n, vc := if op == .fma then n else 0 }
  issueOp 1 i (fun _ _ => use) (fun _ _ => opReserved (op == .reserved || (dbl && (op == .div || op == .sqrt || op == .rcp)))) (fun c s =>
    let a := tgArith (taskArith s c.task.d) rnd
    writeLanes c (iwDst (iw i)) n ((lanesOf c.act).map (fun l =>
      let x := decodeNum f a.subn (vregs c.g (iwA (iw i)) n l)
      let y := decodeNum f a.subn (operandB i c n l)
      let z := decodeNum f a.subn (operandC i c n l)
      let r := fpResult op f a x.1 y.1 z.1
      { lane := l, val := r.1, bad := operandPoison i c use l
        flags := r.2 ||| x.2 ||| (if use.vb = 0 then 0 else y.2) ||| (if use.vc = 0 then 0 else z.2) })) s) s

/-- A value of `n` registers that every active lane receives. -/
def sameLanes (i : Issue) (n : Nat) (f : ICtx → State → Nat → Nat) (s : State) : State :=
  issueOp 2 i (fun _ _ => { vd := n }) (fun _ _ => []) (fun c s =>
    writeLanes c (iwDst (iw i)) n ((lanesOf c.act).map (fun l =>
      { lane := l, val := f c s l, bad := operandPoison i c { vd := n } l })) s) s

/-- A conversion draws (R193): SR into an XF format. -/
def cvtDraws (a : Arith) (dst : CvtFmt) (rnd : RndMod) : Bool :=
  modeOf a rnd == .sr && (dst == .xf16 || dst == .xf8a || dst == .xf8b)

/-- CONVERT_OP (class 0x2): conversions, identity, the package timer. -/
def doConvertOp (i : Issue) (op : CvtOp) (s : State) : State :=
  let w := iw i
  match op with
  | .reserved => issueOp 2 i (fun _ _ => {}) (fun _ _ => opReserved true) (fun _ s => s) s
  | .laneId => sameLanes i 1 (fun _ _ l => l) s
  | .groupId => sameLanes i 1 (fun c _ _ => c.g.idx) s
  | .tuftInTask => sameLanes i 1 (fun c _ _ => c.t - c.task.tuft0) s
  | .tuftNo => sameLanes i 1 (fun c _ _ => c.t) s
  | .timer => sameLanes i 2 (fun c s _ => timeOn s (meadowOfTuft c.t)) s
  | .convert src dst rnd =>
    let use := fun (c : ICtx) (s : State) =>
      let d := cvtDraws (taskArith s c.task.d) dst rnd
      ({ vd := cvtRegs dst, va := cvtRegs src, vc := bit d, sb := d } : RegUse)
    issueOp 2 i use (fun _ _ => []) (fun c s =>
      let a := taskArith s c.task.d
      let key := scalarB i c.g
      writeLanes c (iwDst w) (cvtRegs dst) ((lanesOf c.act).map (fun l =>
        let draw := srDraw s.ob.job.seed (key / 2 ^ 32 % 2 ^ 32) (key % 2 ^ 32) 0 0 (vreg c.g (iwC w) l)
        let r := cvtResult src dst a (modeOf a rnd) draw (vregs c.g (iwA w) (cvtRegs src) l)
        { lane := l, val := r.1, bad := operandPoison i c (use c s) l, flags := r.2 })) s) s

/-- Write the active lanes' bits of a predicate, with their poison, and go on. Log entry 146. -/
def writePred (c : ICtx) (p : Nat) (vs : List LaneVal) (s : State) : State :=
  let bits := vs.foldl (fun m v => m + v.val % 2 * 2 ^ v.lane) 0
  advance c (groupMod c.t c.gi (fun g =>
    { g with preds := tput g.preds p (BitVec.ofNat 32 ((predReg g p &&& (0xFFFFFFFF - c.act)) ||| (bits &&& c.act)))
             ppoison := vs.foldl (fun l v => if v.bad = 0 then tdel l (p * 32 + v.lane) else tput l (p * 32 + v.lane) v.bad) g.ppoison })
    (taskFlags c.task.id c.t (laneFlags vs) s))

/-- Logic of two predicates, a bit of each lane. -/
def predLogic (i : Issue) (f : Nat → Nat → Nat) (s : State) : State :=
  let w := iw i
  issueOp 3 i (fun _ _ => { pd := true, pa := true, pb := true }) (fun _ _ => []) (fun c s =>
    let bits := f (predReg c.g (iwA w)) (predReg c.g (iwB w))
    writePred c (iwDst w) ((lanesOf c.act).map (fun l =>
      { lane := l, val := bits >>> l
        bad := max (operandPoison i c {} l) (max (predPois c.g (iwA w) l) (predPois c.g (iwB w) l)) })) s) s

/-- COMPARE_OP (class 0x3). -/
def doCompareOp (i : Issue) (op : CmpOp) (s : State) : State :=
  let w := iw i
  match op with
  | .reserved => issueOp 3 i (fun _ _ => {}) (fun _ _ => opReserved true) (fun _ s => s) s
  | .and => predLogic i (· &&& ·) s
  | .or => predLogic i (· ||| ·) s
  | .xor => predLogic i (· ^^^ ·) s
  | .andn => predLogic i (fun a b => a &&& (0xFFFFFFFF - b)) s
  | .cmp rel ty =>
    let n := if ty == .s64 || ty == .u64 || ty == .fp64 then 2 else 1
    let use : RegUse := { va := n, vb := n, pd := true }
    issueOp 3 i (fun _ _ => use) (fun _ _ => []) (fun c s =>
      let a := taskArith s c.task.d
      writePred c (iwDst w) ((lanesOf c.act).map (fun l =>
        let r := cmpResult rel ty a (vregs c.g (iwA w) n l) (operandB i c n l)
        { lane := l, val := bit r.1, bad := operandPoison i c use l, flags := r.2 })) s) s

/-- SCALAR_OP (class 0xE): once for the path, on scalar registers (log entry 20). -/
def doScalarOp (i : Issue) (op : IntOp) (wide : Bool) (s : State) : State :=
  let w := iw i
  let n := if wide then 64 else 32
  issueOp 14 i (fun _ _ => { sd := true, sa := op != .mov, sb := true }) (fun _ _ => opReserved (op == .reserved)) (fun c s =>
    advance c (groupMod c.t c.gi
      (setSreg (iwDst w) (intResult (iwCode w) op n (sreg c.g (iwA w) % 2 ^ n) (scalarB i c.g % 2 ^ n))) s)) s

/-! ## Control (R212–R216) -/

/-- The lanes of a mask go to `target` and park there as `k` says, the others go on at `other`; the running path is the one of
the lowest lane. -/
def splitPath (c : ICtx) (taken target other : Nat) (s : State) (k : Park := .run) : State :=
  groupMod c.t c.gi (fun g =>
    let rest := g.paths.filter (fun p => !(runnable p && lowLane p.lanes == g.cur))
    let new := [({ lanes := taken, pc := target, park := k } : TPath), { lanes := c.lanes - taken, pc := other }]
    { g with paths := sortPaths (new.filter (fun p => p.lanes != 0) ++ rest) }) s

/-- The group rotates from the path of lanes `m` to the next runnable path, where there is another (R216). -/
def yieldFrom (c : ICtx) (m : Nat) (s : State) : State :=
  rotate c.t c.gi (groupMod c.t c.gi (fun g => { g with cur := lowLane m }) s)

/-- BRANCH (class 0x4): branch, call or return of the lanes the guard leaves. A backward branch yields. -/
def doBranch (i : Issue) (op : BrOp) (s : State) : State :=
  let w := iw i
  let goTo := fun (c : ICtx) (target : Nat) (s : State) =>
    let u := splitPath c c.act target c.next s
    if target ≤ c.pc then yieldFrom c c.act u else u
  match op with
  | .reserved => issueOp 4 i (fun _ _ => {}) (fun _ _ => opReserved true) (fun _ s => s) s
  | .jump target => issueOp 4 i (fun _ _ => {}) (fun _ _ => []) (fun c s => goTo c target.toNat s) s
  | .call target => issueOp 4 i (fun _ _ => { sd := true }) (fun _ _ => []) (fun c s =>
      goTo c target.toNat (groupMod c.t c.gi (setSreg (iwDst w) c.next) s)) s
  | .ret => issueOp 4 i (fun _ _ => { sa := true }) (fun _ _ => []) (fun c s => goTo c (sreg c.g (iwA w) % 2 ^ 57) s) s

/-- Groups of a task on one of its Tufts. -/
def groupsOnTuft (r : TaskRec) (t : Nat) : Nat :=
  let n := tkTufts r.d
  (tkGroups r.d + n - 1 - (t - r.tuft0)) / n

/-- A barrier after a group has left: it has arrived for every later phase if it was counted. -/
def barrierLeave (gi : Nat) (b : Barrier) : Barrier := if b.arrived.contains gi then { b with gone := setAdd b.gone gi } else b

/-- Discard the entries of a task that are still gated when its last group has exited: 0x0176 (R254). -/
def dropGated (id : Nat) (s : State) : State :=
  let gated := s.copies.recs.filter (fun c => ownedByTask id c && cpGateV c.desc.toNat && !gateOpen s c &&
    s.copies.ents.any (fun e => e.copy == c.id && e.first && !e.moving))
  if gated.isEmpty then s
  else gated.foldl (fun t c => creditFree c.sward c.sub (dropCopies (fun x => x.id == c.id) t)) (taskReport id 0x0176 s)

/-- A group of a task has exited. -/
def groupExit (t gi : Nat) (r : TaskRec) (s : State) : State :=
  let u := modTuft t (fun y => { y with groups := tdel y.groups gi, issA := y.issA.filter (· != gi), issB := y.issB.filter (· != gi), bars := y.bars.map (fun e => (e.1, barrierLeave gi e.2)) }) s
  let u := { u with work.swardBars := u.work.swardBars.map (fun e => if e.2.task == r.id then (e.1, barrierLeave gi e.2) else e) }
  let u := taskMod r.id (fun r => { r with groupsLeft := r.groupsLeft - 1 }) u
  if r.groupsLeft ≤ 1 then dropGated r.id u else u

/-- THREAD_EXIT: the lanes the guard leaves exit. -/
def doThreadExit (i : Issue) (s : State) : State :=
  issueOp 4 i (fun _ _ => {}) (fun _ _ => []) (fun c s =>
    let left := c.lanes - c.act
    if left != 0 then
      groupMod c.t c.gi (fun g =>
        let h := modCur (fun p => { p.goTo c.next with lanes := left }) g
        { h with paths := sortPaths h.paths, cur := lowLane left }) s
    else
      let rest := c.g.paths.filter (fun p => !(runnable p && lowLane p.lanes == c.g.cur))
      if rest.isEmpty then groupExit c.t c.gi c.task s
      else scheduleGroup c.t c.gi (groupMod c.t c.gi (fun g => { g with paths := rest }) s)) s

/-- JOIN and BAR.W: the lanes the guard leaves park, as a path of their own if others go on. -/
def doPark (k : Park) (i : Issue) (s : State) : State :=
  issueOp 4 i (fun _ _ => {}) (fun _ _ => []) (fun c s =>
    scheduleGroup c.t c.gi (splitPath c c.act c.next c.next s k)) s
def doJoin (i : Issue) (s : State) : State := doPark .join i s
def doBarW (i : Issue) (s : State) : State := doPark .barW i s

/-- SCOPE of a memory-class instruction holds no reserved value (R202). -/
def scopeChecks (i : Issue) : List (Option Nat) := opReserved (decide (5 < iwScope (iw i)))

/-- FENCE: accesses take effect in order, so nothing but the issue remains (R203). A `reserved` OP or MOD of its class is refused
(R198, log entry 20). -/
def doFence (i : Issue) (reserved : Bool) (s : State) : State :=
  issueOp 8 i (fun _ _ => {}) (fun _ _ => opReserved reserved ++ scopeChecks i) advance s

/-! ## Barriers (R212) -/

def barGet (s : State) (t : Nat) (sward : Bool) (idx : Nat) : Option Barrier :=
  if sward then tget s.work.swardBars (t / 8 * 8 + idx) else tget (tuft s t).bars idx
def barPut (t : Nat) (sward : Bool) (idx : Nat) (b : Option Barrier) (s : State) : State :=
  let put := fun (tb : Table Barrier) (k : Nat) => match b with | some x => tput tb k x | none => tdel tb k
  if sward then { s with work.swardBars := put s.work.swardBars (t / 8 * 8 + idx) }
  else modTuft t (fun y => { y with bars := put y.bars idx }) s

/-- The barrier is reached: it releases every parked path and resets. -/
def barRelease (c : ICtx) (sward : Bool) (idx : Nat) (b : Barrier) (s : State) : State :=
  let u := barPut c.t sward idx (if b.gone.isEmpty then none else some { b with arrived := b.gone }) s
  (if sward then taskTufts c.task else [c.t]).foldl (fun u x => wakePaths x (fun p => p == .bar sward idx) u) u

/-- BAR.ARRIVE and BAR.SYNC: the participant count comes from scalar SRC_A (log entry 22). -/
def doBar (sync : Bool) (i : Issue) (sward : Bool) (idx : Nat) (s : State) : State :=
  let w := iw i
  issueOp 8 i (fun _ _ => { sa := true }) (fun c _ =>
      let n := sreg c.g (iwA w)
      [failIf (sward && decide (7 < idx)) 0x0460,
       failIf (c.act != 0 && (n == 0 || decide ((if sward then tkGroups c.task.d else groupsOnTuft c.task c.t) < n))) 0x0467]) (fun c s =>
    let b := match barGet s c.t sward idx with
      | some b => if b.task = c.task.id then b else { task := c.task.id, count := sreg c.g (iwA w) }
      | none => { task := c.task.id, count := sreg c.g (iwA w) }
    let b := { b with arrived := setAdd b.arrived c.gi }
    let u := if sync then parkPath c c.next (.bar sward idx) s else advance c s
    if b.count ≤ b.arrived.length then barRelease c sward idx b u else barPut c.t sward idx (some b) u) s

/-! ## Arrival counters (R208) -/

def doArvSet (i : Issue) (s : State) : State :=
  issueOp 9 i (fun _ _ => { sa := true }) (fun _ _ => []) (fun c s => arvPut c.t (iwCtr (iw i)) (sreg c.g (iwA (iw i))) (advance c s)) s
def doArvAdd (i : Issue) (s : State) : State :=
  issueOp 9 i (fun _ _ => { sa := true }) (fun _ _ => []) (fun c s =>
    arvPut c.t (iwCtr (iw i)) (arvGet s c.t (iwCtr (iw i)) + sreg c.g (iwA (iw i))) (advance c s)) s
def doArvRead (i : Issue) (s : State) : State :=
  issueOp 9 i (fun _ _ => { sd := true }) (fun _ _ => []) (fun c s =>
    advance c (groupMod c.t c.gi (setSreg (iwDst (iw i)) (arvGet s c.t (iwCtr (iw i)))) s)) s
def doArvWait (i : Issue) (s : State) : State :=
  issueOp 9 i (fun _ _ => { sa := true }) (fun _ _ => []) (fun c s =>
    let k := iwCtr (iw i)
    let tgt := sreg c.g (iwA (iw i)) % 2 ^ 32
    if arvReached (arvGet s c.t k) tgt then advance c s else parkPath c c.next (.arv k tgt) s) s

/-! ## Issue of matrix operations, chains and invocations (R210) -/

/-- Checks of a descriptor's offset: aligned to its size, inside the allocation. -/
def descChecks (i : Issue) (c : ICtx) (n : Nat) : List (Option Nat) :=
  let off := sreg c.g (iwA (iw i))
  [failIf (c.act != 0 && off % n != 0) 0x0465, failIf (c.act != 0 && decide (tkLimit c.task.d < off + n)) 0x0463]

/-- The descriptor an issue names. -/
def descAt (i : Issue) (c : ICtx) (n : Nat) (s : State) : Nat := storeNum s c.t (sreg c.g (iwA (iw i))) n

def doMatrixIssue (i : Issue) (s : State) : State :=
  issueOp 11 i (fun _ _ => { sa := true }) (fun c _ => descChecks i c 64) (fun c s =>
    let d := descAt i c 64 s
    if mxRoom s c.t d then mxEnqueue c.t c.task.id (BitVec.ofNat 512 d) (advance c s) else parkPath c c.pc .queue s) s

def doChainIssue (i : Issue) (s : State) : State :=
  issueOp 12 i (fun _ _ => { sa := true }) (fun c _ => descChecks i c 128) (fun c s =>
    if (tuft s c.t).ve.queue.length < 4 then veEnqueue c.t c.task.id (BitVec.ofNat 1024 (descAt i c 128 s)) (advance c s)
    else parkPath c c.pc .queue s) s

def doRouterIssue (i : Issue) (s : State) : State :=
  issueOp 13 i (fun _ _ => { sa := true }) (fun c _ => descChecks i c 64) (fun c s =>
    let m := meadowOfTuft c.t
    if invWaiting s m < 8 then
      enqueueInv m (BitVec.ofNat 512 (descAt i c 64 s)) (.task c.task.id c.t (iwCtr (iw i))) (advance c s)
    else parkPath c c.pc .queue s) s

/-- Paths of a Meadow that wait for a queue try again. -/
def wakeMeadowQueues (m : Nat) (s : State) : State :=
  ((s.tufts.map (·.1)).filter (fun t => t / 128 == m)).foldl (fun u t => wakePaths t (fun p => p == .queue) u) s

/-! ## Fetch and register-file errors (R196, R197, R218) -/

/-- The access of a path's fetch or load. -/
def pathAccess (t gi lane agent va : Nat) (r : TaskRec) : XAcc :=
  { unit := meadowOfTuft t, sward := t / 8 % 16, tuft := t % 8, agent := agent, va := va,
    seq := if tkSeqV r.d then some (tkSeq r.d) else none, who := .path t gi lane }

/-- The running path of a group stalls on a fault; the whole group stalls with it (R199). -/
def stallPath (t gi : Nat) (s : State) : State := groupMod t gi (modCur (fun p => { p with park := .fault })) s

/-- IFETCH_LINE_FILL: the line at a group's program counter, or where the cache holds that, the line of the word after it, is
translated and filled; poison ends the task with 0x0469. -/
def fetchLine (t gi : Nat) (s : State) : State :=
  match groupGet s t gi with
  | none => s
  | some g =>
    match curPath g, taskGet s g.task with
    | some p, some r =>
      if r.phase != .running then s
      else
        let line := if (tuft s t).icache.contains (p.pc / 128) then (p.pc + 15) / 128 else p.pc / 128
        let guard := regionGuard s (line * 128) 128 false
        if guard != 0 then abortTask r.id guard s else
        match translate { pathAccess t gi (lowLane p.lanes) 1 (line * 128) r with x := true } s with
        | (.stall, u) => stallPath t gi u
        | (.fail c, u) => abortTask r.id c u
        | (.ok pa _, u) =>
          let u := rangeAccess .rds (meadowOfTuft t) pa 128 u
          if physPoison u pa 128 then abortTask r.id 0x0469 u
          else modTuft t (fun y => { y with icache := (line :: y.icache.filter (· != line)).take 256 }) u
    | _, _ => s

/-- RF_ECC_ERROR: corrected and counted, or the lane word is poisoned with ECC_ERR and a record (R196). -/
def rfEcc (t gi reg lane : Nat) (corrected : Bool) (s : State) : State :=
  if corrected then bumpSat tgCountsRfCorrected t 1 s
  else
    let u := groupMod t gi (fun g => if reg = 255 then g else { g with vpoison := tput g.vpoison (reg * 32 + lane) 2 }) s
    pendErr { level := lvTuft, unit := t, subunit := lane, reason := 0x0468, cls := 0x02 } (raise flTgStatusEccErr t u)

end Sys2Proof.Machine
end

