-- ==== Sys2Proof/Machine/ThreadMem.lean ====
section
/-! DEFINITION. Sys2Proof/Machine/ThreadMem.lean: Tuft store and global accesses, atomics and asynchronous copies of thread
groups (R199–R206, R211, R242). -/
namespace Sys2Proof.Machine

/-! ## Addresses and lanes -/

def memBytes (m : MemMod) : Nat := 2 ^ m.size.val
/-- Registers an access of `n` bytes takes. -/
def memRegs (n : Nat) : Nat := (n + 3) / 4

/-- A lane's address: SRC_A, a register for the store and a pair for the global space, plus operand B except in FORM 0b00
(log entry 20). -/
def laneAddr (i : Issue) (c : ICtx) (glob : Bool) (l : Nat) : Nat :=
  let n := if glob then 2 else 1
  (vregs c.g (iwA (iw i)) n l + (if iwForm (iw i) = 0 then 0 else operandB i c n l)) % 2 ^ (32 * n)

/-- Active lanes with their addresses. -/
def laneAddrs (i : Issue) (c : ICtx) (glob : Bool) : List (Nat × Nat) := (lanesOf c.act).map (fun l => (l, laneAddr i c glob l))

/-- Insert by key. -/
def insertKey (e : Nat × Nat) : List (Nat × Nat) → List (Nat × Nat)
  | [] => [e]
  | f :: t => if e.1 < f.1 then e :: f :: t else f :: insertKey e t

/-- Lanes in an order that the spec does not state and the addresses fix (R45): where several store to one byte, the last is kept. -/
def laneOrder (as : List (Nat × Nat)) (n : Nat) : List Nat :=
  ((as.map (fun a => (Config.laneRank (as.map (·.2)) n a.1, a.1))).foldr insertKey []).map (·.2)

/-- A loaded value as the registers receive it. -/
def extendLoad (m : MemMod) (v : Nat) : Nat :=
  if m.signed && memBytes m < 4 then ofSigned 32 (signedOf (8 * memBytes m) v) else v

/-- A task stored a word poisoned by a register-file error: its record carries 0x0468 (R196). -/
def noteRf (c : ICtx) (bad : Nat) (s : State) : State := if bad = 2 then taskReport c.task.id 0x0468 s else s

/-! ## Tuft store (R199, R201) -/

/-- Registers of a load or store: data, and `na` registers of address. -/
def memUse (m : MemMod) (na : Nat) : RegUse :=
  let k := memRegs (memBytes m)
  if m.store then { data := k, va := na, vb := na } else { vd := k, va := na, vb := na }

/-- The poison of the data a lane stores: its own and its address's. -/
def storedBad (i : Issue) (c : ICtx) (m : MemMod) (na l : Nat) : Nat :=
  max (vpoiss c.g (iwDst (iw i)) (memRegs (memBytes m)) l) (operandPoison i c (memUse m na) l)

/-- TUFT_STORE_ACCESS (class 0x5). -/
def doStoreAccess (i : Issue) (m : MemMod) (s : State) : State :=
  let n := memBytes m
  let k := memRegs n
  issueOp 5 i (fun _ _ => memUse m 1) (fun c _ =>
      let as := laneAddrs i c false
      scopeChecks i ++
      [failIf (as.any (fun a => a.2 % n != 0)) 0x0462, failIf (as.any (fun a => decide (tkLimit c.task.d < a.2 + n))) 0x0463]) (fun c s =>
    let r := iwDst (iw i)
    if m.store then
      advance c ((laneOrder (laneAddrs i c false) n).foldl (fun u l =>
        let bad := storedBad i c m 1 l
        noteRf c bad (storeWrite c.t (laneAddr i c false l) n (vregs c.g r k l) (bad != 0) u)) s)
    else writeLanes c r k ((laneAddrs i c false).map (fun a =>
      { lane := a.1, val := extendLoad m (storeNum s c.t a.2 n)
        bad := max (bit (storePoison s c.t a.2 n)) (operandPoison i c (memUse m 1) a.1) })) s) s

/-! ## Global space (R147, R199, R200) -/

/-- Translations of the lines a set of addresses touches: (line, physical address of the line). -/
inductive LineRes where
  | ok (l : Table Nat) (s : State)
  | stall (s : State)
  | fail (code : Nat) (s : State)
  deriving DecidableEq

/-- Translate each line once, by the address that touches it first. -/
def xlatLines (a : XAcc) : List Nat → Table Nat → State → LineRes
  | [], acc, s => .ok acc s
  | va :: t, acc, s =>
    if (tget acc (va / 128)).isSome then xlatLines a t acc s
    else match translate { a with va := va } s with
      | (.ok pa _, u) => xlatLines a t (tput acc (va / 128) (pa - va % 128)) u
      | (.stall, u) => .stall u
      | (.fail c, u) => .fail c u

/-- The region rule that an access of a lane breaks (R147), 0 if none. -/
def guardCode (s : State) (as : List (Nat × Nat)) (n : Nat) (write : Bool) : Nat :=
  lowest (as.map (fun a => let c := regionGuard s a.2 n write; if c = 0 then none else some c))

/-- One line's transaction at the Meadow cache. -/
def lineTouch (t : Nat) (write : Bool) (pa : Nat) (s : State) : State :=
  if isDevMem pa 128 then rangeAccess (if write then .rdx else .rds) (meadowOfTuft t) pa 128 s else s

/-- Read `n` bytes at a physical address for a lane: value, poison; host memory gives free values, or poison where the read is
refused or times out (R379, R387). -/
def globalRead (s : State) (pa n lane : Nat) : Nat × Bool :=
  if isDevMem pa n then (readNum s pa n, physPoison s pa n)
  else (freeAt s lane % 256 ^ n, physPoison s pa n || (isHostWin pa n && hostFate s != 0))

/-- What a task learns of its host reads' completions: a refusal or a timeout, with its code. -/
def fateReport (task : Nat) (pas : List (Nat × Nat)) (s : State) : State :=
  if hostFate s != 0 && pas.any (fun p => isHostWin p.1 p.2 && !physPoison s p.1 p.2) then fateFlag (hostFate s) (taskReport task (hostFate s) s) else s

/-- Write `n` bytes at a physical address. -/
def globalWrite (pa n v : Nat) (bad : Bool) (s : State) : State :=
  if isDevMem pa n then (let u := devWrite pa n v s; if bad then poisonRange pa n u else u)
  else if flagSet s hlStatusLinkUp 0 && hostReach s pa n then hostSend (.memWrite (pa - hostWinBase) n v bad true) s
  else s

/-- Reads of host lines leave as requests; an access outside the bridge windows reports 0x0820 (R367), one without a link, or of a
command of an earlier link epoch, 0x0830 (R381, R383). -/
def hostTouch (c : ICtx) (write : Bool) (ls : Table Nat) (s : State) : State :=
  (ls.filter (fun e => isHostWin e.2 128)).foldl (fun u e =>
    let code := hostCode (some (taskEpoch s c.task.id)) [(0, e.2, 128)] u
    if code != 0 then taskReport c.task.id code u
    else if write then u
    else hostSend (.memRead (e.2 - hostWinBase) 128 0) u) s

/-- Physical address of a lane's address. -/
def paOf (ls : Table Nat) (va : Nat) : Nat := tgetD ls (va / 128) 0 + va % 128

/-- A checked access of lanes, (lane, address), to the global space: translated, or its group stalls, or the task ends with the
code, or it waits for a link in D3. -/
def withLines (c : ICtx) (as : List (Nat × Nat)) (n : Nat) (rd wr : Bool) (go : Table Nat → State → State) (s : State) : State :=
  let code := guardCode s as n wr
  if code != 0 then abortTask c.task.id code s
  else match xlatLines { pathAccess c.t c.gi (lowLane c.lanes) 0 0 c.task with r := rd, w := wr } (as.map (·.2)) [] s with
    | .stall u => stallPath c.t c.gi u
    | .fail code u => abortTask c.task.id code u
    | .ok ls u =>
      if s.link.dState = 3 ∧ ls.any (fun e => isHostWin e.2 128) then s
      else go ls (hostTouch c (wr && !rd) ls (ls.foldl (fun u e => lineTouch c.t wr e.2 u) u))

/-- GLOBAL_ACCESS (class 0x6). -/
def doGlobalAccess (i : Issue) (m : MemMod) (s : State) : State :=
  let n := memBytes m
  let k := memRegs n
  issueOp 6 i (fun _ _ => memUse m 2) (fun c _ =>
      scopeChecks i ++ [failIf ((laneAddrs i c true).any (fun a => a.2 % n != 0)) 0x0462]) (fun c s =>
    withLines c (laneAddrs i c true) n (!m.store) m.store (fun ls u =>
      let r := iwDst (iw i)
      if m.store then
        advance c ((laneOrder (laneAddrs i c true) n).foldl (fun u l =>
          let bad := storedBad i c m 2 l
          noteRf c bad (globalWrite (paOf ls (laneAddr i c true l)) n (vregs c.g r k l) (bad != 0) u)) u)
      else writeLanes c r k ((laneAddrs i c true).map (fun a =>
        let v := globalRead u (paOf ls a.2) n a.1
        { lane := a.1, val := extendLoad m v.1, bad := max (bit v.2) (operandPoison i c (memUse m 2) a.1) }))
        (drawnN 32 (fateReport c.task.id ((laneAddrs i c true).map (fun a => (paOf ls a.2, n))) u))) s) s

/-! ## Atomics (R204–R206) -/

/-- One lane of an atomic: the key of its location, operand, compare operand, poison. -/
structure AtomLane where
  lane : Nat
  key : Nat
  val : Nat
  cmp : Nat
  bad : Nat := 0

/-- One application of an atomic to a location: new value and flags (R169, R192). -/
def atomFlagged (op : AtomOp) (ty : AtomTy) (a : Arith) (old x cmp : Nat) : Nat × Nat :=
  if ty == .fp32 && op == .min then fpMinMaxCode true a old x
  else if ty == .fp32 && op == .max then fpMinMaxCode false a old x
  else (atomApply op ty old x cmp, 0)

/-- Old values lanes receive, what memory holds after, flags: serial, lane by lane. -/
def atomSerial (op : AtomOp) (ty : AtomTy) (a : Arith) (old : Nat) : List AtomLane → List (Nat × Nat) × Nat × Nat
  | [] => ([], old, 0)
  | x :: t =>
    let n := atomFlagged op ty a old x.val x.cmp
    let r := atomSerial op ty a n.1 t
    ((x.lane, old) :: r.1, r.2.1, n.2 ||| r.2.2)

/-- The same for FP ADD, combined across lanes (R205); where old values are returned, their sums raise flags too. -/
def atomFpSum (f : Fmt) (a : Arith) (ret : Bool) (old : Nat) (ls : List AtomLane) : List (Nat × Nat) × Nat × Nat :=
  let below := fun (l : Nat) => addLaneSum f a old ((ls.filter (fun x => x.lane < l)).map (·.val))
  let sum := addLaneSum f a old (ls.map (·.val))
  (ls.map (fun x => (x.lane, (below x.lane).1)), sum.1,
   sum.2 ||| if ret then ls.foldl (fun m x => m ||| (below x.lane).2) 0 else 0)

def atomAll (m : AtomMod) (a : Arith) (old : Nat) (ls : List AtomLane) : List (Nat × Nat) × Nat × Nat :=
  if m.op == .add && m.ty == .fp32 then atomFpSum .fp32 a m.ret old ls
  else if m.op == .add && m.ty == .fp64 then atomFpSum .fp64 a m.ret old ls
  else atomSerial m.op m.ty a old ls

/-- Perform an atomic on every location its lanes address; `rd` and `wr` read and write one. What lanes receive, with the flags
of their location; a poisoned location raises none (R73). -/
def atomLanes (c : ICtx) (m : AtomMod) (rd : State → Nat → Nat × Bool) (wr : Nat → Nat → Bool → State → State)
    (lanes : List AtomLane) (s : State) : List LaneVal × State :=
  let a := taskArith s c.task.d
  let keys := (lanes.map (·.key)).foldl setAdd []
  keys.foldl (fun acc k =>
    let ls := lanes.filter (fun l => l.key == k)
    let old := rd acc.2 k
    let bad := ls.foldl (fun b l => max b l.bad) (bit old.2)
    let r := atomAll m a old.1 ls
    (acc.1 ++ r.1.map (fun x => { lane := x.1, val := x.2, bad := bad, flags := r.2.2 }), noteRf c bad (wr k r.2.1 (bad != 0) acc.2))) ([], s)

/-- After an atomic: flags, returned values, and the split of a failed acquire, a returned value other than the compare operand
(R216): the lanes that fail form a path that yields. -/
def atomDone (i : Issue) (c : ICtx) (m : AtomMod) (k : Nat) (lanes : List AtomLane) (vs : List LaneVal) (s : State) : State :=
  let s := taskFlags c.task.id c.t (laneFlags vs) s
  if m.ret then
    let u := groupMod c.t c.gi (fun g => vs.foldl (fun g v => setVregs (iwDst (iw i)) k v.lane v.val v.bad g) g) s
    let failed := (vs.filter (fun v => lanes.any (fun x => x.lane == v.lane && x.cmp % 2 ^ (32 * k) != v.val))).foldl (fun mk v => mk + 2 ^ v.lane) 0
    if iwAcquire (iw i) && (m.op == .cas || m.op == .exch) && failed != 0 then yieldFrom c failed (splitPath c failed c.next c.next u)
    else advance c u
  else advance c s

/-- Registers of an atomic: address of `na` registers, operand and returned value of `k`; SRC_C is the compare operand of CAS and
of an EXCH that acquires. -/
def atomUse (i : Issue) (m : AtomMod) (na k : Nat) : RegUse :=
  { vd := if m.ret then k else 0, va := na, vb := k
    vc := if m.op == .cas || (m.op == .exch && iwAcquire (iw i) && iwForm (iw i) != 1) then k else 0 }

/-- ATOMIC (class 0x7). -/
def doAtomic (i : Issue) (m : AtomMod) (s : State) : State :=
  let n := atomBits m.ty / 8
  let k := n / 4
  let na := if m.global then 2 else 1
  let use := atomUse i m na k
  let addrs := fun (c : ICtx) => (lanesOf c.act).map (fun l => (l, vregs c.g (iwA (iw i)) na l))
  issueOp 7 i (fun _ _ => use) (fun c _ =>
      scopeChecks i ++
      [failIf (!atomListed m.op m.ty) 0x0464, failIf ((addrs c).any (fun a => a.2 % n != 0)) 0x0462,
       failIf (!m.global && (addrs c).any (fun a => decide (tkLimit c.task.d < a.2 + n))) 0x0463]) (fun c s =>
    let lanes := fun (key : Nat → Nat) => (addrs c).map (fun a =>
      ({ lane := a.1, key := key a.2, val := operandB i c k a.1, cmp := if use.vc = 0 then 0 else operandC i c k a.1
         bad := operandPoison i c use a.1 } : AtomLane))
    if m.global then
      withLines c (addrs c) n true true (fun ls u =>
        let r := atomLanes c m (fun s a => globalRead s a n 0) (fun a v bad s => globalWrite a n v bad (if isDevMem a n then s else drawn s))
          (lanes (paOf ls)) u
        atomDone i c m k (lanes id) r.1 r.2) s
    else
      let r := atomLanes c m (fun s a => (storeNum s c.t a n, storePoison s c.t a n)) (fun a v bad s => storeWrite c.t a n v bad s) (lanes id) s
      atomDone i c m k (lanes id) r.1 r.2) s

/-! ## Asynchronous copies (R211, R242) -/

/-- ACPY.D: the descriptor is checked, translated and queued; the path goes on when its last entry is queued. -/
def doAcpyD (i : Issue) (s : State) : State :=
  issueOp 10 i (fun _ _ => { sa := true }) (fun c _ => descChecks i c 64) (fun c s =>
    let d := descAt i c 64 s
    let sw := c.t / 8
    let code := lowest (copyChecks s { task := some c.task, sward := sw } d)
    if code != 0 then abortTask c.task.id code s
    else
      let r := submitCopy sw (.tuft c.t) (.task c.task.id) (BitVec.ofNat 512 d) s
      match r.2.1 with
      | some code => advance c (copyEnds r.1 code r.2.2)
      | none =>
        let queued := match copyGet r.2.2 r.1 with | some x => x.translated && x.rest.isEmpty | none => true
        if queued then advance c r.2.2 else parkPath c c.next (.credit r.1) r.2.2) s


/-- ACPY.L: every active lane starts to copy 4, 8 or 16 bytes from a global address (pair SRC_A) to a store offset (SRC_B). -/
def doAcpyL (i : Issue) (size : Nat) (s : State) : State :=
  let n := 2 ^ size
  let use : RegUse := { va := 2, vb := 1 }
  let addrs := fun (c : ICtx) => (lanesOf c.act).map (fun l => (l, vregs c.g (iwA (iw i)) 2 l))
  issueOp 10 i (fun _ _ => use) (fun c _ =>
      let dst := (lanesOf c.act).map (fun l => operandB i c 1 l)
      opReserved (decide (n < 4)) ++
      [failIf ((addrs c).any (fun a => a.2 % n != 0) || dst.any (fun a => a % n != 0)) 0x0462,
       failIf (dst.any (fun a => decide (tkLimit c.task.d < a + n))) 0x0463]) (fun c s =>
    withLines c (addrs c) n true false (fun ls u =>
      let mv := (addrs c).map (fun a =>
        ({ src := paOf ls a.2, va := a.2, dst := operandB i c 1 a.1, len := n, bad := operandPoison i c use a.1 } : LaneMove))
      advance c (modTuft c.t (fun y => { y with laneCopies := y.laneCopies ++ [{ ctr := iwCtr (iw i), task := c.task.id, epoch := getF u hlStatusLinkEpoch 0, moves := mv }] }) u)) s) s

/-- ACPY_L_COMPLETE: the bytes of every lane are written and the counter increments once. -/
def acpyLDone (t nth : Nat) (s : State) : State :=
  match (tuft s t).laneCopies[nth]? with
  | none => s
  | some lc =>
    -- a host read that a link loss ended returns poison (R381)
    let lost := fun (u : State) (m : LaneMove) => isHostWin m.src m.len && hostCode (some lc.epoch) [(0, m.src, m.len)] u == 0x0830
    let u := lc.moves.foldl (fun u m =>
      let v := globalRead u m.src m.len 0
      let gone := lost u m
      let u := if m.bad = 2 then taskReport lc.task 0x0468 u else u
      let u := if gone then taskReport lc.task 0x0830 u else fateReport lc.task [(m.src, m.len)] u
      storeWrite t m.dst m.len v.1 (v.2 || gone || m.bad != 0) (if isDevMem m.src m.len then u else drawn u)) s
    arrive t lc.ctr (modTuft t (fun y => { y with laneCopies := y.laneCopies.eraseIdx nth }) u)

end Sys2Proof.Machine
end

