-- ==== Sys2Proof/Machine/Tasks.lean ====
section
/-! DEFINITION. Sys2Proof/Machine/Tasks.lean: the work scheduler: placement and start of tasks, pool waits, nodes that
become ready, and errors of stores and pools (R150, R156, R157, R187–R189, R227–R238, R403, R404, R509). -/
namespace Sys2Proof.Machine

/-! ## Placement (R235, R237, R470, R509) -/

/-- A Tuft out of service. -/
def tuftOut (s : State) (t : Nat) : Bool := getF s tuftCeilState t == 3 || !swardUp s (t / 8)

/-- A Tuft a task can be placed on now. -/
def tuftFree (s : State) (t : Nat) : Bool :=
  (tuft s t).task.isNone && !tuftOut s t && !underTest s lvTuft t && !underTest s lvSward (t / 8) &&
    !underTest s lvMeadow (t / 128)

/-- The aligned sets of `n` Tufts of a Sward, by first Tuft. -/
def tuftSets (sw n : Nat) : List Nat := (List.range (8 / n)).map (fun i => 8 * sw + i * n)

/-- First Tuft of the lowest free set. -/
def freeSet (s : State) (sw n : Nat) : Option Nat := (tuftSets sw n).find? (fun t0 => (span t0 n).all (tuftFree s))

/-- Every set of a Sward contains a Tuft out of service. -/
def setsOut (s : State) (sw n : Nat) : Bool := (tuftSets sw n).all (fun t0 => (span t0 n).any (tuftOut s))

/-- Where a task can start: at a first Tuft, nowhere yet, or nowhere with a code. -/
inductive Place where
  | at (t0 : Nat)
  | wait
  | fail (code : Nat)
  deriving DecidableEq, Repr

/-- The Sward of most free Tufts with a free set, ties to the lowest. -/
def mostFree (s : State) (n : Nat) (ok : Nat → Bool) : Option Nat :=
  ((List.range 128).filter (fun sw => ok sw && swardUp s sw && (freeSet s sw n).isSome)).foldl (fun m sw =>
    let free := fun x => ((span (8 * x) 8).filter (tuftFree s)).length
    match m with
    | none => some sw
    | some b => if free b < free sw then some sw else m) none

/-- A replica serves a task: POOLED, and where it is poisoned, fetched since the task became ready (R154). -/
def serves (r : TaskRec) (p : Replica) : Bool := p.st == .pooled && (!p.poisoned || decide (r.ready < p.stamp))

/-- A task's bound unit is POOLED in a Sward and serves it, and nothing closes its region; a task without a binding needs none. -/
def boundReady (s : State) (r : TaskRec) (sw : Nat) : Bool :=
  !tkBindV r.d || ((regionOpen s (tkBindRegion r.d)).isSome &&
    (match repGet s sw (tkBindRegion r.d) (tkBindUnit r.d) with | some p => serves r p | none => false))

/-- A task that must run on one Sward. -/
def placeOn (s : State) (r : TaskRec) (sw down : Nat) : Place :=
  let n := tkTufts r.d
  if !meadowUp s (sw / 16) then .fail down
  else if setsOut s sw n then .fail 0x0A59
  else if !boundReady s r sw then .wait
  else match freeSet s sw n with
    | some t0 => .at t0
    | none => .wait

/-- The buffers a task attaches; `none` for a name no buffer has. -/
def attached (s : State) (d : Nat) : List (Option PoolAlloc) :=
  ((tkReqs d).filter (fun q => rqKind q.2 == 3)).map (fun q => bufNamed s (rqName q.2))

/-- Codes of the buffers a task attaches (R233, R237): unknown, in different Swards, lost. -/
def attachCode (s : State) (d : Nat) : Nat :=
  let att := attached s d
  let sw := (att.getD 0 none).map (·.sward)
  lowest (att.map (fun a => match a with
    | none => some 0x0182
    | some x => if some x.sward != sw then some 0x0182 else failIf x.lost 0x0573))

/-- The one Sward on which a task may run: that of its attached buffers, or its preferred Sward under PLACE_STRICT. -/
def fixedSward (s : State) (d : Nat) : Option Nat :=
  match attached s d with
  | some a :: _ => some a.sward
  | _ => if tkPlaceStrict d then some (tkPlaceSward d) else none

/-- Placement by the first rule of R237 that applies. -/
def placeTask (s : State) (r : TaskRec) : Place :=
  let d := r.d
  let n := tkTufts d
  let pref := tkPlaceSward d
  if attachCode s d != 0 then .fail (attachCode s d)
  else match fixedSward s d with
    | some sw => placeOn s r sw (if (attached s d).isEmpty then 0x0A21 else 0x0573)
    | none =>
      if (List.range 128).all (fun sw => !swardUp s sw || setsOut s sw n) then .fail 0x0A59
      else if !tkBindV d && tkPlaceV d && swardUp s pref && (freeSet s pref n).isSome then
        (match freeSet s pref n with | some t0 => .at t0 | none => .wait)
      else match mostFree s n (boundReady s r) with
        | some sw => (match freeSet s sw n with | some t0 => .at t0 | none => .wait)
        | none => .wait

/-- A task waits for its unit in a Sward (R150): its own where it has but one; else any, while no Sward on which it can run has
the unit POOLED for it or LIFTING. -/
def waitsFor (s : State) (sw region unit : Nat) (r : TaskRec) : Bool :=
  r.phase == .waiting && tkBindV r.d && tkBindRegion r.d == region && tkBindUnit r.d == unit &&
    match fixedSward s r.d with
    | some f => f == sw
    | none => !s.res.reps.any (fun e => e.1 % 65536 == unitKey region unit && swardUp s (e.1 / 65536) &&
        !setsOut s (e.1 / 65536) (tkTufts r.d) && (e.2.st == .lifting || serves r e.2))

/-- A lift that a bound task or a hint needs begins, if there is space. -/
def liftStart (sw region unit : Nat) (s : State) : State :=
  if s.work.tasks.any (fun r => waitsFor s sw region unit r && ((fixedSward s r.d).isSome || freesSoonest s sw region)) || s.res.wanted.contains (unitKey region unit) then
    demand sw region unit s
  else s

/-! ## Pool requests of a starting task (R230–R233) -/

/-- The codes of a task's requests, 0 where none fails for good. -/
def poolCode (s : State) (sw d : Nat) : Nat :=
  let qs := tkReqs d
  let creates := qs.filter (fun q => rqKind q.2 == 2)
  lowest (qs.map (fun q =>
    if rqKind q.2 = 3 then
      match bufNamed s (rqName q.2) with
      | some a => if a.lost then some 0x0573 else failIf (a.sward != sw) 0x0182
      | none => some 0x0182
    else failIf (poolMax s < rqBlocks q.2) 0x0570) ++
    creates.map (fun q => failIf (rqName q.2 == 0 || (bufNamed s (rqName q.2)).isSome ||
      creates.any (fun p => p.1 < q.1 && rqName p.2 == rqName q.2)) 0x0183) ++
    [failIf (!creates.isEmpty && 4096 < namedCount s + creates.length) 0x0571])

/-! ## Order (R157, R236, R403) -/

def seqOf (r : TaskRec) : Option Nat := if tkSeqV r.d then some (tkSeq r.d) else none

/-- A task node earlier in the program order of its sequence has not started. -/
def earlierUnstarted (s : State) (r : TaskRec) : Bool :=
  s.work.graphs.any (fun x => (List.range x.nodes.length).any (fun n =>
    match x.nodes[n]? with
    | none => false
    | some y => (x.id < r.graph || (x.id == r.graph && n < r.node)) && y.kind == 0 && tkSeqV y.desc && tkSeq y.desc == tkSeq r.d &&
        (match y.st with
         | .blocked => true
         | .ready => true
         | .doomed => true
         | .going => s.work.tasks.any (fun q => q.graph == x.id && q.node == n && q.phase == .waiting)
         | .ended _ _ => false)))

/-- The sequence of a task lets it start: it is ready, and the task is its next. -/
def seqAllows (s : State) (r : TaskRec) : Bool :=
  match seqOf r with
  | none => true
  | some q => (match seqGet s q with | some e => e.st == 1 || e.st == 3 | none => false) && !earlierUnstarted s r

/-- Priority, and since when ready. -/
def taskOrder (s : State) (r : TaskRec) : Nat × Nat :=
  match (seqOf r).bind (seqGet s) with
  | some e => (e.prio, max e.stamp r.ready)
  | none => (r.prio, r.ready)

def taskBefore (s : State) (a b : TaskRec) : Bool :=
  let x := taskOrder s a
  let y := taskOrder s b
  y.1 < x.1 || (x.1 == y.1 && x.2 ≤ y.2)

def insertTask (s : State) (r : TaskRec) : List TaskRec → List TaskRec
  | [] => [r]
  | q :: t => if taskBefore s q r then q :: insertTask s r t else r :: q :: t

/-- Tasks that may start, in the order of R157. -/
def startOrder (s : State) : List TaskRec :=
  (s.work.tasks.filter (fun r => r.phase == .waiting && seqAllows s r)).foldl (fun l r => insertTask s r l) []

/-! ## Start (R188, R189, R234–R238) -/

/-- A task waits for pool space: POOL_WAIT once for each wait (R232). -/
def poolWaits (sw : Nat) (r : TaskRec) (s : State) : State :=
  if r.poolWait.isSome then s else raise flLmStatusPoolWait sw (taskMod r.id (fun r => { r with poolWait := some sw }) s)

def setSeqState (r : TaskRec) (st : Nat) (s : State) : State :=
  match seqOf r with
  | some q => { s with work.seqs := s.work.seqs.map (fun e => if e.1 = q then (e.1, { e.2 with st := st }) else e) }
  | none => s

/-- The task takes its Tufts: counters zero, groups dealt out, the binding referenced (R150, R207, R235). On a gated Tuft
the wake begins, and groups launch once it is done (R487). -/
def beginTask (r : TaskRec) (t0 : Nat) (allocs : List (Nat × Nat)) (s : State) : State :=
  let d := r.d
  let n := tkTufts d
  let sw := t0 / 8
  let hit := tkBindV d
  let t := taskMod r.id (fun r => { r with phase := .running, tuft0 := t0, allocs := allocs, groupsLeft := tkGroups d, poolWait := none, hit := hit }) s
  let t := (List.range n).foldl (fun u i => modTuft (t0 + i) (fun x => { x with
      task := some r.id, arv := [], bars := [], issA := [], issB := [], step := none, groups := []
      waiting := (List.range (tkGroups d)).filter (fun g => g % n == i) })
    (if getF u tuftCeilState (t0 + i) = 2 then u else setF tuftCeilState (t0 + i) 0 u)) t
  let t := if hit then
      (match repGet t sw (tkBindRegion d) (tkBindUnit d) with
       | some p => bump resCountsHits (sw / 16) 1 (repPut sw (tkBindRegion d) (tkBindUnit d) { p with refs := p.refs + 1 } t)
       | none => t)
    else t
  setSeqState r 2 t

/-- What becomes of a task that may start: started, ended with a code, or left waiting. -/
inductive Try where
  | started (s : State)
  | left (s : State)

/-- Too many groups for a task that uses barriers (R189). -/
def barriersCode (d : Nat) : Nat :=
  if tkBarriers d && residency d < (tkGroups d + tkTufts d - 1) / tkTufts d then 0x0466 else 0

def tryTask (r : TaskRec) (s : State) : Try :=
  let b := barriersCode r.d
  match placeTask s r with
  | .fail c => .left (failWaiting r (mergeCode b c) s)
  | .wait =>
    if b != 0 then .left (failWaiting r b s)
    else if !(List.range 128).any (boundReady s r) then .left (setSeqState r 3 s) else .left s
  | .at t0 =>
    if b != 0 then .left (failWaiting r b s)
    else
      let c := poolCode s (t0 / 8) r.d
      if c != 0 then .left (failWaiting r c s)
      else match poolServeAll r.id (t0 / 8) (tkReqs r.d) s with
        | some (allocs, t) => .started (beginTask r t0 allocs t)
        | none => .left (poolWaits (t0 / 8) r s)

/-- Tasks in order until one starts. -/
def tryTasks : List TaskRec → State → State
  | [], s => s
  | r :: t, s =>
    -- an ending on the way may have ended this task too
    match taskGet s r.id with
    | none => tryTasks t s
    | some r => if r.phase != .waiting || !seqAllows s r then tryTasks t s
      else match tryTask r s with
        | .started u => u
        | .left u => tryTasks t u

/-- TASK_START: the work scheduler starts the first task that can start. -/
def startTask (s : State) : State := tryTasks (startOrder s) s

/-- POOL_WATCHDOG_EXPIRE for a task or a BUF_CREATE that waits for pool space (R232). -/
def poolExpire (cmd : Bool) (id : Nat) (s : State) : State :=
  if cmd then
    if s.work.bufWait.any (fun e => e.1 == id) then
      endById id (endFailed 0x0572 0) { s with work.bufWait := s.work.bufWait.filter (fun e => e.1 != id) }
    else s
  else match taskGet s id with
    | some r => if r.phase == .waiting && r.poolWait.isSome then failWaiting r 0x0572 s else s
    | none => s

/-! ## Errors of stores and pools (R227) -/

/-- STORE_ECC_ERROR at byte `off` of the store of Tuft `t`, or of the pool of its Sward. -/
def storeEcc (t off : Nat) (pool corrected : Bool) (s : State) : State :=
  let sw := t / 8
  let off := if pool then off % 0x800000 else off % 0x80000
  if corrected then (if pool then bumpSat tsCountsPoolCorrected (8 * sw) 1 s else bumpSat tsCountsStoreCorrected t 1 s)
  else
    let key := if pool then poolKey sw off else storeKey t off
    pendErr { level := if pool then lvSward else lvTuft, unit := if pool then sw else t, reason := 0x0574, cls := 0x02, detail := off / 32 * 32 }
      (poisonRange key 1 s)

/-! ## Nodes that become ready (R402, R403) -/

/-- The first Sward in service: where the control processor submits copies. -/
def cpSward (s : State) : Option Nat := (List.range 128).find? (swardUp s)

/-- A ready node can be handed to its unit now: a router node needs room in its Stile's queue. -/
def nodeGoes (s : State) (y : NodeRec) : Bool :=
  y.st == .ready && !(y.kind == 2 && meadowUp s y.meadow && decide (8 ≤ invWaiting s y.meadow))

/-- The first node that can be handed to its unit. -/
def readyNode (s : State) : Option (GraphRec × Nat × NodeRec) :=
  s.work.graphs.findSome? (fun x => ((List.range x.nodes.length).find? (fun n =>
    match x.nodes[n]? with | some y => nodeGoes s y | none => false)).bind (fun n => (x.nodes[n]?).map (fun y => (x, n, y))))

/-- Hand a node to its unit. -/
def submitNode (x : GraphRec) (n : Nat) (y : NodeRec) (s : State) : State :=
  let t := nodeMod x.id n (fun y => { y with st := .going }) s
  if y.kind = 0 then
    let r : TaskRec := { id := t.work.nextTask, graph := x.id, node := n, desc := BitVec.ofNat 1024 y.desc, prio := x.prio, ready := t.work.clock }
    { t with work.tasks := t.work.tasks ++ [r], work.nextTask := t.work.nextTask + 1, work.clock := t.work.clock + 1 }
  else if y.kind = 1 then
    match cpSward t with
    | none => nodeDone x.id n 2 0x0A21 0 0 t
    | some sw =>
      let r := submitCopy sw .cp (.node x.id n) (BitVec.ofNat 512 y.desc) t
      match r.2.1 with
      | some code => copyEnds r.1 code r.2.2
      | none => r.2.2
  else if y.kind = 2 then
    if meadowUp t y.meadow then enqueueInv y.meadow (BitVec.ofNat 512 y.desc) (.node x.id n) t else nodeDone x.id n 2 0x0A21 0 0 t
  else nodeDone x.id n 0 0 0 0 t

/-- Hand over every ready node; `n` bounds their number. -/
def pump : Nat → State → State
  | 0, s => s
  | n + 1, s =>
    match readyNode s with
    | none => s
    | some (x, i, y) => pump n (submitNode x i y s)

def nodeCount (s : State) : Nat := (s.work.graphs.map (fun x => x.nodes.length)).foldl (· + ·) 0

/-! ## BUF_CREATE (R230–R232, R404) -/

/-- Swards a BUF_CREATE may use, as (Sward, free blocks). -/
def bufSward (s : State) (place : Option Nat) : Option Nat :=
  match place with
  | some sw => some sw
  | none => ((List.range 128).filter (swardUp s)).foldl (fun m sw => match m with
      | none => some sw
      | some b => if (poolScan s b).1 < (poolScan s sw).1 then some sw else m) none

/-- The Sward that PLACE_V names. -/
def bufPlace (ws : List W64) : Option Nat :=
  if wordBits ws 2 20 20 = 1 then some (wordBits ws 2 14 12 * 16 + wordBits ws 2 19 16) else none

/-- Try to place the buffer of a BUF_CREATE: ended, or waiting. -/
def tryBuf (oc : OpenCmd) (s : State) : Option State :=
  let n := wordBits oc.words 2 10 0 + 1
  let code := lowest [failIf (bufNamed s (wordBits oc.words 1 31 0)).isSome 0x0183, failIf (poolMax s < n) 0x0570,
    failIf (4096 ≤ namedCount s) 0x0571]
  if code != 0 then some (endById oc.id (endRefused code) s)
  else match bufSward s (bufPlace oc.words) with
  | none => some (endById oc.id (endFailed 0x0A21 0) s)
  | some sw =>
    if !meadowUp s (sw / 16) then some (endById oc.id (endFailed 0x0A21 0) s)
    else if !swardUp s sw then some (endById oc.id (endFailed 0x0A59 0) s)
    else (poolFit s sw n).map (fun o => endById oc.id (endDone (sw + o * 256) 0)
      { s with work.pool := s.work.pool ++ [{ sward := sw, off := o, blocks := n, name := some (wordBits oc.words 1 31 0) }] })

/-- BUF_CREATE commands that wait try again, oldest first. -/
def retryBufs (s : State) : State :=
  s.work.bufWait.foldl (fun t e =>
    match t.ob.openCmds.find? (fun o => o.id == e.1) with
    | none => { t with work.bufWait := t.work.bufWait.filter (fun x => x.1 != e.1) }
    | some oc =>
      match tryBuf oc t with
      | some u => { u with work.bufWait := u.work.bufWait.filter (fun x => x.1 != e.1) }
      | none => t) s

/-! ## Units that drain (R514) -/

/-- No work runs on a unit: a Tuft, a Sward, a Meadow; units of the package level run no tasks. -/
def unitIdle (s : State) (level unit : Nat) : Bool :=
  if level = lvTuft then (tuft s unit).task.isNone
  else if level = lvSward then (span (8 * unit) 8).all (fun t => (tuft s t).task.isNone) && !s.copies.recs.any (fun c => c.sward == unit)
  else if level = lvMeadow then
    (span (128 * unit) 128).all (fun t => (tuft s t).task.isNone) && !s.copies.recs.any (fun c => c.sward / 16 == unit) && (invQueue s unit).isEmpty
  else true

/-- UNIT_CTRL withdraws a unit once its running work has completed. -/
def drainDone (x : Nat × Nat × Nat) (s : State) : State :=
  if !unitIdle s x.2.1 x.2.2 then s
  else
    let t := { s with
      err.drains := s.err.drains.filter (fun y => y.1 != x.1), err.out := s.err.out ++ [{ level := x.2.1, unit := x.2.2, software := true }] }
    endById x.1 (endDone 0 0) (if x.2.1 = lvTuft then setF tuftCeilState x.2.2 3 t else t)

def drainCheck (s : State) : State := s.err.drains.foldl (fun t x => drainDone x t) s

/-- What follows from an effect in the scheduler: ready nodes go to their units, closing regions close, waiting buffers are
placed, drained units are withdrawn. -/
def follow (s : State) : State :=
  let t := drainCheck (retryBufs (closeRegions (pump (nodeCount s) s)))
  pump (nodeCount t) t

end Sys2Proof.Machine
end

