-- ==== Sys2Proof/Machine/TransCmd.lean ====
section
/-! DEFINITION. Sys2Proof/Machine/TransCmd.lean: the commands that change the mirrored device table (MAP, INVALIDATE,
PREFETCH, ADVISE), the resolution of faults, and the fault watchdog (R314–R317, R330–R337, R399). -/
namespace Sys2Proof.Machine

/-! ## What a stalled access belongs to goes on or ends (R330, R331) -/

/-- A copy's accesses walk again. -/
def copyRetry (id : Nat) (s : State) : State :=
  match copyGet s id with
  | none => s
  | some c =>
    if c.translated then { s with copies.ents := s.copies.ents.map (fun e => if e.copy == id then { e with stalled := false } else e) }
    else match submitGo id s with
      | (some code, t) => copyEnds id code t
      | (none, t) => t

/-- A stalled access walks again (code 0) or ends with a code. -/
def resume (code : Nat) (s : State) (a : XAcc) : State :=
  match a.who with
  | .path t g _ =>
    if code = 0 then scheduleTuft t (groupMod t g (fun x => { x with paths := x.paths.map (fun p => if p.park == .fault then { p with park := .run } else p) }) s)
    else abortOn t code s
  | .copy id => if code = 0 then copyRetry id s else copyEnds id code s
  | .stile m => resumeInv m code s
  | .cmd id => if code = 0 then s else endById id (endFailed code 0) s
  | .none => if code = 0 then (walkDemand a s).2 else s

/-- Accesses that wait for a slot take the free ones; `n` bounds their number. -/
def refillSlots (u : Nat) : Nat → State → State
  | 0, s => s
  | n + 1, s =>
    let x := xunit s u
    match x.noSlot with
    | (a, code) :: rest =>
      if x.slots.length < 64 || x.slots.any (fun f => f.page == a.va / 4096) then
        refillSlots u n (placeFault a code (setXunit u { x with noSlot := rest } s))
      else s
    | [] => s

def refill (u : Nat) (s : State) : State := refillSlots u (xunit s u).noSlot.length s

/-- Close a fault: its accesses walk again or end with a code. -/
def closeFault (u id code : Nat) (s : State) : State :=
  let x := xunit s u
  match x.slots.find? (fun f => f.id == id) with
  | none => s
  | some f => refill u (f.accs.foldl (resume code) (setXunit u { x with slots := x.slots.filter (fun g => g.id != id) } s))

/-- The unit with an open fault of a FAULT_ID. -/
def faultUnit (s : State) (id : Nat) : Option Nat := (s.xl.units.find? (fun e => e.2.slots.any (fun f => f.id == id))).map (·.1)

/-- Where a stalled access stands: in an open fault, without a slot, at a page a PREFETCH moves. -/
inductive StallPlace where
  | slot | noSlot | move
  deriving DecidableEq, Repr

/-- FAULT_WATCHDOG_EXPIRE: the nth access of a place ends with 0x0205; a fault nobody waits on closes. -/
def watchdogExpire (u : Nat) (place : StallPlace) (id nth : Nat) (s : State) : State :=
  let x := xunit s u
  match place with
  | .slot =>
    match x.slots.find? (fun f => f.id == id) with
    | none => s
    | some f =>
      match f.accs[nth]? with
      | none => s
      | some a =>
        let left := f.accs.eraseIdx nth
        let t := setXunit u { x with slots := (x.slots.map (fun g => if g.id == id then { g with accs := left } else g)).filter (fun g => !g.accs.isEmpty) } s
        refill u (resume 0x0205 t a)
  | .noSlot =>
    match x.noSlot[nth]? with
    | none => s
    | some (a, _) => resume 0x0205 (setXunit u { x with noSlot := x.noSlot.eraseIdx nth } s) a
  | .move =>
    match s.xl.moveWait[nth]? with
    | none => s
    | some a => resume 0x0205 { s with xl.moveWait := s.xl.moveWait.eraseIdx nth } a

/-- TABLE_WALK_DONE: a demand or prefetch walk of a unit, for an access nothing of the model waits on. -/
def walkDone (a : XAcc) (pf : Bool) (s : State) : State :=
  if pf then walkPrefetch a s else (walkDemand a s).2

/-! ## Table pages and entries (R314, R332) -/

/-- The control processor writes an entry; the write is coherent. -/
def putEntry (tpa i w : Nat) (s : State) : State := devWrite (entryAddr tpa i) 8 w (rangeAccess .ncwr 10 (entryAddr tpa i) 8 s)

def pagesFree (s : State) : Nat := s.xl.areaBytes / 4096 - s.xl.pages.length

/-- Take the lowest free page of the table area, zeroed. -/
def takePage (s : State) : Nat × State :=
  let i := ((List.range (s.xl.pages.length + 1)).find? (fun i => !s.xl.pages.contains (s.xl.area + 4096 * i))).getD 0
  let p := s.xl.area + 4096 * i
  (p, { zeroMem p 4096 (rangeAccess .ncwr 10 p 4096 s) with xl.pages := setAdd s.xl.pages p })

/-- Give a table page back; walk caches forget it. -/
def givePage (p : Nat) (s : State) : State :=
  { s with xl.pages := setDel s.xl.pages p, xl.units := s.xl.units.map (fun e => (e.1, { e.2 with walk := e.2.walk.filter (fun w => w.pa != p) })) }

/-- Give back a table and every table below it; `tpa` is a table of level `l`. -/
def dropTree : Nat → Nat → State → State
  | 0, tpa, s => givePage tpa s
  | l + 1, tpa, s =>
    givePage tpa ((List.range 512).foldl (fun t i =>
      let e := entryAt s tpa i
      if entV e && !entLeaf e then dropTree l (entPa e) t else t) s)

/-- The table of level `lvl` on the path of an address, taken where it is missing; from table `tpa` of level `l`. -/
def tableFor (va lvl : Nat) : Nat → Nat → State → Nat × State
  | 0, tpa, s => (tpa, s)
  | l + 1, tpa, s =>
    if l + 1 ≤ lvl then (tpa, s)
    else
      let i := vaIdx va (l + 1)
      let e := entryAt s tpa i
      if entV e then tableFor va lvl l (entPa e) s
      else
        let (p, t) := takePage s
        tableFor va lvl l p (putEntry tpa i (pointerWord p) t)

/-- A valid leaf with its place: table, index, level, address, entry, and the pointers above as (table, index), nearest first. -/
structure LeafAt where
  tpa : Nat
  idx : Nat
  level : Nat
  va : Nat
  e : Nat
  path : List (Nat × Nat)

/-- Valid leaves that overlap [lo, hi), below table `tpa` of level `l` whose first address is `base`. -/
def visit (s : State) (lo hi : Nat) : Nat → Nat → Nat → List (Nat × Nat) → List LeafAt
  | 0, tpa, base, path =>
    (List.range 512).filterMap (fun i =>
      let a := base + i * 4096
      if hi ≤ a || a + 4096 ≤ lo then none
      else
        let e := entryAt s tpa i
        if entV e && entLeaf e then some ⟨tpa, i, 0, a, e, path⟩ else none)
  | l + 1, tpa, base, path =>
    (List.range 512).flatMap (fun i =>
      let z := pageSize (l + 1)
      let a := base + i * z
      if hi ≤ a || a + z ≤ lo then []
      else
        let e := entryAt s tpa i
        if !entV e then []
        else if entLeaf e then [⟨tpa, i, l + 1, a, e, path⟩] else visit s lo hi l (entPa e) a ((tpa, i) :: path))

def leavesIn (s : State) (lo hi : Nat) : List LeafAt := visit s lo hi 4 (tableRoot s) 0 []

/-- Keys (level, address prefix) of the table pages a leaf of level `lvl` still needs, the entries `gone` counting as invalid. -/
def pathNeed (s : State) (va lvl : Nat) (gone : List (Nat × Nat)) : Nat → Nat → List (Nat × Nat)
  | 0, _ => []
  | l + 1, tpa =>
    if l + 1 ≤ lvl then []
    else
      let i := vaIdx va (l + 1)
      let e := entryAt s tpa i
      if !entV e || entLeaf e || gone.contains (tpa, i) then (span lvl (l + 1 - lvl)).map (fun k => (k, va / pageSize (k + 1)))
      else pathNeed s va lvl gone l (entPa e)

/-- Keys of the pages that splitting the leaves cut by [lo, hi) needs (R332). -/
def splitNeed (s : State) (lo hi : Nat) : List (Nat × Nat) :=
  [lo, hi].flatMap (fun x => match tableLeaf s x with
    | some (_, l, _) => (span 1 l).filterMap (fun k => if x % pageSize k = 0 then none else some (k - 1, x / pageSize k))
    | none => [])

def distinct (l : List (Nat × Nat)) : Nat := (l.foldl (fun (m : List (Nat × Nat)) k => if m.contains k then m else k :: m) []).length

/-- RUN of an entry cleared. -/
def clearRun (e : Nat) : Nat := withBits e 58 56 0

/-- The other leaves of the run at index `i` lose RUN (R317). -/
def unrun (tpa i e : Nat) (s : State) : State :=
  let n := runPages (entRun e)
  (span (i / n * n) n).foldl (fun t j =>
    let v := entryAt t tpa j
    if j != i && entV v && entRun v != 0 then putEntry tpa j (clearRun v) t else t) s

/-- Split the leaf that address `x` cuts, level by level (R332). -/
def splitAt (x : Nat) : Nat → State → State
  | 0, s => s
  | n + 1, s =>
    match tableLeaf s x with
    | none => s
    | some (tpa, l, e) =>
      if l = 0 ∨ x % pageSize l = 0 then s
      else
        let i := vaIdx x l
        let (p, t) := takePage (unrun tpa i e s)
        let t := (List.range 512).foldl (fun t j =>
          putEntry p j (leafWord (entPa e + j * pageSize (l - 1)) 0 (entAdvice e) (entR e) (entW e) (entX e)) t) t
        splitAt x n (putEntry tpa i (pointerWord p) t)

def doSplits (lo hi : Nat) (s : State) : State := splitAt hi 2 (splitAt lo 2 s)

/-- Rewrite the leaves found in [lo, hi) with `f`, which is told whether the leaf's run is cut; the leaves of cut runs that
lie outside lose RUN (R317). -/
def rewrite (found : List LeafAt) (lo hi : Nat) (f : Nat → Bool → Nat) (s : State) : State :=
  found.foldl (fun t x =>
    let z := pageSize x.level * runPages (entRun x.e)
    let base := x.va / z * z
    let cut := decide (base < lo) || decide (hi < base + z)
    let t := if cut then
        (span (x.idx / runPages (entRun x.e) * runPages (entRun x.e)) (runPages (entRun x.e))).foldl (fun t j =>
          let v := entryAt t x.tpa j
          let a := base + (j % runPages (entRun x.e)) * pageSize x.level
          if (a < lo || hi ≤ a) && entV v && entRun v != 0 then putEntry x.tpa j (clearRun v) t else t) t
      else t
    putEntry x.tpa x.idx (f x.e cut) t) s

def tableEmpty (s : State) (tpa : Nat) : Bool := (List.range 512).all (fun i => !entV (entryAt s tpa i))

/-- Give back a table that has emptied, and those above it that empty with it. -/
def pruneUp (tpa : Nat) : List (Nat × Nat) → State → State
  | [], s => s
  | (up, i) :: path, s =>
    if s.xl.pages.contains tpa && tableEmpty s tpa then pruneUp up path (putEntry up i 0 (givePage tpa s)) else s

def prune (found : List LeafAt) (s : State) : State := found.foldl (fun t x => pruneUp x.tpa x.path t) s

/-! ## The mapping word and its leaves (R316, R317, R399) -/

def mwAction (w : Nat) : Nat := bitsOf w 13 12
def mwList (w : Nat) : Bool := w.testBit 10
def mwSize (w : Nat) : Nat := bitsOf w 9 8
def mwRun (w : Nat) : Nat := bitsOf w 7 5
def mwAdvice (w : Nat) : Nat := bitsOf w 4 3
def mwX (w : Nat) : Bool := w.testBit 2
def mwW (w : Nat) : Bool := w.testBit 1
def mwR (w : Nat) : Bool := w.testBit 0

/-- Range, size and list checks that come before any leaf is looked at. -/
def wordChecks (va n pa w : Nat) (inval : Bool) : Nat :=
  let z := pageSize (mwSize w) * runPages (mwRun w)
  lowest [
    failIf (mwSize w == 3 || decide (4 < mwRun w) || (if inval then mwAction w == 3 else mwAction w != 0) || (mwList w && pa % 8 != 0)) 0x0113,
    failIf (va % 4096 != 0 || n % 4096 != 0 || n == 0 || decide (vaTop < va + n) || (mwSize w != 3 && (va % z != 0 || n % z != 0))) 0x0210]

/-- The code of a list of `n` u64 page addresses that cannot be read: it reads poison or is no memory (R399); the bridge holds it
(R367), or the host link is down (R381). A misaligned one is not read (R570). -/
def listCode (epoch pa n : Nat) (s : State) : Option Nat :=
  if pa % 8 != 0 then none
  else if !pageHome pa (8 * n) then some 0x0113
  else
    let c := (readCode (some epoch) [(0, pa, 8 * n)] s).1
    if c != 0 then some c else failIf (physPoison s pa (8 * n)) 0x0113

/-- A list of u64 page addresses at a physical address that can be read. -/
def readList (pa n : Nat) (s : State) : List Nat × State :=
  let (v, _, t) := readRuns [(0, pa, 8 * n)] (rangeAccess .ncrd 10 (if isDevMem pa (8 * n) then pa else 0) (if isDevMem pa (8 * n) then 8 * n else 0) s)
  ((List.range n).map (fun i => (v >>> (64 * i)) % 2 ^ 64), t)

/-- Memory no entry may map: the table area, the fault queue, the bias table (R314). -/
def forbiddenMap (s : State) (pa n : Nat) : Bool :=
  rangesMeet pa n s.xl.area s.xl.areaBytes || rangesMeet pa n (getF s atFqBaseBase 0 * 131072) 131072 ||
    (biasOn s && rangesMeet pa n (biasTable s) 0x3000000)

/-- Codes of the leaves that a command would write (R314, R316, R317). -/
def leafCodes (s : State) (w : Nat) (pas : List Nat) : List (Option Nat) :=
  let p := pageSize (mwSize w)
  let n := runPages (mwRun w)
  [failIf ((mwW w && !mwR w) || !(mwR w || mwW w || mwX w)) 0x0215,
   failIf (pas.any (fun a => !pageHome a p)) 0x0211,
   failIf (pas.any (fun a => a % p != 0 || (isHostWin a p && mwX w))) 0x0215,
   failIf ((List.range pas.length).any (fun i => let a := pas.getD i 0; let b := pas.getD (i / n * n) 0
     b % (p * n) != 0 || a != b + i % n * p)) 0x0215,
   failIf (pas.any (fun a => forbiddenMap s a p)) 0x0212]

def leafOf (w pa : Nat) : Nat := leafWord pa (mwRun w) (mwAdvice w) (mwR w) (mwW w) (mwX w)

/-- The physical pages of a command: from its list, or consecutive from PA. -/
def commandPages (n pa w : Nat) (s : State) : List Nat × State :=
  let k := n / pageSize (mwSize w)
  if mwList w then readList pa k s else ((List.range k).map (fun i => pa + i * pageSize (mwSize w)), s)

/-- The checks on the words and on the list of MAP or INVALIDATE: the lowest code (R399, R570). -/
def wordCode (oc : OpenCmd) (inval : Bool) (s : State) : Nat :=
  let ws := oc.words
  let w := wordAt ws 4
  lowest [some (wordChecks (wordAt ws 1) (wordAt ws 2) (wordAt ws 3) w inval),
    if mwList w && mwSize w != 3 then listCode oc.epoch (wordAt ws 3) (wordAt ws 2 / pageSize (mwSize w)) s else none]

/-! ## MAP (R330, R332) -/

/-- The entry at a level on the path of an address: a leaf above it, the entry itself with its table, or nothing yet. -/
inductive Spot where
  | above
  | entry (tpa e : Nat)
  | missing

def spotAt (s : State) (va lvl : Nat) : Nat → Nat → Spot
  | 0, tpa => .entry tpa (entryAt s tpa (vaIdx va 0))
  | l + 1, tpa =>
    let e := entryAt s tpa (vaIdx va (l + 1))
    if l + 1 ≤ lvl then .entry tpa e
    else if !entV e then .missing else if entLeaf e then .above else spotAt s va lvl l (entPa e)

/-- Rights of the first entry that the second lacks. -/
def rightsBeyond (a b : Nat) : Bool := (entR a && !entR b) || (entW a && !entW b) || (entX a && !entX b)

/-- What MAP does with one leaf: code, table pages needed, entry to write, and the run entry it splits. -/
structure MapStep where
  code : Nat := 0
  need : List (Nat × Nat) := []
  write : Option Nat := none
  split : Option Nat := none
  had : Bool := false

def mapLeaf (s : State) (lo hi lvl va w : Nat) : MapStep :=
  match spotAt s va lvl 4 (tableRoot s) with
  | .above => { code := 0x0213 }
  | .missing => { need := pathNeed s va lvl [] 4 (tableRoot s), write := some w }
  | .entry _ old =>
    if !entV old then { write := some w }
    else if !entLeaf old then { code := 0x0213 }
    else if entPa old != entPa w || rightsBeyond old w then { code := 0x0213, had := true }
    else if rightsBeyond w old then
      let z := pageSize lvl * runPages (entRun old)
      let base := va / z * z
      let new := leafWord (entPa old) (entRun old) (entAdvice old) (entR w) (entW w) (entX w)
      if base < lo ∨ hi < base + z then { write := some (clearRun new), split := some old, had := true }
      else { write := some new, had := true }
    else { had := true }

/-- Every stalled access of a fault is covered by the table as it stands. -/
def coveredNow (s : State) (a : XAcc) : Bool :=
  match tableLeaf s a.va with | some (_, _, e) => rightsCode a (entR e) (entW e) (entX e) == 0 | none => false

/-- Open faults on pages of a range whose accesses the table now covers resolve as retry (R330). -/
def mapSettle (lo hi : Nat) (s : State) : State :=
  let ids := s.xl.units.flatMap (fun e => (e.2.slots.filter (fun f => lo ≤ f.page * 4096 && f.page * 4096 < hi && f.accs.all (coveredNow s))).map (fun f => (e.1, f.id)))
  ids.foldl (fun t p => closeFault p.1 p.2 0 t) s

/-- What MAP finds and writes at each of its pages; `ws` is the command, `pas` the physical address of each page (R332). -/
def mapSteps (ws : List W64) (pas : List Nat) (t : State) : List (Nat × MapStep) :=
  let va := wordAt ws 1
  let lvl := mwSize (wordAt ws 4)
  ((List.range pas.length).map (fun i => va + i * pageSize lvl)).zip pas |>.map
    (fun x => (x.1, mapLeaf t va (va + wordAt ws 2) lvl x.1 (leafOf (wordAt ws 4) x.2)))

/-- The checks of MAP on its leaves and on the tables (R332). -/
def mapCodes (ws : List W64) (pas : List Nat) (t : State) : List (Option Nat) :=
  let w := wordAt ws 4
  let steps := mapSteps ws pas t
  let k := runPages (mwRun w)
  let mixed := (List.range (pas.length / k)).any (fun g =>
    let had := (List.range k).map (fun i => ((steps[g * k + i]?).map (·.2.had)).getD false)
    had.any id && !had.all id)
  leafCodes t w pas ++ [
    failIf (steps.any (fun x => x.2.code != 0)) 0x0213,
    failIf mixed 0x0215,
    failIf (pagesFree t < distinct (steps.flatMap (·.2.need))) 0x0214]

/-- The leaves of MAP's pages are written, in the table of each, which is made where it is missing (R332). -/
def mapWrite (lvl : Nat) (steps : List (Nat × MapStep)) (t : State) : State :=
  steps.foldl (fun u x => match x.2.write with
    | some e =>
      let (tpa, u) := tableFor x.1 lvl 4 (tableRoot u) u
      let u := match x.2.split with | some old => unrun tpa (vaIdx x.1 lvl) old u | none => u
      putEntry tpa (vaIdx x.1 lvl) (match x.2.split with | some _ => clearRun e | none => e) u
    | none => u) t

/-- MAP: its checks and its effect. -/
def mapBody (oc : OpenCmd) (s : State) : Body :=
  let va := wordAt oc.words 1
  let n := wordAt oc.words 2
  let w := wordAt oc.words 4
  let code := wordCode oc false s
  if code != 0 then refuseBody code s
  else
    let (pas, t) := commandPages n (wordAt oc.words 3) w s
    let steps := mapSteps oc.words pas t
    checked (mapCodes oc.words pas t) t
      (.ends (endDone ((steps.filter (fun x => x.2.write.isSome)).length) 0) (mapSettle va (va + n) (mapWrite (mwSize w) steps t)))

/-! ## The invalidation sequence (R332–R334) -/

/-- Units that must report: those in service. -/
def unitsUp (s : State) : Nat := (List.range 10).foldl (fun m u => if dieUp s (dieOfXunit u) then m + 2 ^ u else m) 0

/-- A piece's run on a global side lies in the range. -/
def pieceStale (c : CopyRec) (lo hi : Nat) (p : Piece) : Bool :=
  let d := c.desc.toNat
  (cpHasSrc d && cpSrcSpace d == 2 && rangesMeet p.srcVa p.len lo (hi - lo)) || (cpDstSpace d == 2 && rangesMeet p.dstVa p.len lo (hi - lo))

/-- Every unit drops what it buffers of the range; queued entries and invocations with a run in it become stale. -/
def dropRange (lo hi : Nat) (s : State) : State :=
  let keep := fun (b : BufEnt) => !rangesMeet b.va b.size lo (hi - lo)
  let units := s.xl.units.map (fun e => (e.1, { e.2 with
    sward := e.2.sward.map (fun x => (x.1, x.2.filter keep)), main := e.2.main.map (fun x => (x.1, x.2.filter keep)) }))
  let t : State := { s with xl.units := units }
  let t : State := ((List.range 10).filter (fun u => dieUp s (dieOfXunit u))).foldl (fun (t : State) u => bump atCountsInvals u 1 t) t
  let t : State := { t with tufts := t.tufts.map (fun e => (e.1, { e.2 with icache := e.2.icache.filter (fun l => !rangesMeet (l * 128) 128 lo (hi - lo)) })) }
  let ents := t.copies.ents.map (fun e => match copyGet t e.copy with
    | some c => if e.pieces.any (pieceStale c lo hi) then { e with stale := true } else e
    | none => e)
  let held := fun (c : CopyRec) => c.runs.any (fun r => rangesMeet r.1 r.2.2.1 lo (hi - lo))
  let ents := ents.map (fun e => match copyGet t e.copy with | some c => if held c then { e with stale := true } else e | none => e)
  let recs := t.copies.recs.map (fun c => if held c || c.rest.any (fun ps => ps.any (pieceStale c lo hi)) then { c with restStale := true } else c)
  { t with
    copies.ents := ents, copies.recs := recs
    stile.queue := t.stile.queue.map (fun e => (e.1, e.2.map (fun i =>
      if i.started && (i.res.outRuns ++ i.res.cntRuns).any (fun r => rangesMeet r.1 r.2.2 lo (hi - lo)) then { i with stale := true } else i))) }

/-- Host pages that buffered entries of a range let a unit write. -/
def hostPagesOf (lo hi : Nat) (s : State) : List Nat :=
  let bufs := s.xl.units.flatMap (fun e => (e.2.sward ++ e.2.main).flatMap (·.2))
  ((bufs.filter (fun b => rangesMeet b.va b.size lo (hi - lo) && b.w && isHostWin b.pa b.size)).map (·.pa)).foldl setAdd []

/-- The entries are written: send the range to all units. Posted writes to host pages of the range are followed by a flushing read
of each page (R332 step 6; log entry 186). -/
def sendRange (lo hi : Nat) (cmd : Option (Nat × Nat)) (s : State) : State :=
  let t := (hostPagesOf lo hi s).foldl (fun t pa => if hostReach t pa 4 then hostSend (.memRead (pa - hostWinBase) 4 0) t else t) s
  let t := setF atStatusInvalBusy 0 1 (dropRange lo hi t)
  { t with xl.inval := some { lo := lo, hi := hi, await := unitsUp t, cmd := cmd } }

/-- Bytes of a page copied by the control processor's credits (R335): from host memory the bytes are free values. -/
def movePage (src dst n : Nat) (s : State) : State :=
  if isDevMem src n then
    let t := rangeAccess .ncrd 10 src n s
    hostAsk (dst + n - 4) 4 (hostWrites dst n (fun o k => readNum t (src + o) k, fun o k => poisoned t (src + o) k) t)
  else
    let t := rangeAccess .ncwr 10 dst n (hostAsk src n s)
    drawn (devWrite dst n (freshVal t) t)

/-- Writes that met pages of [lo, hi) during the move walk again. -/
def moveRetry (lo hi : Nat) (s : State) : State :=
  let go := s.xl.moveWait.filter (fun a => lo ≤ a.va && a.va < hi)
  go.foldl (resume 0) { s with xl.moveWait := s.xl.moveWait.filter (fun a => !(lo ≤ a.va && a.va < hi)) }

/-- The PREFETCH moves its next page and remaps it, or completes. -/
def prefetchNext (p : PrefetchRun) (s : State) : State :=
  match p.todo with
  | [] => endById p.cmd (endDone p.moved 0) { s with xl.prefetch := none }
  | (va, dst, old) :: rest =>
    match tableLeaf s va with
    | none => s
    | some (tpa, l, e) =>
      let n := pageSize l
      let t := movePage (entPa e) dst n s
      let t := unrun tpa (vaIdx va l) e t
      let t := putEntry tpa (vaIdx va l) (leafWord dst 0 (entAdvice old) (entR old) (entW old) (entX old)) t
      sendRange va (va + n) none { t with xl.prefetch := some { p with todo := rest, moved := p.moved + 1, lowering := false } }

/-- All units have reported. -/
def invalDone (r : InvalRun) (s : State) : State :=
  let t := setF atStatusInvalBusy 0 0 { s with xl.inval := none }
  match r.cmd with
  | some (id, n) => endById id (endDone n 0) t
  | none =>
    match t.xl.prefetch with
    | none => t
    | some p => prefetchNext p (if p.lowering then t else moveRetry r.lo r.hi t)

/-- A unit still has an access to the range in flight (R332 step 6): a host read of a copy, or an ACPY.L, of its Meadow; a running
collective. -/
def unitBusy (s : State) (u lo hi : Nat) : Bool :=
  s.tufts.any (fun e => meadowOfTuft e.1 == u && e.2.laneCopies.any (fun l => l.moves.any (fun m => rangesMeet m.va m.len lo (hi - lo)))) ||
  (u == 8 && s.fab.colls.any (fun c => (c.src ++ c.dst).any (fun r => rangesMeet r.1 r.2.2 lo (hi - lo)))) ||
  s.link.reads.any (fun e => match copyGet s e.2.1 with | some c => c.sward / 16 == u && pieceStale c lo hi e.2.2 | none => false)

/-- INVAL_UNIT_REPORT: a unit reports that its earlier accesses to the range have completed. -/
def unitReports (u : Nat) (s : State) : State :=
  match s.xl.inval with
  | none => s
  | some r =>
    if !r.await.testBit u || unitBusy s u r.lo r.hi then s
    else
      let r := { r with await := r.await - 2 ^ u }
      if r.await = 0 then invalDone r s else { s with xl.inval := some r }

/-- A running PREFETCH stops, failed or cancelled (R336, R394, R401): pages not moved get their rights back and stay at their source. -/
def prefetchStops (how : CmdEnd) (s : State) : State :=
  match s.xl.prefetch with
  | none => s
  | some p =>
    let t := p.todo.foldl (fun t x => match tableLeaf t x.1 with
      | some (tpa, l, e) => putEntry tpa (vaIdx x.1 l) (leafWord (entPa e) (entRun e) (entAdvice e) (entR x.2.2) (entW x.2.2) (entX x.2.2)) t
      | none => t) s
    let t := setF atStatusInvalBusy 0 0 { t with xl.prefetch := none, xl.inval := none }
    endById p.cmd { how with r0 := p.moved } (moveRetry p.lo p.hi t)

/-! ## INVALIDATE -/

/-- The leaves that REMAP puts in the range, with their addresses (R332). -/
def remapLeaves (ws : List W64) (pas : List Nat) : List (Nat × Nat) :=
  (List.range pas.length).map (fun i => (wordAt ws 1 + i * pageSize (mwSize (wordAt ws 4)), leafOf (wordAt ws 4) (pas.getD i 0)))

/-- The checks of INVALIDATE on its leaves and on the tables (R332). -/
def invalCodes (ws : List W64) (pas : List Nat) (t : State) : List (Option Nat) :=
  let va := wordAt ws 1
  let w := wordAt ws 4
  let hi := va + wordAt ws 2
  let found := leavesIn t va hi
  let gone := found.map (fun x => (x.tpa, x.idx))
  let need := splitNeed t va hi ++ (remapLeaves ws pas).flatMap (fun x => pathNeed t x.1 (mwSize w) gone 4 (tableRoot t))
  let hostX := mwX w && found.any (fun x => isHostWin (entPa x.e) (pageSize x.level))
  (if mwAction w == 2 then leafCodes t w pas
    else if mwAction w = 1 then [failIf ((mwW w && !mwR w) || !(mwR w || mwW w || mwX w) || hostX) 0x0215] else []) ++
    [failIf (pagesFree t < distinct need) 0x0214]

/-- The leaves of the range as INVALIDATE leaves them: gone, of other rights, or replaced (R332). -/
def invalWrite (ws : List W64) (pas : List Nat) (t : State) : State :=
  let va := wordAt ws 1
  let w := wordAt ws 4
  let hi := va + wordAt ws 2
  let lvl := mwSize w
  let t := doSplits va hi t
  let found := leavesIn t va hi
  let t := if mwAction w = 1 then
      rewrite found va hi (fun e cut => leafWord (entPa e) (if cut then 0 else entRun e) (entAdvice e) (mwR w) (mwW w) (mwX w)) t
    else rewrite found va hi (fun _ _ => 0) t
  let t := (remapLeaves ws pas).foldl (fun t x =>
    let (tpa, t) := tableFor x.1 lvl 4 (tableRoot t) t
    let old := entryAt t tpa (vaIdx x.1 lvl)
    let t := if entV old && !entLeaf old then dropTree (lvl - 1) (entPa old) t else t
    putEntry tpa (vaIdx x.1 lvl) x.2 t) t
  prune found t

/-- Checks and effect of INVALIDATE on the table: the code that refuses it, or the number of leaves changed. -/
def invalBody (oc : OpenCmd) (s : State) : Body :=
  let va := wordAt oc.words 1
  let n := wordAt oc.words 2
  let w := wordAt oc.words 4
  let code := if mwAction w == 2 then wordCode oc true s else wordChecks va n (wordAt oc.words 3) w true
  if code != 0 then refuseBody code s
  else
    let (pas, t) := if mwAction w == 2 then commandPages n (wordAt oc.words 3) w s else ([], s)
    let leaves := if mwAction w == 2 then pas.length else (leavesIn (doSplits va (va + n) t) va (va + n)).length
    checked (invalCodes oc.words pas t) t (.runs (sendRange va (va + n) (some (oc.id, leaves)) (invalWrite oc.words pas t)))

/-! ## PREFETCH, ADVISE, RESOLVE -/

/-- The checks of PREFETCH on its leaves and on where their pages go (R335, R336). -/
def prefetchCodes (ws : List W64) (found : List LeafAt) (dst : List Nat) (t : State) : List (Option Nat) :=
  let va := wordAt ws 1
  let hi := va + wordAt ws 2
  let toHost := wordBits ws 4 0 0 == 1
  let covered := (found.map (fun x => pageSize x.level)).foldl (· + ·) 0
  let ps := found.zip dst
  let side := fun (host : Bool) (a z : Nat) => if host then isHostWin a z else isDevMem a z
  [failIf (covered != wordAt ws 2 || found.any (fun x => decide (x.va < va) || decide (hi < x.va + pageSize x.level))) 0x0216,
    failIf (ps.any (fun x => !pageHome x.2 (pageSize x.1.level))) 0x0211,
    failIf (ps.any (fun x => x.2 % pageSize x.1.level != 0)) 0x0215,
    failIf (ps.any (fun x => !side (!toHost) (entPa x.1.e) (pageSize x.1.level) || !side toHost x.2 (pageSize x.1.level))) 0x0216,
    failIf (toHost && found.any (fun x => entX x.e)) 0x0215,
    failIf (ps.any (fun x => forbiddenMap t x.2 (pageSize x.1.level))) 0x0212]

/-- The leaves of the range lose the right to write while their pages move (R335). -/
def writeProtect (found : List LeafAt) (lo hi : Nat) (t : State) : State :=
  rewrite found lo hi (fun e cut => leafWord (entPa e) (if cut then 0 else entRun e) (entAdvice e) (entR e) false (entX e)) t

/-- PREFETCH: its checks and its effect. With the host link down no page can move: 0x0830 (R381). -/
def prefetchBody (oc : OpenCmd) (s : State) : Body :=
  let va := wordAt oc.words 1
  let n := wordAt oc.words 2
  let la := wordAt oc.words 3
  let found := leavesIn s va (va + n)
  let early := lowest [
    failIf (la % 8 != 0) 0x0113,
    failIf (va % 4096 != 0 || n % 4096 != 0 || n == 0 || decide (vaTop < va + n)) 0x0210,
    failIf (selfHosted s) 0x0216,
    failIf (getF s hlStatusLinkUp 0 == 0) 0x0830,
    listCode oc.epoch la found.length s]
  if early != 0 then refuseBody early s
  else
    let (dst, t) := readList la found.length s
    let run : PrefetchRun := { cmd := oc.id, lo := va, hi := va + n, todo := (found.zip dst).map (fun x => (x.1.va, x.2, x.1.e)), toHost := wordBits oc.words 4 0 0 == 1 }
    checked (prefetchCodes oc.words found dst t) t
      (.runs (sendRange va (va + n) none { writeProtect found va (va + n) t with xl.prefetch := some run }))

def adviseBody (oc : OpenCmd) (s : State) : Body :=
  let va := wordAt oc.words 1
  let n := wordAt oc.words 2
  let adv := wordBits oc.words 3 1 0
  let hi := va + n
  if va % 4096 != 0 || n % 4096 != 0 || n == 0 || decide (vaTop < hi) then refuseBody 0x0210 s
  else if pagesFree s < distinct (splitNeed s va hi) then refuseBody 0x0214 s
  else
    let t := doSplits va hi s
    let found := leavesIn t va hi
    .ends (endDone found.length 0)
      (rewrite found va hi (fun e cut => leafWord (entPa e) (if cut then 0 else entRun e) adv (entR e) (entW e) (entX e)) t)

def resolveBody (oc : OpenCmd) (s : State) : Body :=
  let id := wordBits oc.words 1 15 0
  match faultUnit s id with
  | none => refuseBody 0x0219 s
  | some u => .ends (endDone 0 0) (closeFault u id (if wordBits oc.words 1 16 16 = 1 then 0x0204 else 0) s)

/-- Table commands run one at a time, in the order of acceptance. -/
def tableOps : List Nat := [0x30, 0x31, 0x33, 0x34]
def tableGate (oc : OpenCmd) (s : State) : Bool :=
  s.xl.inval.isNone && s.xl.prefetch.isNone && !s.ob.openCmds.any (fun o => o.id < oc.id && tableOps.contains (cmdOpcode o.words))

/-- A table command's row: its opcode, and where rows share one, the field that tells them apart. -/
def runTable (op : Nat) (mine : List W64 → Bool) (body : OpenCmd → State → Body) (c : Cmd) (s : State) : State :=
  runWith (cmdOpcode c.words == op && mine c.words) (fun _ => ownRecord c.door c.words) body c s tableGate

def doMap (c : Cmd) (s : State) : State := runTable 0x30 (fun _ => true) mapBody c s
/-- ACTION 0b00; the reserved ACTION is refused here too. -/
def doInvalUnmap (c : Cmd) (s : State) : State := runTable 0x31 (fun w => mwAction (wordAt w 4) == 0 || mwAction (wordAt w 4) == 3) invalBody c s
def doInvalProtect (c : Cmd) (s : State) : State := runTable 0x31 (fun w => mwAction (wordAt w 4) == 1) invalBody c s
def doInvalRemap (c : Cmd) (s : State) : State := runTable 0x31 (fun w => mwAction (wordAt w 4) == 2) invalBody c s
def doPrefetch (toHost : Nat) (c : Cmd) (s : State) : State := runTable 0x33 (fun w => wordBits w 4 0 0 == toHost) prefetchBody c s
def doAdvise (c : Cmd) (s : State) : State := runTable 0x34 (fun _ => true) adviseBody c s
def doResolve (fail : Nat) (c : Cmd) (s : State) : State :=
  runWith (cmdOpcode c.words == 0x32 && wordBits c.words 1 16 16 == fail) (fun _ => ownRecord c.door c.words) resolveBody c s

end Sys2Proof.Machine
end

