-- ==== Sys2Proof/Machine/CohRest.lean ====
section
/-! DEFINITION. Sys2Proof/Machine/CohRest.lean: coherence beyond its messages: host answers, page bias, directory errors,
home timeouts, agents and homes that leave (R289, R292, R302–R311). -/
namespace Sys2Proof.Machine

/-! ## Host answers and flips (R307, R309, R310) -/

def flipMod (cmd : Nat) (f : BiasFlip → BiasFlip) (s : State) : State :=
  { s with coh.flips := s.coh.flips.map (fun x => if x.cmd == cmd then f x else x) }

/-- Lines that a home has outstanding for flips. -/
def flipLoad (s : State) (h : Nat) : Nat :=
  (s.coh.flips.map (fun f => (f.awaiting.filter (fun l => homeOfLine l == h)).length)).foldl (· + ·) 0

/-- Send RdOwnNoData for the lines of a flip, up to 64 at a time per home. -/
def flipSend (cmd : Nat) (s : State) : State :=
  match s.coh.flips.find? (fun f => f.cmd == cmd) with
  | none => s
  | some f => f.todo.foldl (fun t l =>
      if flipLoad t (homeOfLine l) < 64 then
        flipMod cmd (fun f => { f with todo := f.todo.filter (· != l), awaiting := f.awaiting ++ [l] })
          (hostSend (.d2h 2 (l * 128)) t)
      else t) s

/-- A page of a flip whose every line has its GO: to device bias, or abandoned. -/
def flipPage (cmd page : Nat) (touched : Bool) (s : State) : State :=
  let t := flipMod cmd (fun f => { f with pages := f.pages.filter (· != page), touched := f.touched.filter (· != page), abandoned := f.abandoned + bit touched }) s
  if touched then raise flCoStatusBiasAbandon (homeOf (page * 4096)) t else setBias page false t

/-- Pages of a flip that are done, and the command's end when none is left. -/
def flipCheck (cmd : Nat) (s : State) : State :=
  match s.coh.flips.find? (fun f => f.cmd == cmd) with
  | none => s
  | some f =>
    let busy := fun (p : Nat) => (f.awaiting ++ f.todo).any (fun l => l * 128 / 4096 == p)
    let t := (f.pages.filter (fun p => !busy p)).foldl (fun t p => flipPage cmd p (f.touched.contains p) t) s
    match t.coh.flips.find? (fun f => f.cmd == cmd) with
    | none => t
    | some g =>
      if g.pages.isEmpty then
        endById cmd (if g.abandoned = 0 then endDone 0 0 else endFailed 0x0524 g.abandoned)
          { t with coh.flips := t.coh.flips.filter (fun f => f.cmd != cmd) }
      else t

/-- A flip has its GO for a line; what the host returns goes to the slice. -/
def flipGo (cmd line : Nat) (d : Option LineData) (s : State) : State :=
  let t := flipMod cmd (fun f => { f with awaiting := f.awaiting.filter (· != line) }) s
  let t := match d with | some x => applyLineData line x 15 (sliceAccess (slicePut line 10 15) t) | none => t
  flipCheck cmd (flipSend cmd t)

/-- HOST_D2H_RESPONSE: data goes to the slice first and the request proceeds; or a flip has its GO for the line. -/
def hostResponse (pa : Nat) (d : Option LineData) (s : State) : State :=
  let line := pa / 128
  match openTxn s line, s.coh.flips.find? (fun f => f.awaiting.contains line) with
  | some (key, e, t), f =>
    if t.d2h then
      let u := match d with | some x => applyLineData line x 15 (sliceAccess (slicePut line 10 15) s) | none => s
      settle (decideStable t.req key e u)
    else match f with
      | some f => flipGo f.cmd line d s
      | none => s
  | none, some f => flipGo f.cmd line d s
  | none, none => s

/-- Link loss at the homes (R310): outstanding device-to-host requests, those of flips among them, end with 0x0525 and their lines
poisoned; flips skip the host. -/
def homesLinkLost (s : State) : State :=
  let open_ := s.coh.dir.filterMap (fun e => match entryTxn s e.1 e.2 with | some t => if t.d2h then some t.req.line else none | none => none)
  let t := open_.foldl (fun t line =>
    match openTxn t line with
    | some (key, e, x) => settle (decideStable x.req key e (notice 0x0525 (line * 128) (8 + homeOfLine line) (poisonRange (line * 128) 128 t)))
    | none => t) s
  let t := (t.coh.flips.flatMap (·.awaiting)).foldl (fun t line =>
    notice 0x0525 (line * 128) (8 + homeOfLine line) (poisonRange (line * 128) 128 t)) t
  (t.coh.flips.map (·.cmd)).foldl (fun t c => flipCheck c (flipMod c (fun f => { f with awaiting := [], todo := [] }) t)) t

/-- BIAS_SET (R309). -/
def biasBody (oc : OpenCmd) (s : State) : Body :=
  let pa := wordAt oc.words 1
  let n := wordAt oc.words 2
  let pages := span (pa / 4096) (n / 4096)
  if pa % 4096 != 0 || n % 4096 != 0 || !isDevMem pa n || !biasOn s then refuseBody 0x0523 s
  else if wordBits oc.words 3 0 0 = 1 then .ends (endDone 0 0) (pages.foldl (fun t p => setBias p true t) s)
  else
    let pages := pages.filter (hostBias s)
    if pages.isEmpty then .ends (endDone 0 0) s
    else
      let lines := if flagSet s hlStatusLinkUp 0 then pages.flatMap (fun p => span (p * 32) 32) else []
      .runs (flipCheck oc.id (flipSend oc.id { s with coh.flips := s.coh.flips ++ [{ cmd := oc.id, pages := pages, todo := lines }] }))

def doBiasSet (toHost : Nat) (c : Cmd) (s : State) : State :=
  runWith (cmdOpcode c.words == 0x38 && wordBits c.words 3 0 0 == toHost) (fun _ => ownRecord c.door c.words) biasBody c s

/-- DIR_READ (R289). -/
def dirReadBody (oc : OpenCmd) (s : State) : Body :=
  let w := wordAt oc.words 1
  .ends (endDone (match tget s.coh.dir (dirBase (bitsOf w 3 0) (bitsOf w 18 4) + bitsOf w 22 19) with | some e => encodeDir e | none => 0) 0) s

/-! ## Directory errors and timeouts (R292, R302) -/

/-- DIR_ECC_ERROR: an entry that cannot be corrected. A transaction open on it begins afresh afterwards, unless its grant has been
sent already. -/
def dirEcc (h set way : Nat) (s : State) : State :=
  let key := dirBase h set + way
  let t := match tget s.coh.dir key with
    | none => s
    | some e =>
      let line := lineOfEntry key e
      let t := match entryTxn s key e with
        | some x => if x.req.port < 12 && x.phase != .oa then { s with coh.waiting := s.coh.waiting ++ [x.req] } else s
        | none => s
      let owner := if e.st = 2 then (List.range 10).find? (fun a => e.sharers.testBit a) else none
      snoopMask .snpi 1023 line (beginTxn key e { req := { kind := .eccSweep, port := 99, line := line }, phase := .os, await := 1023, owner := owner } t)
  pendErr { level := lvPackage, unit := 8 + h, reason := 0x0522, cls := 0x02, detail := set * 16 + way } (raise flCoStatusDirErr h t)

/-- DETAIL of a timeout record: the line's address and the agent, 15 for the outside host. -/
def timeoutDetail (line agent : Nat) : Nat := packBits [(line * 128, 0), (agent, 56)]

/-- The agents of a mask. -/
def agentsOf (m : Nat) : List Nat := (List.range 10).filter (fun a => m.testBit a)

/-- The home timeout expires on a line (R302), of a transaction or of a flip's device-to-host request: the agents that have not
answered, and the state. -/
def homeTimeoutAt (line : Nat) (s : State) : List Nat × State :=
  let h := homeOfLine line
  match openTxn s line with
  | none => match s.coh.flips.find? (fun f => f.awaiting.contains line) with
    | none => ([], s)
    | some f => ([], flipGo f.cmd line none (writeErr
        { level := lvPackage, unit := 8 + h, reason := 0x0520, cls := 0x04, verdict := vTransient, detail := timeoutDetail line 15 } none
        (raise flCoStatusTimeout h (poisonRange (line * 128) 128 s))))
  | some (key, e, t) =>
    let late := match t.phase with
      | .os => agentsOf t.await
      | .ow => t.owner.toList
      | .oa => if t.req.port < 10 then [t.req.port] else []
      | .om => []
    let rep := fun (u : State) => (if t.phase = .os && t.d2h then [15] else late).foldl (fun u a =>
      writeErr { level := lvPackage, unit := 8 + h, reason := 0x0520, cls := 0x04, verdict := vTransient, detail := timeoutDetail line a } none u)
        (raise flCoStatusTimeout h u)
    match t.phase with
    | .om => ([], s)
    | .oa => (late, settle (closeTxn key e (rep s)))
    | _ =>
      let e := { e with sharers := late.foldl (fun m a => withBits m a a 0) e.sharers }
      let u := rep (poisonRange (line * 128) 128 (dirPut key e s))
      if t.d2h then ([], settle (decideStable t.req key e u))
      else (late, settle (finishTxn key e { t with await := 0, wbp := false } u))

/-! ## Agents and homes that leave (R303, R304) -/

/-- A transaction of a home after the loss of agent `a`. -/
def txnWithout (a key : Nat) (e : DirEnt) (s : State) : State :=
  match entryTxn s key e with
  | none => s
  | some t =>
    let line := t.req.line
    let mine := t.req.port == a
    let req := if mine then { t.req with port := 99, kind := if t.req.kind = .rds ∨ t.req.kind = .ncrd then .ncrd else .recall } else t.req
    let waited := t.await.testBit a || (t.phase == .ow && t.owner == some a)
    let t' := { t with req := req, await := withBits t.await a a 0, ownerKeepsS := t.ownerKeepsS && t.owner != some a }
    let s := if waited && t.owner == some a then poisonRange (line * 128) 128 s else s
    if mine && t.phase == .oa then closeTxn key e s
    else if waited && t'.await = 0 && t.owner != some a && t'.wbp && !t'.wbApplied then txnPut key e { t' with phase := .ow } s
    else if (waited && t'.await = 0) || (mine && t'.phase == .om) then finishTxn key e t' s
    else txnPut key e t' s

/-- A caching agent leaves the domain: what stood on its die is gone (R303 step 1). -/
def agentGone (a : Nat) (s : State) : State := { s with coh.lines := s.coh.lines.filter (fun e => e.1 / 2 ^ 34 != a) }

/-- A home's directory without the reservations of a port (R301, R303; log entry 163). -/
def resvDropped (h a : Nat) (dir : Table DirEnt) : Table DirEnt :=
  dir.filterMap (fun x =>
    if x.1 / 524288 == h && x.2.resv == some a then
      (if x.2.st = 0 ∧ x.2.txn = none then none else some (x.1, { x.2 with resv := none }))
    else some x)

/-- A home learns that an agent left: the agent's requests, messages and reservations there go, its transactions close, and the home
begins to sweep (R303). The same port carries a fenced Meadow's non-caching requests; ports 10 and 11 hold no copies. -/
def agentLeavesAt (h a : Nat) (s : State) : State :=
  if s.lostHomes.contains h then s
  else
    let coh := { s.coh with
      dir := resvDropped h a s.coh.dir
      waiting := s.coh.waiting.filter (fun r => r.port != a || homeOfLine r.line != h)
      msgs := s.coh.msgs.filter (fun m => m.port != a || homeOfLine m.line != h)
      ncHeld := s.coh.ncHeld.filter (fun r => r.port != a || homeOfLine r.line != h)
      ncNacked := s.coh.ncNacked.filter (fun r => r.port != a || homeOfLine r.line != h)
      credits := s.coh.credits.filter (fun e => e.1 != creditKey h a) }
    let t : State := { s with coh := coh }
    let t := (t.coh.dir.filter (fun e => e.2.txn.isSome && e.1 / 524288 == h)).foldl (fun t e => txnWithout a e.1 e.2 t) t
    settle (if a < 10 then setF coStatusSweep h 1 { t with coh.sweeping := tput t.coh.sweeping h (tgetD t.coh.sweeping h 0 ||| 2 ^ a) } else t)

/-- A home's sweep for one agent: the directory without it, and the lines poisoned. -/
def sweepAgent (h a : Nat) (s : State) : Nat × State :=
  (s.coh.dir.filter (fun e => e.1 / 524288 == h && e.2.sharers.testBit a)).foldl (fun (acc : Nat × State) e =>
    let left := withBits e.2.sharers a a 0
    let gone : DirEnt := { e.2 with sharers := left, st := if left = 0 then 0 else e.2.st }
    if (entryTxn acc.2 e.1 e.2).isSome then (acc.1, dirPut e.1 { e.2 with sharers := left } acc.2)
    else
      let line := lineOfEntry e.1 e.2
      let t := if e.2.st = 2 then poisonRange (line * 128) 128 acc.2 else acc.2
      (acc.1 + bit (e.2.st == 2), if gone.st = 0 ∧ gone.resv = none then dirDel e.1 t else dirPut e.1 gone t)) (0, s)

/-- DIRECTORY_SWEEP_DONE: the sweep of a home ends, one record for each agent lost; waiting requests proceed. -/
def sweepDone (h : Nat) (s : State) : State :=
  match tget s.coh.sweeping h with
  | none => s
  | some m =>
    let t := (agentsOf m).foldl (fun t a =>
      let (n, t) := sweepAgent h a t
      writeErr { level := lvPackage, unit := 8 + h, subunit := a, reason := 0x0521, cls := 0x07, verdict := vLasting, out := true, detail := n } none
        (raise flCoStatusAgentLost h t)) s
    settle (setF coStatusSweep h 0 { t with coh.sweeping := tdel t.coh.sweeping h })

/-- What is left of a message once the home of its line is lost: an answer to a non-caching request becomes the requester's own die's,
poisoned; nothing else arrives (R304). -/
def msgOfLost (m : CohMsg) : Option CohMsg :=
  if m.kind == .ncdata || m.kind == .ncack then some { m with answer.poison := if m.kind == .ncack then 1 else m.answer.sectors } else none

/-- A home is lost: its directory and the messages on their way to and from it are gone (R283, R304). -/
def homeGone (h : Nat) (s : State) : State :=
  let coh := { s.coh with
    dir := s.coh.dir.filter (fun e => e.1 / 524288 != h)
    msgs := s.coh.msgs.filterMap (fun m => if homeOfLine m.line == h then msgOfLost m else some m)
    sweeping := tdel s.coh.sweeping h }
  setF coStatusSweep h 0 { s with coh := coh, lostHomes := setAdd s.lostHomes h }

/-- The die of a port learns that a home is lost: its requests open, pending or nacked there end with poison, its lines in W
leave it (R304). -/
def homeLostAt (h port : Nat) (s : State) : State :=
  let mine := fun (r : HomeReq) => r.port == port && homeOfLine r.line == h
  let open_ := ((s.coh.txns.filter (fun e => e.1 / 1024 == h && mine e.2.req && e.2.phase != .oa)).map (·.2.req)) ++
    (s.coh.waiting ++ s.coh.ncNacked ++ s.coh.ncHeld).filter mine
  let coh := { s.coh with
    txns := s.coh.txns.filter (fun e => e.1 / 1024 != h || !mine e.2.req), waiting := s.coh.waiting.filter (fun r => !mine r)
    ncNacked := s.coh.ncNacked.filter (fun r => !mine r), ncHeld := s.coh.ncHeld.filter (fun r => !mine r) }
  let t := open_.foldl (fun t r => endLocal r t) { s with coh := coh }
  -- requests still on their way or nacked, and writebacks
  (t.coh.lines.filter (fun e => e.1 / 2 ^ 34 == port && homeOfLine (e.1 % 2 ^ 34) == h)).foldl (fun t e =>
    let line := e.1 % 2 ^ 34
    let c := cacheLine t port line
    if c.st == .w || c.req.isSome then
      setCacheLine port line { c with st := if c.st = .w then .i else c.st, req := none, held := false, nacked := false, stores := [], loads := 0 } t
    else t) t

end Sys2Proof.Machine
end

