-- ==== Sys2Proof/Machine/Verdict.lean ====
section
/-! DEFINITION. Sys2Proof/Machine/Verdict.lean: verdicts of targeted self-tests with the escalation of R504, and the errors
of stacks and slices (R276–R284, R502, R512). -/
namespace Sys2Proof.Machine

/-! ## Verdict records (R502, R504) -/

/-- 24 hours of the package timer. -/
def dayNs : Nat := 86400000000000

/-- A pending record whose `same` picks an earlier one links to that one (R512). -/
def pendAs (same : ErrRec → Bool) (e : ErrRec) (s : State) : State :=
  writeErr { e with verdict := vPending } ((s.err.pend.find? same).map (·.link)) s

/-- Conditions that get no verdict record (R503). -/
def conditionReasons : List Nat := [0x0516, 0x0631, 0x0640, 0x0831]

/-- Pending records of faulty units. -/
def pendingFaults (s : State) : List ErrRec := s.err.pend.filter (fun p => !conditionReasons.contains p.reason)

/-- Transient verdicts of a unit and class within 24 hours. -/
def recentTransients (s : State) (level unit sub cls : Nat) : Nat :=
  (s.err.hist.filter (fun h => h.1 == level && h.2.1 == unit && h.2.2.1 == sub && h.2.2.2.1 == cls &&
    decide ((cpTime s : Int) - h.2.2.2.2 < (dayNs : Int)))).length

/-- A part of a unit passed its test: the transient verdict is kept, or it is the third of its class in 24 hours (R504). -/
def countsTransient (level unit sub cls : Nat) (s : State) : Bool × State :=
  if 2 ≤ recentTransients s level unit sub cls then (false, raise flReStatusEscalated 0 s)
  else (true, { s with err.hist := (level, unit, sub, cls, (cpTime s : Int)) :: s.err.hist })

/-- A test of the unit of pending record `p` passed: the transient verdict is kept, or it is the third of its class in 24
hours and lasting (R504). `sub` names the part tested. Injected errors are not counted. -/
def passes (p : ErrRec) (sub : Nat) (s : State) : Bool × State :=
  let t := bump reCountsTests 0 1 s
  if p.injected then (true, writeErr { p with verdict := vTransient } (some p.link) t)
  else
    let r := countsTransient p.level p.unit sub p.cls t
    if r.1 then (true, writeErr { p with verdict := vTransient } (some p.link) r.2) else r

/-- A lasting verdict for pending record `p`. -/
def lasting (p : ErrRec) (reason detail : Nat) (repaired out : Bool) (s : State) : State :=
  writeErr { p with reason := reason, detail := detail, verdict := vLasting, repaired := repaired, out := out } (some p.link) s

/-! ## Temperature (R276) -/

/-- An error record of a Hayloft die's own condition or memory. -/
def hayRec (h reason cls verdict detail : Nat) : ErrRec :=
  { level := lvPackage, unit := 8 + h, reason := reason, cls := cls, verdict := verdict, detail := detail }

/-- Above 95 °C (Table MS-5). -/
def bandHot : StackBand → Bool
  | .upTo85 => false | .upTo95 => false | .upTo100 => true | .upTo105 => true | .above105 => true

/-- REFRESH_RATE of a temperature band (Table MS-5). -/
def bandRate : StackBand → Nat
  | .upTo85 => 0 | .upTo95 => 1 | .upTo100 => 2 | .upTo105 => 2 | .above105 => 2

/-- STACK_TEMP_BAND_CHANGE (Table MS-5): refresh rate, THERMAL with a pending 0x0516 on passing 95 °C, THERM_HOLD above
105 °C until below 100 °C. The 0x0516 record closes when the stack is back at 95 °C or below (R503). -/
def doStackTempBandChange (h : Nat) (b : StackBand) (s : State) : State :=
  let y := hayGet s h
  let t := hayPut h { y with band := b } s
  let t := setF hayStatusRefreshRate h (bandRate b) t
  let t := match b with
    | .above105 => setF hayStatusThermHold h 1 t
    | .upTo105 => t
    | _ => setF hayStatusThermHold h 0 t
  if bandHot b && !bandHot y.band then writeErr (hayRec h 0x0516 0x06 vPending 0) none (raise flHayStatusThermal h t)
  else if bandHot y.band && !bandHot b then { t with err.pend := t.err.pend.filter (fun p => !(p.reason == 0x0516 && p.unit == 8 + h)) }
  else t

def execStackTempBandChange (h : HomeNo) (b : StackBand) (s : State) : Host.Outcome State Fault Refusal :=
  homeAct s (doStackTempBandChange h b s)

/-! ## DRAM (R278–R281) -/

/-- A pending record of an address's row. -/
def rowPending (s : State) (pa : Nat) : Option ErrRec :=
  s.err.pend.find? (fun p => p.level == lvPackage && p.unit == 8 + homeOf pa && (p.reason == 0x0510 || p.reason == 0x0511) &&
    p.detail % 2 ^ 32 / 64 == rowKey pa)

/-- A record about a row, linked to its first pending record. -/
def rowRecord (pa reason cls : Nat) (s : State) : State :=
  writeErr (hayRec (homeOf pa) reason cls vPending (locWord pa)) ((rowPending s pa).map (·.link)) s

/-- DRAM_CORRECTED_ERROR (R278). -/
def dramCorrected (pa : Nat) (s : State) : State :=
  let h := homeOf pa
  let now := cpTime s
  let y := hayGet s h
  let times := (now :: tgetD y.ceTimes (rowKey pa) []).filter (fun x => now - x < dayNs)
  let t := bump hayCountsCeCount h 1 s
  if (rowPending s pa).isSome then t
  else if 16 ≤ times.length then
    rowRecord pa 0x0510 0x03 (raise flHayStatusCeThresh h (hayPut h { y with ceTimes := tput y.ceTimes (rowKey pa) [] } t))
  else hayPut h { y with ceTimes := tput y.ceTimes (rowKey pa) times } t

/-- MEMORY_UNCORRECTABLE (R279): the sector is poisoned, UE set, the record written. -/
def memUncorrectable (pa : Nat) (inSlice : Bool) (s : State) : State :=
  let h := homeOf pa
  let t := raise flHayStatusUe h (poisonRange (pa / 32 * 32) 32 s)
  if inSlice then
    let e := hayRec h 0x0514 0x02 vPending (locWord pa)
    pendAs (fun p => p.level == lvPackage && p.unit == 8 + h && p.reason == 0x0514 && p.detail == locWord pa) e t
  else rowRecord pa 0x0511 0x02 t

/-- PATROL_SCRUB_READ: the next sector of the stack is read and corrected under R278, or found uncorrectable. -/
def patrolRead (h : Nat) (corrected bad : Bool) (s : State) : State :=
  let y := hayGet s h
  let pa := physLine h (y.scrubPos / 4) * 128 + y.scrubPos % 4 * 32
  let t := hayPut h { y with scrubPos := (y.scrubPos + 1) % 0xC0000000 } s
  if ctrlHolds s h (bankOfRow (rowKey pa)) then s
  else if bad && !poisoned s pa 32 then memUncorrectable pa false t else if corrected then dramCorrected pa t else t

/-- Address of sector `i` of an address's row: half 0 first. -/
def rowSector (pa i : Nat) : Nat := (if i < 32 then (rowGranules pa).1 else (rowGranules pa).2) * 1024 + i % 32 * 32

/-- The row is mapped onto a spare, or retired where the bank has none left (R280 steps 4 and 5). -/
def repairRow (pa : Nat) (p : ErrRec) (escalated : Bool) (s : State) : State :=
  let h := homeOf pa
  let y := hayGet s h
  let b := bankOfRow (rowKey pa)
  let used := tgetD y.sparesUsed b 0
  let word := locWord pa / 64 * 64
  if used < 4 then
    lasting p (if escalated then 0x0A53 else 0x0512) p.detail true false (raise flHayStatusRowRepair h
      (hayPut h { y with sparesUsed := tput y.sparesUsed b (used + 1), rowMap := tput y.rowMap (rowKey pa) used } s))
  else
    let g := rowGranules pa
    lasting p (if escalated then 0x0A53 else 0x0513) (word + g.1 * 2 ^ 32) false false
      (raise flHayStatusSpareLow h { s with retired := setAdd (setAdd s.retired g.1) g.2 })

/-- DRAM_ROW_TEST_DONE (R280): errors found while the row was copied, then the verdict. -/
def rowTestDone (pa : Nat) (ok : Bool) (badSectors corrected : Nat) (s : State) : State :=
  let h := homeOf pa
  match rowPending s pa with
  | none => s
  | some p =>
    let bad := (List.range 64).filter (fun i => badSectors.testBit i && !poisoned s (rowSector pa i) 32)
    let t := bump hayCountsCeCount h (popCount corrected 64) s
    let t := bad.foldl (fun t i => memUncorrectable (rowSector pa i) false t) t
    if ok then
      let (fine, t) := passes p (rowKey pa + 1) t
      if fine then t else repairRow pa p true t
    else repairRow pa p false (bump reCountsTests 0 1 t)

/-! ## Slices (R282) -/

/-- Retire a location, or beyond 256 its way. -/
def retireLoc (h loc : Nat) (s0 : State) : State :=
  let s := stackRun h 1024 s0
  let y := hayGet s h
  if y.retiredLocs.length < 256 then
    hayPut h { sliceEvict h loc y with retiredLocs := setAdd y.retiredLocs loc } s
  else
    let w := loc % 16
    let off := fun (m : Nat) => m &&& (65535 - 2 ^ w)
    let gone := (y.lines.filter (fun e => e.1 % 16 == w)).foldl (fun y e => sliceEvict h e.1 y) y
    setF hayStatusWaysPowered h (popCount (off y.powered) 16) (hayPut h { gone with
      disabledWays := y.disabledWays ||| 2 ^ w, powered := off y.powered, lockedWays := off y.lockedWays, waking := off y.waking } s)

/-- HAYLOFT_LOCATION_TEST_DONE. -/
def locTestDone (pa way : Nat) (ok : Bool) (s : State) : State :=
  let h := homeOf pa
  let loc := sliceSet pa * 16 + way
  match s.err.pend.find? (fun p => p.level == lvPackage && p.unit == 8 + h && p.reason == 0x0514 && p.detail == locWord pa) with
  | none => s
  | some p =>
    if ok then
      let (fine, t) := passes p (loc + 2 ^ 40) s
      if fine then t else lasting p 0x0A53 p.detail true false (retireLoc h loc t)
    else lasting p 0x0515 p.detail true false (retireLoc h loc (bump reCountsTests 0 1 s))

end Sys2Proof.Machine
end

