-- ==== Sys2Proof/Machine/Fabric.lean ====
section
/-! DEFINITION. Sys2Proof/Machine/Fabric.lean: the tensor fabric: ports, position, partitions, bursts, collectives, lane
failures and plane swaps (R414–R440). -/
namespace Sys2Proof.Machine

/-! ## Position and routes (R415, R418–R422) -/

/-- Number of ones in a number. -/
def ones (n : Nat) : Nat := popCount n 16

/-- The position straps are valid (R418). -/
def strapsOk (p : Pins) : Bool :=
  decide (p.posX ≤ 8) && (ones p.posX + ones p.posY + ones p.posZ + p.posPar) % 2 == 1

/-- Member code of a position. -/
def memberCode (plane y z : Nat) : Nat := plane * 16 + y * 4 + z

/-! ## Ports -/

def fabPort (s : State) (p : Nat) : FabPort := tgetD s.fab.ports p {}
def fabPortMod (p : Nat) (f : FabPort → FabPort) (s : State) : State := { s with fab.ports := tmod s.fab.ports p {} f }

/-- An error record of the fabric that carries its verdict (R571). -/
def fabRec (unit sub reason cls verdict detail : Nat) (s : State) : State :=
  writeErr { level := lvPackage, unit := unit, subunit := sub, reason := reason, cls := cls, verdict := verdict, detail := detail } none s

/-- Both ports of a direction are down: a detour, with 0x0315 (R431). -/
def directionCheck (p : Nat) (s : State) : State :=
  if !portUp s p && !portUp s ((p + 8) % 16) then fabRec (0x180 + p) 0xFFFF 0x0315 0x05 vLasting 0 s else s

/-- A port stays down after training; its partner, disabled or left down by its own training, carries nothing either. -/
def trainingFails (p : Nat) (s : State) : State :=
  let q := (p + 8) % 16
  let t := fabPortMod p (fun x => { x with failed := true }) (setF tfPortStatusLanesUsed p 0 (setF tfPortStatusWidth p 0 s))
  if (fabPort t q).failed || flagSet t tfPortStatusDisabled q then directionCheck p t else t

/-- A collective that fails (R436): its destination holds undefined bytes. -/
def collFails (c : CollRun) (code : Nat) (s : State) : State :=
  let n := (c.dst.map (·.2.2)).foldl (· + ·) 0
  endById c.cmd (endFailed code 0) (drawn (ioPut 8 c.dst (freshVal s % 256 ^ n) false s))

def clOp (w : Nat) : Nat := bitsOf w 2 0
def clRed (w : Nat) : Nat := bitsOf w 5 4
def clType (w : Nat) : Nat := bitsOf w 9 8
def clGroup (w : Nat) : Nat := bitsOf w 13 12
def clRoot (w : Nat) : Nat := bitsOf w 27 16
def clBytes (w : Nat) : Nat := if clType w = 1 then 2 else if clType w = 2 then 8 else 4

/-- Position of logical plane X on the x ring of n planes (R422). -/
def ringPos (n x : Nat) : Nat := if n ≤ 2 ∨ n = 8 then x else if x % 2 = 0 then x / 2 else n - 1 - (x - 1) / 2

/-- Members of a group in order of their positions, for a partition of `n` planes and a member of rank `r`. -/
def groupRanks (w n r : Nat) : List Nat :=
  match clGroup w with
  | 0 => List.range (16 * n)
  | 1 => (List.range n).map (fun k => ((List.range n).find? (fun x => ringPos n x == k)).getD 0 * 16 + r % 16)
  | 2 => (List.range 4).map (fun y => r / 16 * 16 + y * 4 + r % 4)
  | _ => (List.range 4).map (fun z => r / 4 * 4 + z)

/-- Members of a collective's group. -/
def collGroup (s : State) (c : CollRun) : List Nat :=
  groupRanks (wordAt c.words 4) ((s.fab.part.map (·.planes)).getD 1) (getF s tfPosRank 0)

/-- A collective that ends early leaves the running ones; what its other members still send for it belongs to no later one
(R434: the k-th collectives match). -/
def collLeaves (c : CollRun) (s : State) : State :=
  let late := (collGroup s c).filter (fun m => m != getF s tfPosRank 0 && !c.parts.any (fun p => p.rank == m))
  { s with
    fab.colls := s.fab.colls.filter (fun x => x.cmd != c.cmd)
    fab.lateColl := if c.xgroup.isSome || late.isEmpty then s.fab.lateColl else s.fab.lateColl ++ [(clGroup (wordAt c.words 4), late)] }

/-- Every running collective of the fabric that `f` picks fails. -/
def collsFail (f : CollRun → Bool) (code : Nat) (s : State) : State :=
  (s.fab.colls.filter f).foldl (fun t c => collFails c code (raise flTfStatusCollFail 0 (collLeaves c t))) s

/-- Modules that a copy or an exchange moves data to or from. -/
def remoteRanks (s : State) (c : CopyRec) : List Nat :=
  (if copyRemote c.desc.toNat then [cpRank c.desc.toNat] else []) ++
    (if isExchange c.desc.toNat then (c.ranks.map (·.2)).filter (· != ownRank s) else [])

/-- Copies and exchanges with a module that `f` picks complete with a code. -/
def remoteFail (f : Nat → Bool) (code : Nat) (s : State) : State :=
  ((s.copies.recs.filter (fun c => (remoteRanks s c).any f)).map (·.id)).foldl (fun t id => copyEnds id code t) s

/-- PEER_TIMEOUT (R429, R436): a member that no route reaches, or that does not acknowledge. -/
def peerLost (rank : Nat) (unreachable : Bool) (s : State) : State :=
  if !rankOk s rank then s
  else
    let code := if unreachable then 0x0302 else 0x0303
    let t := remoteFail (· == rank) code s
    let t := fabRec 26 0xFFFF code 0x05 vTransient rank (raise flTfStatusPeerLost 0 t)
    collsFail (fun c => c.xgroup.isNone && (collGroup s c).contains rank && !c.parts.any (fun p => p.rank == rank)) 0x0322
      (forgetBursts (fun b => b.1 == rank) t)

/-- Ranks of the partition that a route reached before and none reaches now. -/
def cutOff (before after : State) : List Nat :=
  match after.fab.part with
  | some p => (List.range (p.planes * 16)).filter (fun r => (routeTo before r).isSome && (routeTo after r).isNone)
  | none => []

/-- A command that cannot begin yet is tried again when its row is sent again. -/
def notYet (id : Nat) (s : State) : State :=
  { s with ob.openCmds := s.ob.openCmds.map (fun o => if o.id == id then { o with started := false } else o) }

/-- End the PORT_CTRL command that waits for a port. -/
def portCmdEnds (p : Nat) (s : State) : State :=
  match (fabPort s p).cmd with
  | some c => endById c (endDone 0 0) (fabPortMod p (fun x => { x with cmd := none }) s)
  | none => s

/-- A port stops carrying traffic, and a lane test that it runs ends; its share goes to its partner, or by a detour; a member that no
route reaches any more is lost (R427, R429, R431). -/
def portFalls (p : Nat) (s : State) : State :=
  if getF s tfPortStatusWidth p = 0 then s
  else
    let t := fabPortMod p (fun x => { x with testing := none, toTest := [] }) s
    let t := directionCheck p (setF tfPortStatusLanesUsed p 0 (setF tfPortStatusWidth p 0 t))
    portCmdEnds p (resendBursts ((cutOff s t).foldl (fun u r => peerLost r true u) t))

/-- A member of the partition stands at a position, with a rank. -/
def activeAt (p : Partition) (plane : Nat) : Bool := p.planeOf.contains plane

/-- A port's fence follows from the partition: open where both ends carry its ID and are active members of it (R425). -/
def portOpens (s : State) (p : Nat) : Bool :=
  match s.fab.part with
  | some x => !x.standby && getF s tfPosRank 0 != 0xFFF && activeAt x (neighbour s p).1 && portUp s p &&
      x.id != 0 && (fabPort s p).nbrPart == x.id
  | none => false

def setFence (p : Nat) (s : State) : State := setF tfPortStatusFenced p (bit (!portOpens s p)) s
def setFences (s : State) : State := (List.range 16).foldl (fun t p => setFence p t) s
def fenceAll (s : State) : State := (List.range 16).foldl (fun t p => setF tfPortStatusFenced p 1 t) s

/-- The lowest `n` lanes of a mask. -/
def lowLanes (m n : Nat) : Nat := (((List.range 10).filter (fun i => m.testBit i)).take n).foldl (fun a i => a + 2 ^ i) 0

/-- What a neighbour reports while a link trains. -/
structure LinkIdent where
  heath : Nat
  plane : Nat
  y : Nat
  z : Nat
  spare : Nat
  part : Nat

/-- What this end of a link sends while the link trains (R419). -/
def sendHello (p : Nat) (s : State) : State :=
  let id := (s.fab.part.map (·.id)).getD 0
  { s with fabOut := .hello p (getF s tfPosHeathId 0) (ownPlane s) (ownY s) (ownZ s) (sparePlane s) id :: s.fabOut }

/-- TENSOR_LINK_TRAINED (R417, R419, R431): a link that does not reach its error ratio stays down with 0x0316; a miswired one
with MISWIRED and 0x0311; else it comes up fenced, at the width its passing lanes allow. -/
def linkTrained (p : Nat) (ok : Bool) (n : LinkIdent) (lanes : Nat) (s : State) : State :=
  if !flagSet s tfPosStrapValid 0 || inRecovery s || flagSet s tfPortStatusDisabled p || !dieUp s (26 + p / 8) then s
  else
    let good := lanes &&& (1023 - (fabPort s p).bad)
    let count := popCount good 10
    let down := fun (t : State) => portCmdEnds p (trainingFails p t)
    let s := sendHello p s
    if !ok || count < 4 then down (fabRec (0x180 + p) 0xFFFF 0x0316 0x05 vLasting 0 s)
    else if n.heath != getF s tfPosHeathId 0 || (n.plane, n.y, n.z) != neighbour s p || n.spare != sparePlane s then
      down (fabRec (0x180 + p) 0xFFFF 0x0311 0x0A vLasting 0 (raise flTfPortStatusMiswired p s))
    else
      let full := 8 ≤ count
      let t := fabPortMod p (fun x => { x with nbrPart := n.part, failed := false }) s
      let t := setF tfPortStatusLanesUsed p (lowLanes good (if full then 8 else 4)) (setF tfPortStatusWidth p (if full then 2 else 1) t)
      let same := match t.fab.part with | some x => x.id == n.part && flagSet t tfPosPartUp 0 | none => false
      portCmdEnds p (resendBursts (if same then setFence p t else setF tfPortStatusFenced p 1 t))

/-- TENSOR_LINK_DOWN (R427): the port loses its link. -/
def linkDown (p : Nat) (s : State) : State := setF tfPortStatusFenced p 1 (portFalls p s)

/-- TENSOR_LANE_ERROR (R430): the port pauses and tests the lane; lanes of a port are tested one after another. -/
def laneError (p l : Nat) (s : State) : State :=
  if portUp s p && (getF s tfPortStatusLanesUsed p).testBit l && (fabPort s p).testing != some l then
    fabPortMod p (fun x => if x.testing.isNone then { x with testing := some l } else { x with toTest := setAdd x.toTest l }) s
  else s

/-- The next lane that waits for its test and still carries traffic is tested. -/
def nextLane (p : Nat) (s : State) : State :=
  let used := getF s tfPortStatusLanesUsed p
  fabPortMod p (fun x =>
    let left := x.toTest.filter (fun l => used.testBit l)
    { x with testing := left.head?, toTest := left.drop 1 }) s

/-- A lane is given up: a spare takes its place, or half width, or the port is disabled. -/
def laneFails (p l : Nat) (escalated : Bool) (s : State) : State :=
  let used := getF s tfPortStatusLanesUsed p
  let bad := (fabPort s p).bad ||| 2 ^ l
  let left := used &&& (1023 - 2 ^ l)
  let spare := 1023 - (used ||| bad)
  let code := fun c => if escalated then 0x0A53 else c
  let base : ErrRec := { level := lvPackage, unit := 26 + p / 8, subunit := p, cls := 0x05, verdict := vLasting, detail := l }
  let record := fun (c : Nat) (repaired : Bool) (t : State) =>
    writeErr { base with reason := code c, repaired := repaired } none (raise flTfPortStatusLaneFail p t)
  let t := fabPortMod p (fun x => { x with bad := bad }) s
  if getF s tfPortStatusWidth p = 2 then
    if spare != 0 then record 0x0312 true (setF tfPortStatusLanesUsed p (left ||| lowLanes spare 1) t)
    else record 0x0313 false (setF tfPortStatusWidth p 1 (setF tfPortStatusLanesUsed p (lowLanes left 4) t))
  else record 0x0314 false (setF tfPortStatusFenced p 1 (setF tfPortStatusDisabled p 1 (portFalls p t)))

/-- TENSOR_LANE_TEST_DONE (R430, R504). -/
def laneTestDone (p : Nat) (ok : Bool) (s : State) : State :=
  match (fabPort s p).testing with
  | none => s
  | some l =>
    let t := bump reCountsTests 0 1 (fabPortMod p (fun x => { x with testing := none }) s)
    let unit := 26 + p / 8
    let sub := p * 16 + l + 1
    let u := nextLane p (
      if !ok then laneFails p l false t
      else
        let r := countsTransient lvPackage unit sub 0x05 t
        if r.1 then bump reCountsTransient 0 1 r.2 else laneFails p l true r.2)
    if (fabPort u p).testing.isNone then portCmdEnds p u else u

/-- A flit is replayed at the link layer (R414). -/
def flitReplay (p : Nat) (s : State) : State := if portUp s p then bump tfPortStatusReplays p 1 s else s

/-- FENCED_FLIT_ARRIVE (R425). -/
def fencedFlit (p : Nat) (s : State) : State :=
  if flagSet s tfPortStatusFenced p then fabRec (0x180 + p) 0xFFFF 0x0331 0x04 vTransient 0 (raise flTfPortStatusFenceDrop p s) else s

/-- PORT_CTRL (R430, R431); enable retrains the port over all its lanes, and a lane test tests every lane in use, one after another
(DEDUCED, log entry 140). A command on a port that another PORT_CTRL still holds waits for it (log entry 192). -/
def portCtrlBody (oc : OpenCmd) (s : State) : Body :=
  let p := wordBits oc.words 1 3 0
  if (fabPort s p).cmd.isSome then .runs (notYet oc.id s)
  else match wordBits oc.words 1 5 4 with
  | 0 => if flagSet s tfPortStatusDisabled p then .ends (endDone 0 0) s
         else .runs (fabPortMod p (fun x => { x with cmd := some oc.id }) (portFalls p s))
  | 1 => .ends (endDone 0 0) (setF tfPortStatusFenced p 1 (setF tfPortStatusDisabled p 1 (portFalls p s)))
  | 2 => .runs (fabPortMod p (fun x => { x with cmd := some oc.id, bad := 0 }) (setF tfPortStatusDisabled p 0 s))
  | _ =>
    if !portUp s p then .ends (endDone 0 0) s
    else .runs ((List.range 10).foldl (fun t l => laneError p l t) (fabPortMod p (fun x => { x with cmd := some oc.id }) s))

def doPortCtrl (op : Nat) (c : Cmd) (s : State) : State :=
  runWith (cmdOpcode c.words == 0x73 && wordBits c.words 1 5 4 == op) (fun _ => ownRecord c.door c.words) portCtrlBody c s

/-- Members of a partition, standby ones included, as member codes. -/
def membersOf (p : Partition) (spare : Option Nat) : List Nat :=
  (p.planeOf ++ (if p.whole then spare.toList else [])).flatMap (fun pl => (List.range 16).map (fun i => pl * 16 + i))

/-- A port belongs to the partition: it faces a member of it. -/
def portInPart (s : State) (p : Nat) : Bool :=
  match s.fab.part with
  | some x => (membersOf x (some (sparePlane s))).contains (memberCode (neighbour s p).1 (neighbour s p).2.1 (neighbour s p).2.2)
  | none => false

/-- PATTERN (R437): refused on a port that belongs to a partition; one on a port that runs a pattern waits for it (log entry 192). -/
def patternBody (oc : OpenCmd) (s : State) : Body :=
  let p := wordBits oc.words 1 3 0
  if portInPart s p then refuseBody 0x0330 s
  else if (fabPort s p).pattern.isSome then .runs (notYet oc.id s)
  else .runs (fabPortMod p (fun x => { x with pattern := some oc.id }) s)

/-- PATTERN_DONE: the worst lane with its bit errors, and the bits compared. -/
def patternDone (p lane errors bits : Nat) (s : State) : State :=
  match (fabPort s p).pattern with
  | some c => endById c (endDone (lane % 16 + errors % 2 ^ 56 * 256) bits) (fabPortMod p (fun x => { x with pattern := none }) s)
  | none => s

/-! ## Partitions (R421–R426) -/

/-- Rank at a position under R421. -/
def rankAt (p : Partition) (plane y z : Nat) : Nat :=
  match p.planeOf.findIdx? (· == plane) with | some x => x * 16 + y * 4 + z | none => 0xFFF

def setPos (p : Option Partition) (s : State) : State :=
  match p with
  | none => setF tfPosLogicalX 0 0xF (setF tfPosRank 0 0xFFF (setF tfPosPartId 0 0 (setF tfPosWhole 0 0 (setF tfPosPartUp 0 0 s))))
  | some x =>
    let r := rankAt x (ownPlane s) (ownY s) (ownZ s)
    setF tfPosLogicalX 0 (if r = 0xFFF then 0xF else r / 16) (setF tfPosRank 0 r (setF tfPosPartId 0 x.id (setF tfPosWhole 0 (bit x.whole) s)))

/-- All members have arrived at the barrier: the partition is up and the command completes. -/
def barrierCheck (s : State) : State :=
  match s.fab.barrier with
  | none => s
  | some b => if b.want.all (fun m => b.got.contains m) then
      endById b.cmd (endDone 0 0) (setF tfPosPartUp 0 1 { s with fab.barrier := none }) else s

/-- This module enters a barrier: its message goes to every member; messages that came before it count. -/
def enterBarrier (cmd id : Nat) (want : List Nat) (s : State) : State :=
  let own := memberCode (ownPlane s) (ownY s) (ownZ s)
  let early := (s.fab.earlyBar.filter (fun e => e.1 == id)).map (·.2)
  barrierCheck { s with
    fab.barrier := some { cmd := cmd, want := want, got := own :: early }
    fab.earlyBar := s.fab.earlyBar.filter (fun e => e.1 != id)
    fabOut := .barrier (getF s tfPosRank 0) :: s.fabOut }

/-- The partition that PART_CREATE asks for (R423). -/
def askedPart (ws : List W64) (s : State) : Partition :=
  let first := wordBits ws 1 3 0
  let planes := wordBits ws 1 7 4
  let whole := wordBits ws 1 8 8 == 1
  let spare := sparePlane s
  { first := first, planes := planes, whole := whole, id := wordBits ws 2 15 0, timeoutMs := wordBits ws 3 15 0,
    planeOf := (List.range planes).map (fun x => planeOfSeg spare (seg spare first + x)),
    standby := whole && ownPlane s == spare }

/-- What PART_CREATE asks for is no box of planes that holds this module at its job's rank, or a partition is up (R423); with
invalid straps the module knows no position to check (R418, R570). -/
def partBad (ws : List W64) (s : State) : Bool :=
  let p := askedPart ws s
  let spare := sparePlane s
  let box := 1 ≤ p.planes && p.planes ≤ 8 && p.first ≤ 8 && p.first != spare && seg spare p.first + p.planes - 1 ≤ 7
  let mine := p.planeOf.contains (ownPlane s) || p.standby
  s.fab.part.isSome || !box || (p.whole && p.planes != 8) || p.timeoutMs == 0 || p.id == 0 ||
    (flagSet s tfPosStrapValid 0 && (!mine || s.ob.job.rank != (if p.standby then 0xFFF else rankAt p (ownPlane s) (ownY s) (ownZ s))))

/-- PART_CREATE (R423). -/
def partCreateBody (oc : OpenCmd) (s : State) : Body :=
  let p := askedPart oc.words s
  checked [failIf (partBad oc.words s) 0x0305, failIf (!flagSet s tfPosStrapValid 0) 0x0310] s
    (.runs (enterBarrier oc.id p.id (membersOf p (some (sparePlane s))) (setFences (setPos (some p) { s with fab.part := some p }))))

/-- The ports that face a member learn the partition ID it carries, and their fences follow (R425). -/
def learnPart (id member : Nat) (s : State) : State :=
  setFences ((List.range 16).foldl (fun t p =>
    let n := neighbour s p
    if memberCode n.1 n.2.1 n.2.2 = member then fabPortMod p (fun x => { x with nbrPart := id }) t else t) s)

/-- PARTITION_BARRIER_MESSAGE: counted, also before this module has entered the barrier. -/
def barrierMsg (id member : Nat) (s0 : State) : State :=
  let s := learnPart id member s0
  match s.fab.barrier, s.fab.part with
  | some b, some p => if p.id = id then barrierCheck { s with fab.barrier := some { b with got := setAdd b.got member } }
      else { s with fab.earlyBar := (id, member) :: s.fab.earlyBar }
  | _, _ => { s with fab.earlyBar := (id, member) :: s.fab.earlyBar }

/-- The partition ends: ports fenced, nothing of it left in the queues (R424). -/
def partEnds (code : Nat) (s : State) : State :=
  let t := remoteFail (fun _ => true) 0x0301 (collsFail (fun c => c.xgroup.isNone) code s)
  fenceAll (setPos none { t with
    fab.part := none, fab.barrier := none, fab.unacked := [], fab.held := [], fab.seen := [], fab.nextSeq := []
    fab.earlyColl := [], fab.lateColl := [], fab.ports := t.fab.ports.map (fun e => (e.1, { e.2 with nbrPart := 0 })) })

/-- PART_BARRIER_TIMEOUT (R423). -/
def barrierTimeout (s : State) : State :=
  match s.fab.barrier with
  | none => s
  | some b =>
    if flagSet s tfPosPartUp 0 then endById b.cmd (endFailed 0x0306 0) (fenceAll { s with fab.barrier := none })
    else endById b.cmd (endFailed 0x0306 0) (partEnds 0x0322 s)

/-- PART_DESTROY (R424); a barrier still awaited fails with it. -/
def partDestroy (s : State) : State :=
  let t := match s.fab.barrier with | some b => endById b.cmd (endFailed 0x0306 0) { s with fab.barrier := none } | none => s
  partEnds 0x0322 t

def partDestroyBody (_ : OpenCmd) (s : State) : Body := .ends (endDone 0 0) (partDestroy s)

/-- The partition after plane `f` has been replaced by the spare (R432). -/
def swappedPart (f : Nat) (p : Partition) (s : State) : Partition :=
  { p with planeOf := p.planeOf.map (fun x => if x = f then sparePlane s else x), standby := false }

/-- Plane `f` is replaced: collectives and transfers fail, the spare is `f`, ranks and fences follow, bursts go again (R432). The
modules that take its ranks number their bursts from the beginning, and none of this module's waits for them (R428, R433). -/
def swapPlanes (f : Nat) (p : Partition) (s : State) : State :=
  let p' := swappedPart f p s
  let t := remoteFail (fun _ => true) 0x0302 (collsFail (fun c => c.xgroup.isNone) 0x0322 s)
  let t := raise flTfStatusSwap 0 (setF tfPosSparePlane 0 f { t with start.spare := f, start.cfg := tput t.start.cfg 0x0301 f, fab.part := some p' })
  let moved := fun (rank : Nat) => p.planeOf[rank / 16]? == some f
  resendBursts (setFences (setPos (some p') (forgetBursts (fun b => moved b.1)
    { t with fab.seen := t.fab.seen.filter (fun b => !moved b.1), fab.nextSeq := t.fab.nextSeq.filter (fun e => !moved e.1) })))

/-- SPARE_SWAP (R432); one that comes while the barrier of another is awaited waits for it (log entry 192). -/
def spareSwapBody (oc : OpenCmd) (s : State) : Body :=
  let f := wordBits oc.words 1 3 0
  match s.fab.part with
  | none => refuseBody 0x0307 s
  | some p =>
    if !p.whole || f == sparePlane s || !p.planeOf.contains f || !flagSet s tfPosPartUp 0 then refuseBody 0x0307 s
    else if s.fab.barrier.isSome then .runs (notYet oc.id s)
    else if ownPlane s = f then .ends (endDone 0 0) (fenceAll (swapPlanes f p s))
    else .runs (enterBarrier oc.id p.id (membersOf (swappedPart f p s) none) (swapPlanes f p s))

/-! ## Bursts (R428) -/

/-- A burst of a rank reaches this module through a fence: no partition that is up holds the rank, or the port on the way to it is
fenced (R424, R425). -/
def burstFenced (s : State) (rank : Nat) : Bool :=
  !rankOk s rank || match burstHops s rank with
    | some (h :: _) => flagSet s tfPortStatusFenced h.port
    | _ => !(List.range 16).any (portOpen s)

/-- FABRIC_BURST_ARRIVE: a burst is applied once, and acknowledged; through a fence it is discarded. -/
def burstArrive (m rank seq va len val : Nat) (bad : List Nat) (s : State) : State :=
  if burstFenced s rank then s
  else if s.fab.seen.contains (rank, seq) then { s with fabOut := .ack rank seq :: s.fabOut }
  else remoteWrite m rank seq va len val bad { s with fab.seen := (rank, seq) :: s.fab.seen }

/-- FABRIC_BURST_ACK: the burst is not sent again, and its credit goes to one that waits. -/
def burstAck (rank seq : Nat) (s : State) : State := forgetBursts (fun b => b == (rank, seq)) s

/-! ## Collectives (R434–R436) -/

/-- Sum, maximum or minimum of two elements: RNE with subnormals kept; R169; S32 wraps. -/
def redOp (w x y : Nat) : Nat :=
  let fp := fun (f : Fmt) =>
    let a := (decodeNum f true x).1
    let b := (decodeNum f true y).1
    if clRed w = 0 then atomFpAdd f x y
    else if numIsNan a || numIsNan b then canonNan f
    else if fpLess b a == (clRed w == 2) then y else x
  match clType w with
  | 0 => fp .fp32
  | 1 => fp .xf16
  | 2 => fp .fp64
  | _ => if clRed w = 0 then (x + y) % 2 ^ 32
         else if decide (signedOf 32 x < signedOf 32 y) == (clRed w == 2) then x else y

/-- Element `i` of `count`, reduced over a ring of `n` positions (R435). -/
def ringReduce (w n count i : Nat) (v : Nat → Nat) : Nat :=
  let l := (count + n - 1) / n
  let c := i / l
  let len := min l (count - c * l)
  let step := fun k => if i - c * l < (len + 1) / 2 then (c + k) % n else (c + n - k % n) % n
  (span 2 (n - 1)).foldl (fun a k => redOp w a (v (step k))) (v (step 1))

/-- Element `i` of a member's data. -/
def elemOf (w data i : Nat) : Nat := (data >>> (8 * clBytes w * i)) % 2 ^ (8 * clBytes w)

/-- Element `i` of the reduction over a group: over the ring, or for the whole partition over x, then y, then z rings. -/
def groupReduce (w n r count i : Nat) (v : Nat → Nat) : Nat :=
  if clGroup w = 0 then
    let xs := fun y z => ringReduce w n count i (fun k => v (((List.range n).find? (fun x => ringPos n x == k)).getD 0 * 16 + y * 4 + z))
    ringReduce w 4 count i (fun z => ringReduce w 4 count i (fun y => xs y z))
  else
    let g := groupRanks w n r
    ringReduce w g.length count i (fun k => v (g.getD k 0))

/-- Bytes a member reads and writes: (source, destination). -/
def collSizes (w count g rank : Nat) : Nat × Nat :=
  let b := count * clBytes w
  match clOp w with
  | 0 => (b, b)
  | 1 => (b, b / g)
  | 2 => (b / g, b)
  | 3 => (if rank = clRoot w then b else 0, b)
  | _ => (0, 0)

/-- What a collective writes: each element with the members whose element it depends on, as (rank, element). -/
def collOut (w count r : Nat) (g : List Nat) (red : Nat → Nat) (elem : Nat → Nat → Nat) : List (Nat × List (Nat × Nat)) :=
  let per := count / g.length
  let pos := (g.findIdx? (· == r)).getD 0
  match clOp w with
  | 0 => (List.range count).map (fun i => (red i, g.map (fun m => (m, i))))
  | 1 => (List.range per).map (fun i => (red (pos * per + i), g.map (fun m => (m, pos * per + i))))
  | 2 => (List.range count).map (fun i => (elem (g.getD (i / per) 0) (i % per), [(g.getD (i / per) 0, i % per)]))
  | 3 => (List.range count).map (fun i => (elem (clRoot w) i, [(clRoot w, i)]))
  | _ => []

/-- Move the data of a collective whose members' parts are all there. -/
def collMove (w count r : Nat) (g : List Nat) (red : (Nat → Nat → Nat) → Nat → Nat) (c : CollRun) (s : State) : State :=
  let (own, _, t) := ioRead 8 c.src s
  let mine : CollPart := { rank := r, fields := [], data := own, poison := runsPoison c.src s }
  let part := fun m => ((mine :: c.parts).find? (fun p => p.rank == m)).getD mine
  let elem := fun m i => elemOf w (part m).data i
  let out := collOut w count r g (red elem) elem
  let v := (out.map (·.1)).foldr (fun e v => e + v * 256 ^ clBytes w) 0
  let badElem := fun (x : List (Nat × Nat)) => x.any (fun y => (part y.1).poison.contains (y.2 * clBytes w / 32))
  let badPieces := ((List.range out.length).filter (fun i => badElem (out.getD i (0, [])).2)).map (fun i => i * clBytes w / 32)
  writePieces c.dst v badPieces (runsAccess .ncwr 8 c.dst { t with
    fabOut := if c.xgroup.isSome || c.src.isEmpty then t.fabOut
      else (g.filter (· != r)).map (fun m => FabMsg.collData m own mine.poison) ++ t.fabOut })

/-- Fields of COLL that members compare: COUNT, Table TF-5, TAG. -/
def collFields (ws : List W64) : List Nat := [wordAt ws 3, wordAt ws 4, wordAt ws 5]

/-- A running collective with every member's fields: a mismatch fails it, else its data moves and it completes. -/
def collCheck (c : CollRun) (s : State) : State :=
  match s.fab.part with
  | none => s
  | some p =>
    let w := wordAt c.words 4
    let r := getF s tfPosRank 0
    let g := groupRanks w p.planes r
    let out := fun (t : State) => { t with fab.colls := t.fab.colls.filter (fun x => x.cmd != c.cmd) }
    if c.parts.any (fun x => x.fields != collFields c.words) then
      endById c.cmd (endFailed 0x0321 0) (raise flTfStatusCollFail 0 (collLeaves c s))
    else if g.all (fun m => m == r || c.parts.any (fun x => x.rank == m)) then
      endById c.cmd (endDone 0 0) (bump tfStatusCollectives 0 1
        (collMove w (wordAt c.words 3) r g (fun elem i => groupReduce w p.planes r (wordAt c.words 3) i (fun m => elem m i)) c (out s)))
    else s

/-- A member's fields for the oldest collective of a group that failed here and still awaits them. -/
def lateTaken (grp rank : Nat) : List (Nat × List Nat) → List (Nat × List Nat)
  | [] => []
  | e :: t =>
    if e.1 == grp && e.2.contains rank then (let left := e.2.filter (· != rank); if left.isEmpty then t else (e.1, left) :: t)
    else e :: lateTaken grp rank t

/-- COLL_FIELDS_MESSAGE: a member's fields for its next collective on the group, with its data (log entry 24). -/
def collMsg (x : CollPart) (s : State) : State :=
  let grp := clGroup (x.fields.getD 1 0)
  if s.fab.lateColl.any (fun e => e.1 == grp && e.2.contains x.rank) then { s with fab.lateColl := lateTaken grp x.rank s.fab.lateColl }
  else match s.fab.colls.find? (fun c => c.xgroup.isNone && clGroup (wordAt c.words 4) == grp && !c.parts.any (fun p => p.rank == x.rank)) with
  | some c =>
    let c' := { c with parts := c.parts ++ [x] }
    collCheck c' { s with fab.colls := s.fab.colls.map (fun y => if y.cmd == c.cmd then c' else y) }
  | none => { s with fab.earlyColl := s.fab.earlyColl ++ [x] }

/-- Fields that came ahead of a collective join it, the first of each member. -/
def takeEarly (c : CollRun) (s : State) : CollRun × State :=
  let grp := clGroup (wordAt c.words 4)
  s.fab.earlyColl.foldl (fun (acc : CollRun × State) x =>
    if clGroup (x.fields.getD 1 0) == grp && !acc.1.parts.any (fun p => p.rank == x.rank) then
      ({ acc.1 with parts := acc.1.parts ++ [x] }, { acc.2 with fab.earlyColl := acc.2.fab.earlyColl.erase x })
    else acc) (c, s)

/-- A collective's fields are wrong for its group (R434). -/
def collBad (ws : List W64) (s : State) : Bool :=
  let w := wordAt ws 4
  let count := wordAt ws 3
  let r := getF s tfPosRank 0
  let g := groupRanks w ((s.fab.part.map (·.planes)).getD 1) r
  decide (4 < clOp w) || clRed w == 3 || (clOp w != 4 && count == 0) || ((clOp w == 1 || clOp w == 2) && count % g.length != 0) ||
    (clOp w == 3 && r != 0xFFF && !g.contains (clRoot w))

/-- A collective enters: what other members sent early joins it, its fields go to the members (R434). -/
def collEnter (oc : OpenCmd) (src dst : List (Nat × Nat × Nat)) (s : State) : State :=
  let r := getF s tfPosRank 0
  let g := groupRanks (wordAt oc.words 4) ((s.fab.part.map (·.planes)).getD 1) r
  let (c, t) := takeEarly { cmd := oc.id, words := oc.words, src := src, dst := dst } s
  collCheck c { t with
    fab.colls := t.fab.colls ++ [c]
    fabOut := (g.filter (· != r)).map (fun m => FabMsg.fields m (collFields oc.words)) ++ t.fabOut }

/-- COLL (R434, R435). -/
def collBody (oc : OpenCmd) (s : State) : Body :=
  let w := wordAt oc.words 4
  let r := getF s tfPosRank 0
  let n := (s.fab.part.map (·.planes)).getD 1
  if collBad oc.words s then refuseBody 0x0320 s
  else if !rankOk s r then .ends (endFailed 0x0301 0) s
  else
    let (sb, db) := collSizes w (wordAt oc.words 3) (groupRanks w n r).length r
    let a : XAcc := { unit := 8, agent := 2, va := wordAt oc.words 1, r := true, who := .cmd oc.id }
    match readOrCode (some oc.epoch) (translateRange a sb s) with
    | (.stall, t) => .runs (notYet oc.id t)
    | (.fail c, t) => .ends (endFailed c 0) t
    | (.runs src, t) =>
      match runsOrCode (some oc.epoch) (translateRange { a with va := wordAt oc.words 2, r := false, w := true } db t) with
      | (.stall, t) => .runs (notYet oc.id t)
      | (.fail c, t) => .ends (endFailed c 0) t
      | (.runs dst, t) => .runs (collEnter oc src dst t)

/-- A module runs at most 8 collectives at once (R434). -/
def collGate (_ : OpenCmd) (s : State) : Bool := (s.fab.colls.filter (fun c => c.xgroup.isNone)).length < 8

def doColl (op : Nat) (c : Cmd) (s : State) : State :=
  runWith (cmdOpcode c.words == 0x74 && (clOp (wordAt c.words 4) == op || (op == 0 && decide (4 < clOp (wordAt c.words 4)))))
    (fun _ => ownRecord c.door c.words) collBody c s collGate

end Sys2Proof.Machine
end

