-- ==== Sys2Proof/Machine/Hash.lean ====
section
/-! DEFINITION. Sys2Proof/Machine/Hash.lean: SHA-384, by which manifests, image chunks, images and measurements are checked
(R446–R448, R518, R533). The spec names the algorithm; its text is that of the public standard (PRESUMED, log entry 26). -/
namespace Sys2Proof.Machine

/-- Round constants. -/
def shaK : List Nat := [
   0x428A2F98D728AE22, 0x7137449123EF65CD, 0xB5C0FBCFEC4D3B2F, 0xE9B5DBA58189DBBC,
   0x3956C25BF348B538, 0x59F111F1B605D019, 0x923F82A4AF194F9B, 0xAB1C5ED5DA6D8118,
   0xD807AA98A3030242, 0x12835B0145706FBE, 0x243185BE4EE4B28C, 0x550C7DC3D5FFB4E2,
   0x72BE5D74F27B896F, 0x80DEB1FE3B1696B1, 0x9BDC06A725C71235, 0xC19BF174CF692694,
   0xE49B69C19EF14AD2, 0xEFBE4786384F25E3, 0x0FC19DC68B8CD5B5, 0x240CA1CC77AC9C65,
   0x2DE92C6F592B0275, 0x4A7484AA6EA6E483, 0x5CB0A9DCBD41FBD4, 0x76F988DA831153B5,
   0x983E5152EE66DFAB, 0xA831C66D2DB43210, 0xB00327C898FB213F, 0xBF597FC7BEEF0EE4,
   0xC6E00BF33DA88FC2, 0xD5A79147930AA725, 0x06CA6351E003826F, 0x142929670A0E6E70,
   0x27B70A8546D22FFC, 0x2E1B21385C26C926, 0x4D2C6DFC5AC42AED, 0x53380D139D95B3DF,
   0x650A73548BAF63DE, 0x766A0ABB3C77B2A8, 0x81C2C92E47EDAEE6, 0x92722C851482353B] ++ [
   0xA2BFE8A14CF10364, 0xA81A664BBC423001, 0xC24B8B70D0F89791, 0xC76C51A30654BE30,
   0xD192E819D6EF5218, 0xD69906245565A910, 0xF40E35855771202A, 0x106AA07032BBD1B8,
   0x19A4C116B8D2D0C8, 0x1E376C085141AB53, 0x2748774CDF8EEB99, 0x34B0BCB5E19B48A8,
   0x391C0CB3C5C95A63, 0x4ED8AA4AE3418ACB, 0x5B9CCA4F7763E373, 0x682E6FF3D6B2B8A3,
   0x748F82EE5DEFB2FC, 0x78A5636F43172F60, 0x84C87814A1F0AB72, 0x8CC702081A6439EC,
   0x90BEFFFA23631E28, 0xA4506CEBDE82BDE9, 0xBEF9A3F7B2C67915, 0xC67178F2E372532B,
   0xCA273ECEEA26619C, 0xD186B8C721C0C207, 0xEADA7DD6CDE0EB1E, 0xF57D4F7FEE6ED178,
   0x06F067AA72176FBA, 0x0A637DC5A2C898A6, 0x113F9804BEF90DAE, 0x1B710B35131C471B,
   0x28DB77F523047D84, 0x32CAAB7B40C72493, 0x3C9EBE0A15C9BEBC, 0x431D67C49C100D4C,
   0x4CC5D4BECB3E42B6, 0x597F299CFC657E2A, 0x5FCB6FAB3AD6FAEC, 0x6C44198C4A475817]

/-- Initial chaining value. -/
def shaInit : List Nat := [
   0xCBBB9D5DC1059ED8, 0x629A292A367CD507, 0x9159015A3070DD17, 0x152FECD8F70E5939,
   0x67332667FFC00B31, 0x8EB44A8768581511, 0xDB0C2E0D64F98FA7, 0x47B5481DBEFA4FA4]

def rotR (n x : Nat) : Nat := (x >>> n) + (x % 2 ^ n) * 2 ^ (64 - n)
def shaS0 (x : Nat) : Nat := rotR 28 x ^^^ rotR 34 x ^^^ rotR 39 x
def shaS1 (x : Nat) : Nat := rotR 14 x ^^^ rotR 18 x ^^^ rotR 41 x
def shaG0 (x : Nat) : Nat := rotR 1 x ^^^ rotR 8 x ^^^ (x >>> 7)
def shaG1 (x : Nat) : Nat := rotR 19 x ^^^ rotR 61 x ^^^ (x >>> 6)
def shaCh (x y z : Nat) : Nat := (x &&& y) ^^^ ((2 ^ 64 - 1 - x) &&& z)
def shaMaj (x y z : Nat) : Nat := (x &&& y) ^^^ (x &&& z) ^^^ (y &&& z)

/-- Message schedule, newest word first. -/
def shaSched : Nat → List Nat → List Nat
  | 0, w => w
  | n + 1, w =>
    shaSched n (((shaG1 (w.getD 1 0) + w.getD 6 0 + shaG0 (w.getD 14 0) + w.getD 15 0) % 2 ^ 64) :: w)

/-- One round on the eight working words. -/
def shaRound (v : List Nat) (kw : Nat) : List Nat :=
  match v with
  | [a, b, c, d, e, f, g, h] =>
    let t1 := h + shaS1 e + shaCh e f g + kw
    let t2 := shaS0 a + shaMaj a b c
    [(t1 + t2) % 2 ^ 64, a, b, c, (d + t1) % 2 ^ 64, e, f, g]
  | v => v

/-- One block of sixteen words, the first word first. -/
def shaBlock (h : List Nat) (block : List Nat) : List Nat :=
  let w := (shaSched 64 block.reverse).reverse
  let v := (List.zipWith (· + ·) shaK w).foldl shaRound h
  List.zipWith (fun a b => (a + b) % 2 ^ 64) h v

/-- Big-endian 64-bit words of a byte string, `n` of them. -/
def beWords : Nat → List Nat → List Nat
  | 0, _ => []
  | n + 1, b => (b.take 8).foldl (fun a x => a * 256 + x) 0 :: beWords n (b.drop 8)

/-- Blocks of a padded message, `n` of them. -/
def shaBlocks : Nat → List Nat → List Nat → List Nat
  | 0, _, h => h
  | n + 1, b, h => shaBlocks n (b.drop 128) (shaBlock h (beWords 16 b))

/-- The `n` low bytes of a number, highest first. -/
def beBytes : Nat → Nat → List Nat
  | 0, _ => []
  | n + 1, v => (v >>> (8 * n)) % 256 :: beBytes n v

/-- SHA-384 of a byte string, as its 48 bytes stand in memory: the first byte lowest. -/
def sha384 (b : List Nat) : Nat :=
  let pad := (239 - b.length % 128) % 128
  let m := b ++ 0x80 :: List.replicate pad 0 ++ beBytes 16 (8 * b.length)
  let h := shaBlocks (m.length / 128) m shaInit
  ((h.take 6).flatMap (fun x => beBytes 8 x)).foldr (fun x a => a * 256 + x) 0

/-- The `n` low bytes of a number, lowest first. -/
def leBytes : Nat → Nat → List Nat
  | 0, _ => []
  | n + 1, v => v % 256 :: leBytes n (v / 256)

/-- A byte string as a little-endian number. -/
def ofBytes (b : List Nat) : Nat := b.foldr (fun x a => a * 256 + x % 256) 0

end Sys2Proof.Machine
end

