-- ==== Sys2Proof/Machine/Network.lean ====
section
/-! DEFINITION. Sys2Proof/Machine/Network.lean: the ordinary network: ports, queue pairs, job images relayed along a tree, and
collectives between heaths (R441–R456). -/
namespace Sys2Proof.Machine

/-- A message for the network: it waits for a port to send it (R445). -/
def netSend (m : NetOut) (s : State) : State := { s with net.queue := s.net.queue ++ [m] }

/-! ## Ports and queue pairs (R441–R445) -/

def ethPort (s : State) (p : Nat) : EthPort := tgetD s.net.ports p {}
def qpGet (s : State) (q : Nat) : QPair := tgetD s.net.qps q {}
def qpMod (q : Nat) (f : QPair → QPair) (s : State) : State := { s with net.qps := tmod s.net.qps q {} f }
def ethUp (s : State) (p : Nat) : Bool := getF s netPortStatusState p == 2
/-! ### Classes and their scheduling (R445) -/

/-- The class of a queue pair's traffic: HOST or STORE, as QP_CONFIG gave it. -/
def qpClass (s : State) (q : Nat) : NetClass := if (qpGet s q).hostClass then .host else .store

/-- The class of a message and the queue pair it goes on (Table ON-1). -/
def msgClass (s : State) (m : NetOut) : NetClass × Option Nat :=
  match m with
  | .rdmaRead q _ _ | .rdmaWrite q _ _ _ | .send q _ _ | .readData q _ _ | .ack q | .accessError q => (qpClass s q, some q)
  | .congestion q => (.ctrl, some q)
  | .progress .. | .hello .. => (.ctrl, none)
  | .coll .. | .collData .. => (.coll, none)
  | .readStore .. | .readChunk .. | .chunkData .. => (.start, none)

/-- Table ON-1: number, 802.1p priority, DSCP and weight of a class; CTRL is strict and has no weight. -/
def classRow (c : NetClass) : Nat × Nat × Nat × Nat :=
  match c with
  | .ctrl => (0, 6, 48, 0)
  | .coll => (1, 3, 26, 40)
  | .start => (2, 4, 34, 30)
  | .store => (3, 2, 18, 20)
  | .host => (4, 0, 0, 10)

/-- Bytes a message counts for: its payload, and no less than the least frame of 64 bytes (log entry 139). -/
def msgBytes (m : NetOut) : Nat :=
  max 64 (match m with
    | .rdmaWrite _ _ len _ | .send _ len _ | .readData _ len _ | .chunkData _ _ len _ => len
    | _ => 0)

/-- The port a message leaves by: its queue pair's, else the lowest that is up (log entry 139). -/
def msgPort (s : State) (m : NetOut) : Option Nat :=
  match (msgClass s m).2 with
  | some q => if ethUp s (qpGet s q).now then some (qpGet s q).now else none
  | none => (List.range 4).find? (ethUp s)

/-- Bytes a port has sent of a class. -/
def classSent (s : State) (p c : Nat) : Nat := tgetD s.net.sent (p * 8 + c) 0

/-- Class `a` has had a smaller share of its weight than class `b`. -/
def lessServed (s : State) (p : Nat) (a b : NetClass) : Bool :=
  let x := classRow a
  let y := classRow b
  decide (classSent s p x.1 * y.2.2.2 < classSent s p y.1 * x.2.2.2)

/-- The class a port sends of next, among those with a message waiting: CTRL first, within its 2 % of the port; else the one
with the smallest share of its weight (R445). -/
def nextClass (s : State) (p : Nat) (waiting : List NetClass) : Option NetClass :=
  let rest := [NetClass.coll, .start, .store, .host].filter (fun c => waiting.contains c)
  let total := ((List.range 5).map (classSent s p)).foldl (· + ·) 0
  if waiting.contains .ctrl && (rest.isEmpty || classSent s p 0 * 50 ≤ total) then some .ctrl
  else rest.foldl (fun best c => match best with | some b => if lessServed s p c b then some c else best | none => some c) none

/-- The first message of a port in the class whose turn it is leaves, marked for its class. -/
def portSend (p : Nat) (s : State) : State :=
  let mine := s.net.queue.filter (fun m => msgPort s m == some p)
  match nextClass s p (mine.map (fun m => (msgClass s m).1)) with
  | none => s
  | some c =>
    match mine.find? (fun m => (msgClass s m).1 == c) with
    | none => s
    | some m =>
      let row := classRow c
      let left := s.net.queue.erase m
      let idle := !left.any (fun x => msgPort s x == some p)
      let sent := if idle then s.net.sent.filter (fun e => e.1 / 8 != p)
        else tput s.net.sent (p * 8 + row.1) (classSent s p row.1 + msgBytes m)
      { s with net.queue := left, net.sent := sent
               net.out := { port := p, mac := (Config.ethMac p).toNat, cls := c, priority := row.2.1, dscp := row.2.2.1, msg := m } :: s.net.out }

/-- Every port that is up sends what waits for it, in the order of R445. -/
def netDrain (s : State) : State :=
  if s.net.queue.isEmpty then s
  else (List.range 4).foldl (fun t p => t.net.queue.foldl (fun u _ => portSend p u) t) s

/-- Translation unit of a port's I/O die. -/
def unitOfEth (p : Nat) : Nat := if p < 2 then 8 else 9

/-- FAILOVER of every port: some queue pair of it runs on another port. -/
def failoverBits (s : State) : State :=
  (List.range 4).foldl (fun t p => setF netPortStatusFailover p (bit (s.net.qps.any (fun e => e.2.en && e.2.port == p && e.2.now != p))) t) s

/-- The port a queue pair can use now: its own while up, else under FAILOVER the lowest that is up (R444). -/
def qpPath (s : State) (q : Nat) : Option Nat :=
  let x := qpGet s q
  if ethUp s x.now then some x.now else if x.failover then (List.range 4).find? (ethUp s) else none

/-- NET_CONFIG (Table ON-3): its check refuses an MTU of zero or above the largest frame. -/
def netConfigBody (oc : OpenCmd) (s : State) : Body :=
  let mtu := wordBits oc.words 5 13 0
  if mtu == 0 || 9216 < mtu then refuseBody 0x0910 s
  else
    let p : EthPort := { ip := wordAt oc.words 2 + wordAt oc.words 3 * 2 ^ 64, ip4 := wordBits oc.words 4 31 0, mtu := mtu }
    .ends (endDone 0 0) { s with net.ports := tput s.net.ports (wordBits oc.words 1 1 0) p }

/-- QP_CONFIG (Table ON-3): its check refuses to enable a queue pair on a port without an address. -/
def qpConfigBody (oc : OpenCmd) (s : State) : Body :=
  let w := wordAt oc.words 1
  let p := bitsOf w 13 12
  let en := w.testBit 16
  if en && (ethPort s p).mtu == 0 then refuseBody 0x0910 s
  else
    let q : QPair := {
      port := p, now := p, hostClass := w.testBit 14, failover := w.testBit 15, en := en
      peer := wordAt oc.words 2 + wordAt oc.words 3 * 2 ^ 64, peerQp := wordBits oc.words 4 23 0, key := wordBits oc.words 4 63 32 }
    .ends (endDone 0 0) (failoverBits { s with net.qps := tput s.net.qps (bitsOf w 11 0) q })

/-- NET_POST (R442–R444, Table RE-7): local bytes are translated and read for a write or a send. Poison is not sent. -/
def netPostBody (oc : OpenCmd) (s : State) : Body :=
  let q := wordBits oc.words 1 11 0
  let kind := wordBits oc.words 1 17 16
  let len := wordAt oc.words 4
  if kind == 3 || !(qpGet s q).en then refuseBody 0x0100 s
  else match qpPath s q with
    | none => .ends (endFailed 0x0911 0) s
    | some p =>
      let s := failoverBits (qpMod q (fun x => { x with now := p }) s)
      let post : NetPost := { cmd := oc.id, qp := q, kind := kind, va := wordAt oc.words 2, len := len }
      let keep := fun (t : State) => { t with net.posts := t.net.posts ++ [post] }
      if kind = 0 then .runs (keep (netSend (.rdmaRead q (wordAt oc.words 3) len) s))
      else match readOrCode (some oc.epoch) (translateRange { unit := unitOfEth p, agent := 6, va := wordAt oc.words 2, r := true } len s) with
        | (.runs rs, t) =>
          let (v, bad, t) := ioRead (unitOfEth p) rs t
          if bad then .ends (endFailed 0x0A54 0) t
          else .runs (keep (netSend (if kind = 1 then .rdmaWrite q (wordAt oc.words 3) len v else .send q len v) t))
        | (.fail c, t) => .ends (endFailed c 0) t
        | (.stall, t) => .ends (endFailed 0x0208 0) t

def doNetPost (kind : Nat) (c : Cmd) (s : State) : State :=
  runWith (cmdOpcode c.words == 0x7A && (wordBits c.words 1 17 16 == kind || (kind == 2 && wordBits c.words 1 17 16 == 3)))
    (fun _ => ownRecord c.door c.words) netPostBody c s

/-- The oldest post on a queue pair that `f` picks ends. -/
def postEnds (q : Nat) (f : NetPost → Bool) (e : CmdEnd) (s : State) : State :=
  match s.net.posts.find? (fun p => p.qp == q && f p) with
  | some p => endById p.cmd e { s with net.posts := s.net.posts.filter (fun x => x.cmd != p.cmd) }
  | none => s

/-- A message of a post on a queue pair. -/
def ofPost (q : Nat) : NetOut → Bool
  | .rdmaRead x _ _ => x == q
  | .rdmaWrite x _ _ _ => x == q
  | .send x _ _ => x == q
  | _ => false

/-- Every post on a queue pair ends with a code, and what of them waits for a port is not sent. -/
def postsFail (q code : Nat) (s : State) : State :=
  (s.net.posts.filter (fun p => p.qp == q)).foldl (fun t p => postEnds q (fun x => x.cmd == p.cmd) (endFailed code 0) t)
    { s with net.queue := s.net.queue.filter (fun m => !ofPost q m) }

/-- ETH_PORT_DOWN (R444). -/
def ethDown (p : Nat) (s : State) : State :=
  if getF s netPortStatusState p = 0 then s
  else
    let t := raise flNetPortStatusLinkDown p (setF netPortStatusState p 0 s)
    failoverBits ((t.net.qps.filter (fun e => e.2.en && e.2.now == p)).foldl (fun t e =>
      match qpPath t e.1 with
      | some n => bump netPortStatusRetransmits n (t.net.posts.filter (fun x => x.qp == e.1)).length (qpMod e.1 (fun x => { x with now := n }) t)
      | none => postsFail e.1 0x0911 t) t)

/-- ETH_PORT_UP. -/
def ethUpDone (p : Nat) (s : State) : State :=
  if dieUp s (26 + p / 2) then setF netPortStatusState p 2 s else s

/-- ROCE_RETRY_EXHAUSTED (R444). -/
def retryOut (q : Nat) (s : State) : State := postsFail q 0x0912 s

/-- CNP_RECEIVED (R442). -/
def cnpArrives (q : Nat) (s : State) : State :=
  if (qpGet s q).en then bump netPortStatusCnpReceived (qpGet s q).now 1 (qpMod q (fun x => { x with lowered := x.lowered + 1 }) s) else s

/-- ECN_MARK_RECEIVED (R442). -/
def ecnMark (q : Nat) (s : State) : State := netSend (.congestion q) s

/-! ## Manifests (R446, R447) -/

/-- `n` bytes of a byte string from `o` on, as a little-endian number. -/
def fieldOf (b : List Nat) (o n : Nat) : Nat := ofBytes ((b.drop o).take n)

/-- Node entries of a manifest. -/
def manNodes : Nat → List Nat → List ManNode
  | 0, _ => []
  | n + 1, b => { addr := fieldOf b 0 16, parent := fieldOf b 16 2, alt := fieldOf b 18 2 } :: manNodes n (b.drop 32)

/-- Chunk hashes of a manifest. -/
def manHashes : Nat → List Nat → List Nat
  | 0, _ => []
  | n + 1, b => fieldOf b 0 48 :: manHashes n (b.drop 48)

/-- Node `k` or one of its ancestors is `x`; `n` bounds the steps. -/
def climbs (ns : List ManNode) (x : Nat) : Nat → Nat → Bool
  | 0, _ => true
  | n + 1, k => k == x || (match ns[k]? with
    | some y => if y.parent = 0xFFFF then false else climbs ns x n y.parent
    | none => false)

/-- Climbing from a node never ends: a cycle. -/
def climbsForever (ns : List ManNode) : Nat → Nat → Bool
  | 0, _ => true
  | n + 1, k => match ns[k]? with
    | some y => if y.parent = 0xFFFF then false else climbsForever ns n y.parent
    | none => false

/-- A manifest read from its bytes; none where it is malformed (R447). -/
def manifestOf (b : List Nat) : Option Manifest :=
  let image := fieldOf b 8 8
  let log2 := fieldOf b 16 4
  let count := fieldOf b 20 4
  let room0 := fieldOf b 24 4
  let chunks := (image + 2 ^ log2 - 1) / 2 ^ log2
  let header := fieldOf b 0 4 == 0x4D51 && fieldOf b 4 4 == 1 && decide (image ≤ devMemEnd) && 20 ≤ log2 && log2 ≤ 26 &&
    decide (chunks ≤ 1048575) && 1 ≤ count && count ≤ 4096 && 4 ≤ room0 && room0 ≤ 4096 && decide (fieldOf b 30 1 ≤ 1) && fieldOf b 31 1 == 0 &&
    fieldOf b 64 64 == 0 && b.length == 128 + 32 * count + 48 * chunks && decide (b.length ≤ 16777216)
  if !header then none
  else
    let ns := manNodes count (b.drop 128)
    let idx := fun (k : Nat) => k == 0xFFFF || decide (k < count)
    let fields := ns.all (fun y => idx y.parent && idx y.alt) && (List.range count).all (fun i => fieldOf b (148 + 32 * i) 12 == 0)
    let tree := (List.range count).all (fun k => !climbsForever ns (count + 1) k) &&
      (List.range count).all (fun k => decide ((ns.filter (fun y => y.parent == k)).length ≤ 8))
    let alts := fields && tree && (List.range count).all (fun k => match ns[k]? with
      | some y => y.alt == 0xFFFF || !climbs ns k (count + 1) y.alt
      | none => false)
    if alts then some {
      bytes := image, chunkLog2 := log2, admitMib := room0, timeoutMs := if fieldOf b 28 2 = 0 then 200 else fieldOf b 28 2
      fallback := fieldOf b 30 1 == 1, storeIp := fieldOf b 32 16, storeQpn := fieldOf b 48 4 % 2 ^ 24, storeKey := fieldOf b 52 4
      storeAddr := fieldOf b 56 8, nodes := ns, hashes := manHashes chunks (b.drop (128 + 32 * count)) }
    else none

/-! ## IMAGE_FETCH (R448–R450) -/

def fetchMod (f : Fetch → Fetch) (s : State) : State := { s with net.fetch := s.net.fetch.map f }

/-- Bytes of a chunk. -/
def chunkLen (m : Manifest) (i : Nat) : Nat := min (2 ^ m.chunkLog2) (m.bytes - i * 2 ^ m.chunkLog2)

/-- The fetch of the image ends the command. -/
def fetchEnds (e : CmdEnd) (st : Nat) (s : State) : State :=
  match s.net.fetch with
  | some f => endById f.cmd e (setF netStatusFetch 0 st { s with net.fetch := none })
  | none => s

/-- The request for a chunk: of the parent, or of storage (R448). -/
def askFor (m : Manifest) (parent : Option Nat) (i : Nat) : NetOut :=
  match parent with
  | some p => .readChunk p i
  | none => .readStore m.storeIp m.storeQpn m.storeKey (m.storeAddr + i * 2 ^ m.chunkLog2) (chunkLen m i)

/-- The next chunks in ascending order are asked for, within the admission window and the parent's prefix. -/
def askChunks (s : State) : State :=
  match s.net.fetch with
  | none => s
  | some f =>
    match f.man with
    | none => s
    | some m =>
      let room := m.admitMib * 1048576
      (List.range m.hashes.length).foldl (fun t i =>
        match t.net.fetch with
        | some g =>
          let out := (g.asked.map (chunkLen m)).foldl (· + ·) 0
          if g.verified.contains i || g.asked.contains i || (g.parent.isSome && g.limit ≤ i) || room < out + chunkLen m i then t
          else netSend (askFor m g.parent i) { t with net.fetch := some { g with asked := g.asked ++ [i] } }
        | none => t) s

/-- Send a chunk to a node from the destination range; a poisoned chunk is not sent (Table RE-7). -/
def serveChunk (node i : Nat) (f : Fetch) (m : Manifest) (s : State) : State :=
  match translateRange { unit := 8, agent := 6, va := wordAt f.words 3 + i * 2 ^ m.chunkLog2, r := true } (chunkLen m i) s with
  | (.runs rs, t) =>
    let (v, bad, t) := ioRead 8 rs t
    if bad then t else netSend (.chunkData node i (chunkLen m i) v) (fetchMod (fun g => { g with served := g.served + 1 }) t)
  | (_, t) => t

/-- The prefix is sent to every child. -/
def sendPrefix (s : State) : State :=
  match s.net.fetch with
  | some f => (f.kids.filter (fun k => !k.gone)).foldl (fun t k => netSend (.progress k.node f.front) t) s
  | none => s

/-- The command completes once the image is verified and every child is done or given up (R450). -/
def fetchCheck (s : State) : State :=
  match s.net.fetch with
  | some f =>
    match f.man with
    | some m =>
      if f.front = m.hashes.length then
        if f.kids.all (fun k => k.gone || m.hashes.length ≤ k.prog) then fetchEnds (endDone f.reparents f.served) 0 s
        else setF netStatusFetch 0 2 s
      else s
    | none => s
  | none => s

/-- Chunks verified from chunk 0 on. -/
def frontOf (verified : List Nat) : Nat → Nat → Nat
  | 0, k => k
  | n + 1, k => if verified.contains k then frontOf verified n (k + 1) else k

/-- A checked manifest starts the fetch; a failed check refuses the command. -/
def fetchGo (b : List Nat) (oc : OpenCmd) (s : State) : Option Nat × State :=
  let ws := oc.words
  if sha384 b != (List.range 6).foldl (fun v i => v + wordAt ws (8 + i) * 2 ^ (64 * i)) 0 then (some 0x0901, s)
  else match manifestOf b with
    | none => (some 0x0902, s)
    | some m =>
      let n := wordBits ws 1 27 16
      let mine := match m.nodes[n]? with | some y => (List.range 4).any (fun p => (ethPort s p).mtu != 0 && (ethPort s p).ip == y.addr) | none => false
      if !mine then (some 0x0903, s)
      else match translateRange { unit := 8, agent := 6, va := wordAt ws 3, w := true } m.bytes s with
        | (.runs _, t) =>
          let up := (m.nodes[n]?.map (·.parent)).getD 0xFFFF
          let kids := ((List.range m.nodes.length).filter (fun k => (m.nodes[k]?.map (·.parent)) == some n)).map (fun k => ({ node := k } : FetchKid))
          let f : Fetch := { cmd := oc.id, words := ws, man := some m, parent := if up = 0xFFFF then none else some up, kids := kids }
          (none, fetchCheck (askChunks (sendPrefix (setF netStatusPrefix 0 0 (setF netStatusFetch 0 1 { t with net.fetch := some f })))))
        | (_, t) => (some 0x0904, t)

/-- The read of a manifest that storage holds (Table ON-3). -/
def manifestRead (ws : List W64) : NetOut :=
  .readStore (wordAt ws 5 + wordAt ws 6 * 2 ^ 64) (wordBits ws 7 23 0) (wordBits ws 7 63 32) (wordAt ws 4) (wordAt ws 2)

/-- IMAGE_FETCH: the manifest is read from memory and checked, or asked for on the network. -/
def imageFetchBody (oc : OpenCmd) (s : State) : Body :=
  let src := wordBits oc.words 1 1 0
  let len := wordAt oc.words 2
  if 2 ≤ src then refuseBody 0x0100 s
  else if s.net.fetch.isSome then refuseBody 0x0903 s
  else if src = 1 then .runs (netSend (manifestRead oc.words) { s with net.fetch := some { cmd := oc.id, words := oc.words } })
  else match readOrCode (some oc.epoch) (translateRange (cpAccess (wordAt oc.words 4) true false) len s) with
    | (.runs rs, t) =>
      let (v, bad, t) := ioRead 8 rs t
      match (if bad then (some 0x0901, t) else fetchGo (leBytes len v) oc t) with
      | (some c, t) => .ends (endRefused c) t
      | (none, t) => .runs t
    | (.fail c, t) => .ends (endRefused c) t
    | (.stall, t) => .ends (endRefused 0x0201) t

/-- MANIFEST_ARRIVE: a manifest asked for on the network. -/
def manifestArrives (b : List Byte) (s : State) : State :=
  match s.net.fetch with
  | some f =>
    if f.man.isSome then s
    else match s.ob.openCmds.find? (fun o => o.id == f.cmd) with
      | some oc =>
        match fetchGo (b.map (·.toNat)) oc { s with net.fetch := none } with
        | (some c, t) => endById oc.id (endRefused c) t
        | (none, t) => t
      | none => s
  | none => s

/-- The parent has failed (R449): notice, REPARENT, then the alternate, storage, or the end of the fetch. -/
def parentFails (s : State) : State :=
  match s.net.fetch with
  | none => s
  | some f =>
    match f.man, f.parent with
    | some m, some p =>
      let own := wordBits f.words 1 27 16
      let failed := f.failed ++ [p]
      let alt := (m.nodes[own]?.map (·.alt)).getD 0xFFFF
      let t := raise flNetStatusReparent 0 (notice 0x0920 p 26 s)
      let g := { f with failed := failed, asked := [], again := [], limit := 0, reparents := f.reparents + 1 }
      if alt != 0xFFFF && !failed.contains alt then askChunks { t with net.fetch := some { g with parent := some alt } }
      else if m.fallback then askChunks { t with net.fetch := some { g with parent := none } }
      else fetchEnds (endFailed 0x0922 f.reparents f.served) 3 t
    | _, _ => s

/-- A chunk has its length and the hash of the manifest (R448). -/
def chunkGood (m : Manifest) (i : Nat) (b : List Byte) : Bool :=
  b.length == chunkLen m i && some (sha384 (b.map (·.toNat))) == m.hashes[i]?

/-- Where a chunk of the fetch `f` goes. -/
def chunkAccess (f : Fetch) (m : Manifest) (i : Nat) : XAcc :=
  { unit := 8, agent := 6, va := wordAt f.words 3 + i * 2 ^ m.chunkLog2, w := true }

/-- A verified chunk lands: written, PREFIX moved and reported, held requests below it served, more chunks asked for (R448, R450). -/
def chunkLands (f : Fetch) (m : Manifest) (i : Nat) (b : List Byte) (rs : List (Nat × Nat × Nat)) (t : State) : State :=
  let verified := setAdd f.verified i
  let front := frontOf verified m.hashes.length 0
  let t := ioPut 8 rs (ofBytes (b.map (·.toNat))) false (setF netStatusPrefix 0 front t)
  let t := { t with net.fetch := some { f with verified := verified, front := front, asked := setDel f.asked i } }
  let t := if front != f.front then sendPrefix t else t
  let now := f.held.filter (fun h => decide (h.2 < front))
  let t := now.foldl (fun t h => serveChunk h.1 h.2 f m t) (fetchMod (fun g => { g with held := g.held.filter (fun h => !decide (h.2 < front)) }) t)
  fetchCheck (askChunks t)

/-- A chunk that fails its check is asked for again: once of a parent, which then counts as failed, three times of the store (R449). -/
def chunkFails (f : Fetch) (m : Manifest) (i : Nat) (s : State) : State :=
  let t := raise flNetStatusChunkBad 0 s
  match f.parent with
  | some p =>
    if f.again.contains i then parentFails t
    else netSend (askFor m (some p) i) (fetchMod (fun g => { g with again := setAdd g.again i }) t)
  | none =>
    let n := tgetD f.tries i 0 + 1
    if 3 ≤ n then fetchEnds (endFailed 0x0923 f.reparents f.served) 3 t
    else netSend (askFor m none i) (fetchMod (fun g => { g with tries := tput g.tries i n }) t)

/-- The node a chunk came from; none: the store. -/
def chunkFrom (src : ChunkFrom) : Option Nat := match src with | .node n => some n.val | .store => none

/-- IMAGE_CHUNK_ARRIVE (R448): data of an earlier parent is discarded; a chunk that matches is written, one that does not is
read again, and marks its parent failed the second time, or ends a root's fetch the third. -/
def chunkArrives (src : ChunkFrom) (i : Nat) (b : List Byte) (s : State) : State :=
  match s.net.fetch with
  | none => s
  | some f =>
    match f.man with
    | none => s
    | some m =>
      if chunkFrom src != f.parent || !f.asked.contains i then s
      else if chunkGood m i b then
        match runsOrCode (cmdEpoch s f.cmd) (translateRange (chunkAccess f m i) (chunkLen m i) s) with
        | (.runs rs, t) => chunkLands f m i b rs t
        | (.fail c, t) => fetchEnds (endFailed (if c = 0x0820 ∨ c = 0x0830 then c else 0x0904) f.reparents f.served) 3 t
        | (.stall, t) => fetchEnds (endFailed 0x0904 f.reparents f.served) 3 t
      else chunkFails f m i s

/-- CHUNK_READ_REQUEST (R450): only nodes of the manifest are served, and only within the prefix. -/
def chunkRequest (node i : Nat) (s : State) : State :=
  match s.net.fetch with
  | none => s
  | some f =>
    match f.man with
    | none => s
    | some m =>
      if m.nodes.length ≤ node || m.hashes.length ≤ i then s
      else
        let own := wordBits f.words 1 27 16
        let s := if f.kids.any (fun k => k.node == node) || (m.nodes[node]?.map (·.alt)) != some own then s
          else netSend (.progress node f.front) (fetchMod (fun g => { g with kids := g.kids ++ [{ node := node }] }) s)
        if i < f.front then serveChunk node i f m s else fetchMod (fun g => { g with held := g.held ++ [(node, i)] }) s

/-- PREFIX_MESSAGE: a parent's prefix lets further chunks be read; a child's prefix counts for completion. -/
def prefixArrives (node count : Nat) (s : State) : State :=
  match s.net.fetch with
  | none => s
  | some f =>
    if f.parent = some node then askChunks (fetchMod (fun g => { g with limit := max g.limit count }) s)
    else fetchCheck (fetchMod (fun g => { g with kids := g.kids.map (fun k => if k.node == node then { k with prog := max k.prog count } else k) }) s)

/-- CHILD_SILENCE_TIMEOUT (R450). -/
def childSilent (node : Nat) (s : State) : State :=
  fetchCheck (fetchMod (fun g => { g with kids := g.kids.map (fun k => if k.node == node then { k with gone := true } else k) }) s)

/-- JOB_DESTROY cancels a running fetch (R450). -/
def fetchCancel (s : State) : State := fetchEnds (endCancelled 0x010F) 0 s

/-! ## Network groups and collectives (R452, R453) -/

/-- Every member's hello has come: the highest version all support, which is 1, or 0x0930. -/
def groupCheck (g : Nat) (s : State) : State :=
  match tget s.net.groups g with
  | none => s
  | some x =>
    match x.cmd with
    | none => s
    | some c =>
      if (List.range x.members.length).all (fun k => k == x.own || x.hellos.any (fun h => h.1 == k)) then
        if x.hellos.all (fun h => h.2.1 ≤ 1 && 1 ≤ h.2.2) then
          endById c (endDone 1 0) { s with net.groups := tput s.net.groups g { x with cmd := none, version := 1 } }
        else endById c (endFailed 0x0930 0) (raise flNetStatusXgroupFail 0 { s with net.groups := tdel s.net.groups g })
      else s

/-- The words of a member list: 16-byte addresses. -/
def addrList (v : Nat) (n : Nat) : List Nat := (List.range n).map (fun i => (v >>> (128 * i)) % 2 ^ 128)

/-- A network group is opened: early greetings join it, its members are greeted (R452). -/
def groupOpened (oc : OpenCmd) (members : Nat) (t : State) : State :=
  let g := wordBits oc.words 1 31 0
  let n := wordBits oc.words 2 6 0
  let own := wordBits oc.words 2 13 8
  let early := (t.net.early.filter (fun e => e.1 == g && e.2.1 != own)).map (fun e => (e.2.1, e.2.2))
  let x : NetGroup := { cmd := some oc.id, members := addrList members n, own := own, hellos := early }
  let t := { t with net.groups := tput t.net.groups g x, net.early := t.net.early.filter (fun e => e.1 != g) }
  groupCheck g ((setDel (List.range n) own).foldl (fun t k => netSend (.hello g k 1 1) t) t)

/-- XGROUP_OPEN (R452); one for a group that is being opened waits for that (log entry 193). -/
def xgroupBody (oc : OpenCmd) (s : State) : Body :=
  let n := wordBits oc.words 2 6 0
  if n == 0 || 64 < n || n ≤ wordBits oc.words 2 13 8 then refuseBody 0x0100 s
  else if (tget s.net.groups (wordBits oc.words 1 31 0)).any (fun x => x.cmd.isSome) then .runs (notYet oc.id s)
  else match readOrCode (some oc.epoch) (translateRange (cpAccess (wordAt oc.words 3) true false) (16 * n) s) with
    | (.runs rs, t) =>
      let (v, bad, t) := ioRead 8 rs t
      if bad then .ends (endFailed 0x0A54 0) t else .runs (groupOpened oc v t)
    | (.fail c, t) => .ends (endRefused c) t
    | (.stall, t) => .ends (endRefused 0x0201) t

/-- XGROUP_HELLO. -/
def helloArrives (g k low high : Nat) (s : State) : State :=
  match tget s.net.groups g with
  | some x =>
    if x.cmd.isSome then
      groupCheck g { s with net.groups := tput s.net.groups g { x with hellos := (k, low, high) :: x.hellos.filter (fun h => h.1 != k) } }
    else { s with net.early := (g, k, low, high) :: s.net.early }
  | none => { s with net.early := (g, k, low, high) :: s.net.early }

/-- XGROUP_OPEN_TIMEOUT. -/
def groupTimeout (g : Nat) (s : State) : State :=
  match tget s.net.groups g with
  | some x =>
    match x.cmd with
    | some c => endById c (endFailed 0x0931 0) (raise flNetStatusXgroupFail 0 { s with net.groups := tdel s.net.groups g })
    | none => s
  | none => s

/-- Fields of XCOLL that members compare: COUNT, Table TF-5, TAG. -/
def xcollFields (ws : List W64) : List Nat := [wordAt ws 4, wordAt ws 5, wordAt ws 6]

/-- A network collective that ends early leaves the running ones; what its other members still send for it belongs to no later one
(R434, R453). -/
def xcollLeaves (c : CollRun) (g : Nat) (x : NetGroup) (s : State) : State :=
  let late := (List.range x.members.length).filter (fun k => k != x.own && !c.parts.any (fun p => p.rank == k))
  { s with
    fab.colls := s.fab.colls.filter (fun y => y.cmd != c.cmd)
    net.lateColl := if late.isEmpty then s.net.lateColl else s.net.lateColl ++ [(g, late)] }

/-- A network collective with every member's part: a mismatch fails it with 0x0933, else its data moves (R453). -/
def xcollCheck (c : CollRun) (s : State) : State :=
  match c.xgroup.bind (fun g => tget s.net.groups g) with
  | none => s
  | some x =>
    let w := wordAt c.words 5
    let g := List.range x.members.length
    let gid := c.xgroup.getD 0
    let out := fun (t : State) => { t with fab.colls := t.fab.colls.filter (fun y => y.cmd != c.cmd) }
    let sends := fun (t : State) => if c.src.isEmpty then t else netSend (.collData gid x.own (ioRead 8 c.src t).1) t
    if c.parts.any (fun p => p.fields != xcollFields c.words) then
      endById c.cmd (endFailed 0x0933 0) (raise flNetStatusXgroupFail 0 (xcollLeaves c gid x s))
    else if g.all (fun k => k == x.own || c.parts.any (fun p => p.rank == k)) then
      endById c.cmd (endDone 0 0) (collMove w (wordAt c.words 4) x.own g
        (fun elem i => ringReduce w g.length (wordAt c.words 4) i (fun k => elem k i)) c (sends (out s)))
    else s

/-- A collective's fields are wrong for its network group (R453). -/
def xcollBad (ws : List W64) (x : NetGroup) : Bool :=
  let w := wordAt ws 5
  let count := wordAt ws 4
  let n := x.members.length
  decide (4 < clOp w) || clRed w == 3 || clGroup w != 0 || x.version == 0 || (clOp w != 4 && count == 0) ||
    ((clOp w == 1 || clOp w == 2) && count % n != 0) || (clOp w == 3 && n ≤ clRoot w)

/-- A collective over the network enters: what other members sent early joins it, its fields go to the group (R453). -/
def xcollEnter (oc : OpenCmd) (x : NetGroup) (src dst : List (Nat × Nat × Nat)) (t : State) : State :=
  let gid := wordBits oc.words 1 31 0
  let mine := t.net.earlyColl.filter (fun e => e.1 == gid)
  let first := mine.foldl (fun (acc : List CollPart) e => if acc.any (fun p => p.rank == e.2.rank) then acc else acc ++ [e.2]) []
  let c : CollRun := { cmd := oc.id, words := oc.words, xgroup := some gid, src := src, dst := dst, parts := first }
  let left := first.foldl (fun (l : List (Nat × CollPart)) p => l.erase (gid, p)) t.net.earlyColl
  xcollCheck c (netSend (.coll gid x.own (xcollFields oc.words)) { t with fab.colls := t.fab.colls ++ [c], net.earlyColl := left })

/-- XCOLL (R453). -/
def xcollBody (oc : OpenCmd) (s : State) : Body :=
  match tget s.net.groups (wordBits oc.words 1 31 0) with
  | none => refuseBody 0x0933 s
  | some x =>
    if xcollBad oc.words x then refuseBody 0x0933 s
    else
      let (sb, db) := collSizes (wordAt oc.words 5) (wordAt oc.words 4) x.members.length x.own
      let a : XAcc := { unit := 8, agent := 6, va := wordAt oc.words 2, r := true }
      match readOrCode (some oc.epoch) (translateRange a sb s) with
      | (.runs src, t) =>
        match runsOrCode (some oc.epoch) (translateRange { a with va := wordAt oc.words 3, r := false, w := true } db t) with
        | (.runs dst, t) => if !(runsPoison src t).isEmpty then .ends (endFailed 0x0A54 0) t else .runs (xcollEnter oc x src dst t)
        | (.fail c, t) => .ends (endFailed c 0) t
        | (.stall, t) => .ends (endFailed 0x0208 0) t
      | (.fail c, t) => .ends (endFailed c 0) t
      | (.stall, t) => .ends (endFailed 0x0208 0) t

def doXcoll (op : Nat) (c : Cmd) (s : State) : State :=
  runWith (cmdOpcode c.words == 0x7D && (clOp (wordAt c.words 5) == op || (op == 0 && decide (4 < clOp (wordAt c.words 5)))))
    (fun _ => ownRecord c.door c.words) xcollBody c s

/-- A member's part of a network collective arrives: for the oldest that failed here and still awaits it, for one that runs, or ahead. -/
def xcollPart (g : Nat) (x : CollPart) (s : State) : State :=
  if s.net.lateColl.any (fun e => e.1 == g && e.2.contains x.rank) then { s with net.lateColl := lateTaken g x.rank s.net.lateColl }
  else match s.fab.colls.find? (fun c => c.xgroup == some g && !c.parts.any (fun p => p.rank == x.rank)) with
  | some c =>
    let c' := { c with parts := c.parts ++ [x] }
    xcollCheck c' { s with fab.colls := s.fab.colls.map (fun y => if y.cmd == c.cmd then c' else y) }
  | none => { s with net.earlyColl := s.net.earlyColl ++ [(g, x)] }

/-- XCOLL_MEMBER_TIMEOUT (R453): collectives that still want the member fail; their destinations are undefined. -/
def memberLost (g k : Nat) (s : State) : State :=
  match tget s.net.groups g with
  | none => s
  | some x => (s.fab.colls.filter (fun c => c.xgroup == some g && !c.parts.any (fun p => p.rank == k))).foldl (fun t c =>
      collFails c 0x0932 (raise flNetStatusXgroupFail 0 (xcollLeaves c g x t))) s

/-! ## Messages (R443) -/

/-- NET_MESSAGE_ARRIVE: each message to job memory is translated by the unit of its port's die, and refused with a remote
access error where that fails. A read of poisoned bytes is not answered (Table RE-7). A SEND has no receiver in the spec: it
is acknowledged (log entry 32). Only reliable connected queue pairs that are enabled take messages (R442). -/
def netMessage (p q : Nat) (m : NetMsg) (s : State) : State :=
  let u := unitOfEth p
  if !(qpGet s q).en && !(match m with | .coll .. => true | _ => false) then s
  else match m with
  | .write va len val =>
    match translateRange { unit := u, agent := 6, va := va.toNat, w := true } len s with
    | (.runs rs, t) => netSend (.ack q) (ioPut u rs (val % 256 ^ len) false t)
    | (_, t) => netSend (.accessError q) t
  | .read va len =>
    match translateRange { unit := u, agent := 6, va := va.toNat, r := true } len s with
    | (.runs rs, t) =>
      let (v, bad, t) := ioRead u rs t
      if bad then t else netSend (.readData q len v) t
    | (_, t) => netSend (.accessError q) t
  | .send _ _ => netSend (.ack q) s
  | .readData len val =>
    match s.net.posts.find? (fun x => x.qp == q && x.kind == 0) with
    | none => s
    | some x =>
      match runsOrCode (cmdEpoch s x.cmd) (translateRange { unit := u, agent := 6, va := x.va, w := true } (min len x.len) s) with
      | (.runs rs, t) => postEnds q (fun y => y.cmd == x.cmd) (endDone 0 0) (ioPut u rs (val % 256 ^ min len x.len) false t)
      | (.fail c, t) => postEnds q (fun y => y.cmd == x.cmd) (endFailed (if c = 0x0820 ∨ c = 0x0830 then c else 0x0208) 0) t
      | (.stall, t) => postEnds q (fun y => y.cmd == x.cmd) (endFailed 0x0208 0) t
  | .ack => postEnds q (fun x => x.kind != 0) (endDone 0 0) s
  | .refused => postEnds q (fun _ => true) (endFailed 0x0208 0) s
  | .coll g k fields val => xcollPart g.toNat { rank := k, fields := fields.map (·.toNat), data := val, poison := [] } s

/-- A virtual address lies in the host-link window by the table as it stands. -/
def vaAtHost (s : State) (va : Nat) : Bool :=
  match tableLeaf s va with | some (_, l, e) => isHostWin (entPa e) (pageSize l) | none => false

/-- The host link is lost: network commands that bring data to host memory end with 0x0830 (R381 step 5). -/
def netHostLost (s : State) : State :=
  let t := (s.net.posts.filter (fun p => p.kind == 0 && vaAtHost s p.va)).foldl (fun t p =>
    postEnds p.qp (fun x => x.cmd == p.cmd) (endFailed 0x0830 0) t) s
  match t.net.fetch with
  | some f =>
    if f.man.isSome && vaAtHost t (wordAt f.words 3) then fetchEnds (endFailed 0x0830 f.reparents f.served) 3 t else t
  | none => t

/-- What a job's end leaves of its work on the network (R401). -/
def netJobEnds (s : State) : State := { fetchCancel s with net.groups := [], net.early := [], net.earlyColl := [], net.lateColl := [] }

end Sys2Proof.Machine
end

