-- ==== Sys2Proof/Machine/DieLeave.lean ====
section
/-! DEFINITION. Sys2Proof/Machine/DieLeave.lean: the package timer's copies, fences, and dies that leave service
(R36–R41, R466–R474). -/
namespace Sys2Proof.Machine

/-! ## The package timer (R36–R41) -/

/-- TIMER_SYNC (R38, R41): the master count reaches a die's copy, which from here makes its difference good by holding or
counting at double rate; `drift` is what it will drift by until the next one (log entry 127). The copy itself does not step. The
west I/O die's own copy is the master. -/
def timerSync (d : Nat) (drift : Int) (s : State) : State :=
  if d = 26 then s
  else
    let skew := tgetD s.timer.skew d 0
    let t := { s with timer.slew := tput s.timer.slew d skew, timer.drift := tput s.timer.drift d drift }
    if 8 < skew ∨ skew < -8 then raise flTimerStatusSyncErr 0 t else t

/-- One nanosecond towards zero. -/
def toZero (x : Int) : Int := if 0 < x then x - 1 else if x < 0 then x + 1 else 0

/-- A copy's gain on the master in one nanosecond of the master: −1 while it holds, 1 while it counts at double rate, else what it
drifts by (R38). -/
def copyGain (slew drift : Int) : Int :=
  if slew != 0 then toZero slew - slew else drift - toZero drift

/-- Copies after one nanosecond of the master. -/
def copiesTick (t : TimerState) : TimerState :=
  { t with
    skew := t.drift.foldl (fun k e => tput k e.1 (tgetD k e.1 0 + copyGain (tgetD t.slew e.1 0) e.2)) t.skew
    slew := t.slew.map (fun e => (e.1, toZero e.2))
    drift := t.drift.map (fun e => (e.1, if tgetD t.slew e.1 0 = 0 then toZero e.2 else e.2)) }

/-- PLL_LOCK_LOST (R41): the timer goes on from the backup oscillator. -/
def pllLost (s : State) : State :=
  if !flagSet s timerStatusLocked 0 then s
  else
    writeErr { level := lvPackage, unit := 26, reason := 0x0A10, cls := 0x0B, verdict := vLasting } none
      (raise flTimerStatusBackupEvent 0 (setF timerStatusBackup 0 1 (setF timerStatusLocked 0 0 s)))

/-- The timer counts while the PLL is locked or the backup runs: the master by 1 ns, a copy that was found behind it at
double rate, one found ahead of it not at all (R36, R38). -/
def timerTick (s : State) : State :=
  if flagSet s timerStatusLocked 0 || flagSet s timerStatusBackup 0 then
    { s with timer := copiesTick { s.timer with master := s.timer.master + 1 } }
  else s

/-! ## Links and fences (R468) -/

def loamLink (s : State) (l : Nat) : LoamLink := tgetD s.loam.links l {}
def loamMod (l : Nat) (f : LoamLink → LoamLink) (s : State) : State := { s with loam.links := tmod s.loam.links l {} f }

/-- The fence of a die closes (R468): its links are fenced, tests on them end without a verdict, and no frame waits. -/
def fenceDie (d : Nat) (s : State) : State :=
  (linksOf d).foldl (fun t l => setF ddLinkStatusState l 2
    (loamMod l (fun x => { x with move := none, optical := false, tests := [], buf := [] }) t)) s

/-! ## Leaving service (R469, Table DD-5) -/

/-- Port of a die at the homes (R286, R287). -/
def portOfDie (d : Nat) : Option Nat := if d < 8 then some d else if 24 ≤ d ∧ d ≤ 27 then some (d - 16) else none

/-- Receivers of the die-down message (R304, R469): homes, the control processor, the east I/O die, for a Hayloft die every die
that sends requests. -/
def downTo (s : State) (d : Nat) : List Nat :=
  (List.range 16).filter (fun h => homeUp s h && 8 + h != d) ++ [16] ++
    ((if 8 ≤ d ∧ d < 24 then [0, 1, 2, 3, 4, 5, 6, 7, 24, 25, 26, 27] else [27]).filter (fun x => dieUp s x && x != d)).map (32 + ·)

/-- Pending records of units on a die that left get a lasting verdict with OUT (R503, R512); tests of links are abandoned
without one (Table DD-6). -/
def pendingOut (d : Nat) (s : State) : State :=
  ((pendingFaults s).filter (fun p => dieOfUnit p.level p.unit == d && p.link == p.id)).foldl
    (fun t p => writeErr { p with verdict := vLasting, out := true } (some p.link) t) s

/-- The record of a die that leaves: the die and the cause in DETAIL. -/
def leaveRecord (d cause reason : Nat) (s : State) : State :=
  writeErr { level := lvPackage, unit := d, reason := reason, cls := 0x07, verdict := vLasting, out := true, detail := d * 256 + cause } none s

/-- A host die is gone: its harts stop, interrupts in its interrupt files are lost, source 4 is raised (R355). -/
def hostGone (d cause : Nat) (s : State) : State :=
  let k := d - 24
  let t := { s with
    cores.harts := s.cores.harts.filter (fun e => e.1 / 48 != k), cores.imsic := s.cores.imsic.filter (fun e => e.1 / 2 / 48 != k)
    cores.files := s.cores.files.filter (fun e => e.1 / 2 / 48 != k)
    cores.resv := s.cores.resv.filter (fun e => e.1 / 48 != k) }
  deliverEvent 4 (leaveRecord d cause 0x0A40 (agentGone (d - 16) t))

/-- A start of a type fails: its counter counts, and the start that follows; a recovery start that fails halts the module
(R529). -/
def escalate (type cause : Nat) (s : State) : State :=
  if type = 1 then
    let n := getF s sbStatusWarmFails 0 + 1
    { setF sbStatusWarmFails 0 n s with start.due := some (if n < 3 then (1, cause) else (0, 3)), start.errorEnd := true }
  else if type = 0 then
    let n := getF s sbStatusColdFails 0 + 1
    { setF sbStatusColdFails 0 n s with start.due := some (if n < 2 then (0, cause) else (2, 4)), start.errorEnd := true }
  else
    let dies := (List.range 29).filter (· != 27)
    let t := dies.foldl (fun t d => setF ddDieStatusState d 2 t) s
    writeErr { level := lvPackage, unit := 27, reason := 0x0708, cls := 0x08, verdict := vLasting, start := true } none
      { setF mgStatusPanel 0 3 t with
        start.due := none, start.halted := true, start.errorEnd := true
        mg.out := if getF s mgStatusPanel 0 = 3 then t.mg.out else .event 2 3 :: t.mg.out }

/-- The start that an event calls for becomes due; during a start that is already due, that start fails (Table SB-10). -/
def startDue (type cause : Nat) (s : State) : State :=
  match s.start.due with
  | some (ty, _) => if flagSet s obStatusReady 0 then { s with start.due := some (type, cause), start.errorEnd := true } else escalate ty cause s
  | none => { s with start.due := some (type, cause), start.errorEnd := true }

/-- The package stops until a start that is due: fences close, READY clears, the host link is lost. -/
def packageStops (type cause : Nat) (s : State) : State :=
  let t := (List.range 41).foldl (fun t l => setF ddLinkStatusState l 2
    (loamMod l (fun x => { x with move := none, optical := false, tests := [], buf := [] }) t)) (startDue type cause s)
  setF hlStatusLinkUp 0 0 (setF obStatusReady 0 0 (fenceAll { t with start.running := false }))

/-- WEST_DIE_LOST (R472): a warm start follows, with 0x0A23 written in it. -/
def westGone (s : State) : State := packageStops 1 5 { s with start.westLost := true }

/-- DIE_LEAVE_SERVICE (R469). A die that is out already, or the Loam, does not leave. -/
def leaveDie (d cause : Nat) (s : State) : State :=
  if !dieUp s d || 28 ≤ d then s
  else if d = 26 then westGone s
  else
    let msgs := (downTo s d).map (fun r => (r, d, localTime s 28 % 65536))
    let t := fenceDie d { s with loam.down := s.loam.down ++ msgs }
    let t := raise flDdDieStatusLeft d (setF ddDieStatusCause d cause (setF ddDieStatusState d 1 t))
    let t := if d < 8 then leaveRecord d cause 0x0A20 (agentGone d t)
      else if d < 24 then leaveRecord d cause 0x0519 (leaveRecord d cause 0x0A20 (homeGone (d - 8) (hayPut (d - 8) (hayRepairs (hayGet t (d - 8))) t)))
      else if d < 26 then hostGone d cause t
      else leaveRecord d cause 0x0A20 t
    pendingOut d t

/-! ## The rules of the receivers (R470, Table DD-5) -/

/-- A task with work on a lost Meadow fails (R470). -/
def taskLost (m : Nat) (r : TaskRec) (s : State) : State :=
  if r.phase == .waiting || r.tuft0 / 128 != m then s
  else
    let copies := (s.copies.recs.filter (ownedByTask r.id)).map (·.id)
    let t := dropInvocations r.id (dropWaiters (waiterOfTask (taskTufts r) copies) (dropCopies (ownedByTask r.id) s))
    finishTask r 2 0x0A21 ((taskTufts r).foldl (fun u x => setTuft x { task := some r.id } u) t)

/-- Copies on a lost Meadow that belong to no task complete with 0x0A21; residency copies are dropped with their units. -/
def copiesLost (m : Nat) (s : State) : State :=
  (s.copies.recs.filter (fun c => c.sward / 16 == m)).foldl (fun t c =>
    match c.owner with
    | .unit _ _ _ _ => dropCopies (fun x => x.id == c.id) t
    | _ => copyEnds c.id 0x0A21 t) s

/-- Units whose staging copy ran on a lost Meadow are home again. -/
def stagingLost (m : Nat) (s : State) : State :=
  (s.copies.recs.filter (fun c => c.sward / 16 == m)).foldl (fun t c =>
    match c.owner with
    | .unit g u _ false => unitPut g u { unitGet t g u with pkg := .home } t
    | _ => t) s

/-- A lost Meadow at the control processor: R154, R233, R331, R333, R470. -/
def meadowLost (m : Nat) (s : State) : State :=
  let t := (invQueue s m).foldl (fun t i => finishInv m i 0x0A21 t) s
  let t := s.work.tasks.foldl (fun t r => taskLost m r t) t
  let t := dropMeadowReps m (copiesLost m (stagingLost m t))
  let t := setXunit m {} { t with
    xl.moveWait := t.xl.moveWait.filter (fun a => a.unit != m)
    work.pool := t.work.pool.map (fun a => if a.sward / 16 == m then { a with lost := true } else a)
    tufts := t.tufts.filter (fun e => e.1 / 128 != m) }
  setF obStatusDegraded 0 1 (unitReports m t)

/-- The east I/O die at the control processor: its ports go down, its translation unit has reported. -/
def eastLost (s : State) : State :=
  let t := (span 8 8).foldl (fun t p => linkDown p t) s
  unitReports 9 (setXunit 9 {} (ethDown 3 (ethDown 2 t)))

/-- The control processor's rule for a lost die. -/
def cpRule (d : Nat) (s : State) : State :=
  if d < 8 then meadowLost d s else if d < 26 then setF obStatusDegraded 0 1 s else if d = 27 then eastLost s else s

/-- DIE_DOWN_MESSAGE: a receiver (0–15 homes, 16 the control processor, 32 + die a die) runs its rule. -/
def dieDown (dest d : Nat) (s : State) : State :=
  match s.loam.down.find? (fun e => e.1 == dest && e.2.1 == d) with
  | none => s
  | some e =>
    let t := loamStamp e.2.2 (if dest < 16 then 8 + dest else if dest = 16 then 26 else dest - 32) { s with loam.down := s.loam.down.erase e }
    if dest < 16 then (match portOfDie d with | some a => agentLeavesAt dest a t | none => t)
    else if dest = 16 then cpRule d t
    else if 8 ≤ d ∧ d < 24 then (match portOfDie (dest - 32) with | some p => homeLostAt (d - 8) p t | none => t)
    else t

end Sys2Proof.Machine
end

