-- ==== Sys2Proof/Machine/Loam.lean ====
section
/-! DEFINITION. Sys2Proof/Machine/Loam.lean: the Loam's links, rings, lane and channel tests, and the test access network
(R457–R468, R474–R480). -/
namespace Sys2Proof.Machine

/-! ## Frames (R459) -/

def frameTo (l : Nat) (ba : Bool) : Nat := if ba then (linkEnds l).1 else (linkEnds l).2

/-- LOAM_FRAME_RECEIVE (R39, R459): a frame stands in the sender's replay buffer, one of 64, with the copy of `src`, the die where
it entered the Loam, as it left there, until it is acknowledged; a good one is delivered whole and raises the receiving die's floor. While
the link moves, no new frame is taken (R464). -/
def frameReceive (l : Nat) (ba : Bool) (frame src : Nat) (ok : Bool) (s : State) : State :=
  let x := loamLink s l
  let dir := bit ba
  let sent := x.buf.find? (fun e => e.1 == dir && e.2.1 == frame)
  let stamp := match sent with | some e => e.2.2 | none => loamStampOf s src
  let full := decide (64 ≤ (x.buf.filter (fun e => e.1 == dir)).length)
  if !linkCarries s l || (sent.isNone && (full || x.move.isSome)) then s
  else
    let t := if sent.isSome then s else loamMod l (fun y => { y with buf := y.buf ++ [(dir, frame, stamp)] }) s
    if ok then loamStamp stamp (frameTo l ba) t else t

/-- LOAM_FRAME_ACK: the frame leaves the replay buffer. -/
def frameAck (l : Nat) (ba : Bool) (frame : Nat) (s : State) : State :=
  loamMod l (fun x => { x with buf := x.buf.filter (fun e => e.1 != bit ba || e.2.1 != frame) }) s

/-- LOAM_FRAME_REPLAY: a frame not acknowledged is replayed. -/
def frameReplay (l : Nat) (ba : Bool) (frame : Nat) (s : State) : State :=
  if (loamLink s l).buf.any (fun e => e.1 == bit ba && e.2.1 == frame) && linkCarries s l then bump ddLinkStatusReplays l 1 s else s

/-! ## Lane failures (R463, R464, Table DD-6) -/

def laneKey (ba : Bool) (lane : Nat) : Nat := bit ba * 256 + lane

/-- What the counts of transient verdicts call lane `k` of link `l` (R504). -/
def laneSub (l k : Nat) : Nat := l * 512 + k + 1

/-- A pending record of a lane, with the Loam as unit and the link as SUBUNIT (log entry 33). -/
def lanePending (s : State) (l key : Nat) : Option ErrRec :=
  s.err.pend.find? (fun p => p.reason == 0x0A01 && p.subunit == l && p.detail == key)

/-- LOAM_LANE_ERROR and LOAM_HANDSHAKE_TIMEOUT (R463): the link starts its move to the detour channels, the record is written,
LANE_ERR set; while the link already moves or is under test, the lane waits for its own test. -/
def loamLaneError (l : Nat) (ba : Bool) (lane : Nat) (s : State) : State :=
  let x := loamLink s l
  let k := laneKey ba lane
  if !linkCarries s l || x.degraded || x.gone.contains k || x.tests.contains k then s
  else
    let t := loamMod l (fun y => { y with tests := y.tests ++ [k], move := if y.optical then y.move else some true }) s
    if !x.tests.isEmpty || x.move.isSome then t
    else
      pendErr { level := lvPackage, unit := 28, subunit := l, reason := 0x0A01, cls := 0x05, detail := k }
        (raise flDdLinkStatusLaneErr l (setF ddLinkStatusState l 1 t))

/-- LINK_MOVE_COMPLETE (R464): once every sent frame is acknowledged, frames go on the new path. A lane that failed while the
link moved back sends it out again. -/
def moveComplete (l : Nat) (s : State) : State :=
  let x := loamLink s l
  match x.move with
  | none => s
  | some toOptical =>
    if !x.buf.isEmpty then s
    else if toOptical then loamMod l (fun y => { y with move := none, optical := true }) s
    else if x.tests.isEmpty then setF ddLinkStatusState l 0 (loamMod l (fun y => { y with move := none, optical := false }) s)
    else loamMod l (fun y => { y with move := none, optical := true }) s

/-- DD_STATUS DEGRADED: a link degraded, or a ring or a stop lost. -/
def loamFlags (s : State) : State :=
  let worse := s.loam.links.any (fun e => e.2.degraded) ||
    (List.range 4).any (fun r => flagSet s ddRingStatusLost r || getF s ddRingStatusStopUp r != 2 ^ 28 - 1)
  setF ddStatusDegraded 0 (bit worse) s

/-- A die has no path to the west I/O die: its links are down or degraded and its stops lost on every ring (R466). -/
def unreachable (s : State) (d : Nat) : Bool :=
  (linksOf d).all (fun l => 2 ≤ getF s ddLinkStatusState l || (loamLink s l).degraded) &&
    (List.range 4).all (fun r => flagSet s ddRingStatusLost r || !(getF s ddRingStatusStopUp r).testBit d)

/-- Dies that have become unreachable leave (R466). -/
def reachCheck (s : State) : State :=
  ((List.range 28).filter (fun d => d != 26 && dieUp s d && unreachable s d)).foldl (fun t d =>
    leaveDie d 4 (writeErr { level := lvPackage, unit := d, reason := 0x0A06, cls := 0x07, verdict := vLasting, out := true } none t)) (loamFlags s)

/-- A lane that failed its test, or whose transient verdicts reached the threshold: a spare takes its place, or the link is
degraded. -/
def laneGone (l : Nat) (k : Nat) (escalated : Bool) (s : State) : State :=
  let f := if k < 256 then ddLinkStatusSparesAb else ddLinkStatusSparesBa
  let spare := getF s f l != 0
  let rec_ := fun (t : State) =>
    let reason := if escalated then 0x0A53 else if spare then 0x0A02 else 0x0A03
    match lanePending t l k with
    | some p => lasting p reason k spare false t
    | none => writeErr { level := lvPackage, unit := 28, subunit := l, reason := reason, cls := 0x05, verdict := vLasting, repaired := spare, detail := k } none t
  if spare then
    rec_ (loamMod l (fun x => { x with gone := setAdd x.gone k, move := if x.tests.isEmpty then some false else x.move }) (setF f l (getF s f l - 1) s))
  else reachCheck (rec_ (loamMod l (fun x => { x with gone := setAdd x.gone k, degraded := true, tests := [] }) s))

/-- LOAM_LANE_TEST_DONE: the oldest lane waiting must be this one, and the link on optical. -/
def loamLaneTest (l : Nat) (ba : Bool) (lane : Nat) (ok : Bool) (s : State) : State :=
  let k := laneKey ba lane
  let x := loamLink s l
  if x.tests.head? != some k || !x.optical || x.move.isSome || !linkCarries s l then s
  else
    let t := loamMod l (fun y => { y with tests := y.tests.drop 1 }) s
    let back := fun (t : State) => loamMod l (fun y => { y with move := if y.tests.isEmpty then some false else y.move }) t
    if !ok then laneGone l k false (bump reCountsTests 0 1 t)
    else match lanePending t l k with
      | some p =>
        let (fine, t) := passes p (laneSub l k) t
        if fine then back t else laneGone l k true t
      | none =>
        let (fine, t) := countsTransient lvPackage 28 (laneSub l k) 0x05 (bump reCountsTests 0 1 t)
        if fine then back (bump reCountsTransient 0 1 t) else laneGone l k true t

/-! ## Optical channels and lasers (R465) -/

/-- Payload channels of a die's stop on each ring (Table DD-3). -/
def stopChannels (d : Nat) : Nat := if d < 8 then 32 else if d < 26 then 16 else 24

def loamRing (s : State) (r : Nat) : LoamRing := tgetD s.loam.rings r {}
def ringMod (r : Nat) (f : LoamRing → LoamRing) (s : State) : State := { s with loam.rings := tmod s.loam.rings r {} f }
def chanKey (d ch : Nat) : Nat := d * 64 + ch

/-- A lasting record of a ring, its verdict given directly or settling a pending one of SELF_TEST. -/
def ringRec (r sub reason : Nat) (repaired : Bool) (detail : Nat) (s : State) : State :=
  writeErr { level := lvPackage, unit := 0x140 + r, subunit := sub, reason := reason, cls := 0x05, verdict := vLasting, repaired := repaired,
             detail := detail } none s

/-- OPTICAL_CHANNEL_ERROR: the channel is tested; one the stop does not have, or one that failed, is not. -/
def channelError (r d ch : Nat) (s : State) : State :=
  let k := chanKey d ch
  let x := loamRing s r
  if stopChannels d + 2 ≤ ch || x.failed.contains k || x.tests.contains k || !(getF s ddRingStatusStopUp r).testBit d ||
      flagSet s ddRingStatusLost r then s
  else ringMod r (fun y => { y with tests := y.tests ++ [k] }) s

/-- Channels of a die's stop on a ring that failed, its two spares counted. -/
def failedAt (s : State) (r d : Nat) : Nat := ((loamRing s r).failed.filter (fun k => k / 64 == d)).length

/-- A stop or a whole ring is lost: traffic is rerouted, and dies may have become unreachable. -/
def stopLost (r d : Nat) (s : State) : State :=
  reachCheck (ringRec r d 0x0A05 false (d * 256 + r)
    (setF ddRingStatusStopUp r (getF s ddRingStatusStopUp r &&& (2 ^ 28 - 1 - 2 ^ d)) s))

/-- OPTICAL_CHANNEL_TEST_DONE. -/
def channelTest (r d ch : Nat) (ok : Bool) (s : State) : State :=
  let k := chanKey d ch
  if !(loamRing s r).tests.contains k then s
  else
    let t := bump reCountsTests 0 1 (ringMod r (fun y => { y with tests := y.tests.filter (· != k) }) s)
    if ok then t
    else
      let t := raise flDdRingStatusChanFail r (ringMod r (fun y => { y with failed := setAdd y.failed k }) t)
      let n := failedAt t r d
      if n ≤ 2 then ringRec r d 0x0A04 true ch t
      else if stopChannels d + 2 ≤ n then stopLost r d t
      else t

/-- LASER_FAIL: the spare laser takes over, or the ring is lost. -/
def laserFail (r : Nat) (s : State) : State :=
  if flagSet s ddRingStatusLost r then s
  else if !flagSet s ddRingStatusOnSpare r then
    ringRec r 0xFFFF 0x0A04 true 0 (raise flDdRingStatusLaserSwap r (setF ddRingStatusOnSpare r 1 s))
  else reachCheck (ringRec r 0xFFFF 0x0A05 false 0 (setF ddRingStatusLost r 1 s))

/-- PHY_REF_LOST. -/
def phyLost (d : Nat) (s : State) : State := if d = 28 then s else leaveDie d 3 (setF ddDieStatusRefOk d 0 s)

/-! ## Test access (R475–R477) -/

/-- IDCODE of a TAP (Table DD-7): the module, the Loam, or a die. -/
def idcodeOf : TapId → Nat
  | .module => 0xA941694F
  | .loam => 0xA941094F
  | .die d => if d.val < 8 then 0xA941194F else if d.val < 24 then 0xA941294F else if d.val < 26 then 0xA941394F else 0xA941494F

/-- A die's TAP stands in the chain: selected, not fenced, and debug not locked (R475, R477). -/
def dieInChain (s : State) (d : Nat) : Bool := s.tap.selected.contains d && dieUp s d && !flagSet s ddStatusDebugLocked 0

/-- A test access is refused while debug is locked (R477). -/
def tapRefused (s : State) : State :=
  writeErr { level := lvPackage, unit := 28, reason := 0x0A30, cls := 0x04, verdict := vTransient } none (raise flDdStatusTestRefused 0 s)

/-- The instruction in force and what the TAP shifts out. -/
def tapLoad (ir out : Nat) (s : State) : State := { s with tap.ir := ir, tap.out := out, tap.idle := false }

/-- TAP_INSTRUCTION. EXTEST, INTEST and die-internal instructions outside test reset act as BYPASS, with 0x0A31. A die that
is not in the chain is not there to take an instruction. -/
def tapInstr (tap : TapId) (op : TapOp) (s : State) : State :=
  let test := fun (ir : Nat) =>
    if s.pins.testReset then tapLoad ir (freshVal s) (drawn s)
    else writeErr { level := lvPackage, unit := 28, reason := 0x0A31, cls := 0x04, verdict := vTransient } none (tapLoad 0 0 s)
  let there := match tap with | .die d => dieInChain s d.val | _ => true
  match op with
  | .select => match tap with
    | .die d =>
      if flagSet s ddStatusDebugLocked 0 then tapRefused s
      else if dieUp s d.val then { s with tap.selected := setAdd s.tap.selected d.val, tap.idle := false } else s
    | _ => s
  | _ =>
    if !there then s
    else match op with
    | .bypass => tapLoad 0 0 s
    | .idcode => tapLoad 1 (idcodeOf tap) s
    | .sample => tapLoad 2 (freshVal s) (drawn s)
    | .extest => test 3
    | .intest => test 4
    | _ => test 5

/-- TEST_RESET_ASSERT (R564): no handshake runs while the module is held in test reset. -/
def testReset (s : State) : State :=
  if s.pins.testReset then s
  else setF obStatusReady 0 0 { s with pins.testReset := true, tap.ready := flagSet s obStatusReady 0 }

/-- TEST_RESET_RELEASE. -/
def testRelease (s : State) : State :=
  if !s.pins.testReset then s
  else setF obStatusReady 0 (bit s.tap.ready) { s with pins.testReset := false, tap.ready := false }

/-- The TAP returns to Test-Logic-Reset: IDCODE in force, nothing selected. -/
def tapReset (s : State) : State := { s with tap.idle := true, tap.ir := 1, tap.selected := [] }

/-- SVC_CABLE_INSERT and SVC_CABLE_REMOVE (R566): any scan in progress ends. -/
def svcCable (present : Bool) (s : State) : State := if s.pins.service == present then s else tapReset { s with pins.service := present }

end Sys2Proof.Machine
end

