-- ==== Sys2Proof/Machine/Reliability.lean ====
section
/-! DEFINITION. Sys2Proof/Machine/Reliability.lean: targeted self-tests and repair of Tufts, Swards, Meadows and package
units, rails below their retention floor, control-processor faults, and the reliability commands (R35, R499–R516). -/
namespace Sys2Proof.Machine

/-! ## Repair (R506–R509) -/

/-- Named buffers of a Sward are lost, and its replicas ABSENT (R154, R233). -/
def swardLosesPool (sw : Nat) (s : State) : State :=
  { s with
    work.pool := s.work.pool.map (fun a => if a.sward == sw then { a with lost := true } else a)
    res.reps := s.res.reps.filter (fun e => e.1 / 65536 != sw) }

/-- A pending record of this number, or one that stands for it. -/
def pendingOf (s : State) (link level unit : Nat) : ErrRec :=
  (s.err.pend.find? (fun p => p.id == link)).getD { level := level, unit := unit, cls := 0x01 }

/-- A number that stands for no pending record. -/
def noLink : Nat := 65536
def linkOpt (l : Nat) : Option Nat := if l = noLink then none else some l

/-- A Sward unit is out of service (R509). -/
def swardOut (sw link reason : Nat) (s : State) : State :=
  let p := pendingOf s link lvSward sw
  let t := swardLosesPool sw { s with err.out := s.err.out ++ [{ level := lvSward, unit := sw }] }
  writeErr { p with level := lvSward, unit := sw, reason := reason, verdict := vLasting, out := true } (linkOpt link) t

/-- A Tuft is withdrawn with no repair left (R509). -/
def tuftWithdrawn (t link reason : Nat) (s : State) : State :=
  let p := pendingOf s link lvTuft t
  writeErr { p with level := lvTuft, unit := t, reason := reason, verdict := vLasting, out := true } (linkOpt link)
    (setF tuftCeilState t 3 { s with err.out := s.err.out ++ [{ level := lvTuft, unit := t }] })

/-- The Meadow's spare Sward is unused. -/
def spareFree (s : State) (m : Nat) : Bool := (getF s reStatusSpareSwards 0).testBit m

/-- The Sward level's repair (R508, R509): the logical Sward is remapped onto the spare, which is taken at once; with the
spare in use, the Tuft or the Sward goes out. `sub` is the failing Tuft, 0xFFFF for a Sward unit. -/
def swardRepair (sw sub link : Nat) (escalated : Bool) (s : State) : State :=
  let code := fun c => if escalated then 0x0A53 else c
  let m := sw / 16
  if spareFree s m then
    { setF reStatusSpareSwards 0 (getF s reStatusSpareSwards 0 - 2 ^ m) s with err.remaps := s.err.remaps ++ [(sw, sub, link, code 0x0A51)] }
  else if s.err.remaps.any (fun x => x.1 == sw) then s
  else if sub = 0xFFFF then swardOut sw link (code 0x0A52) s
  else tuftWithdrawn (8 * sw + sub) link (code 0x0A50) s

/-- Both weight sets of a Tuft become invalid (R103). -/
def dropSets (t : Nat) (s : State) : State := modTuft t (fun x => { x with mx := { x.mx with active := [], shadow := [], loading := [], loadQ := [] } }) s

/-- The exclusions of a row or a column of MX_REPAIR as (valid, index) fields. -/
def exclusions (col : Bool) : List (Field × Field) :=
  if col then [(mxRepairColExcl0V, mxRepairColExcl0), (mxRepairColExcl1V, mxRepairColExcl1)]
  else [(mxRepairRowExcl0V, mxRepairRowExcl0), (mxRepairRowExcl1V, mxRepairRowExcl1)]

/-- Exclude a physical row or column, none where both exclusions are used by others (R115). -/
def exclude (t : Nat) (x : Bool × Nat) (s : State) : Option State :=
  let es := exclusions x.1
  if es.any (fun e => flagSet s e.1 t && getF s e.2 t == x.2) then some s
  else (es.find? (fun e => !flagSet s e.1 t)).map (fun e => setF e.2 t x.2 (setF e.1 t 1 s))

def excludeAll (t : Nat) : List (Bool × Nat) → State → Option State
  | [], s => some s
  | x :: r, s => match exclude t x s with | some u => excludeAll t r u | none => none

/-- The Tuft's own repair: the stuck rows and columns, of the 66 there are, are excluded, and the known-answer test passes after
it. -/
def tuftRepair (t : Nat) (stuck : List (Bool × Nat)) (kat : Bool) (s : State) : Option State :=
  if stuck.isEmpty || !kat || stuck.any (fun x => decide (66 ≤ x.2)) then none else excludeAll t stuck s

/-- A Tuft's test ended. -/
def tuftVerdict (t : Nat) (p : ErrRec) (ok : Bool) (stuck : List (Bool × Nat)) (kat : Bool) (s : State) : State :=
  if ok then
    let (fine, u) := passes p 0 s
    if fine then dropSets t u else swardRepair (t / 8) (t % 8) p.link true u
  else
    let u := bump reCountsTests 0 1 s
    match tuftRepair t stuck kat u with
    | some v => lasting p p.reason p.detail true false (dropSets t v)
    | none => swardRepair (t / 8) (t % 8) p.link false u

/-- A unit of the package level whose test failed: a die leaves as its repair, a directory entry or another unit has none. -/
def packageRepair (p : ErrRec) (reason : Nat) (s : State) : State :=
  if p.unit < 28 ∧ p.reason ≠ 0x0522 then leaveDie p.unit 5 (lasting p reason p.detail false true s) else lasting p reason p.detail false false s

/-- The verdict of a test on the unit of pending record `p`. -/
def verdictOf (p : ErrRec) (ok : Bool) (stuck : List (Bool × Nat)) (kat : Bool) (s : State) : State :=
  if p.level = lvTuft then tuftVerdict p.unit p ok stuck kat s
  else
    let r := if ok then passes p 0 s else (false, bump reCountsTests 0 1 s)
    if r.1 then r.2
    else if p.level = lvSward then swardRepair p.unit 0xFFFF p.link ok r.2
    else if p.level = lvMeadow then leaveDie p.unit 5 (lasting p (if ok then 0x0A53 else p.reason) p.detail false true r.2)
    else packageRepair p (if ok then 0x0A53 else p.reason) r.2

/-! ## Targeted self-tests (R505, R512) -/

/-- Reasons of pending records that a unit's own controller tests (R505). -/
def ownTests : List Nat := [0x0510, 0x0511, 0x0514, 0x0A01]

/-- Who handles a unit (Table RE-1): Sward arbiters, region arbiters, the control processor for Meadows and for the package. -/
def handlerOf (level unit : Nat) : Nat × Nat :=
  if level = lvTuft then (0, unit / 8) else if level = lvSward then (1, unit / 16) else (2, 0)

/-- The first pending record that a handler has to test; one of a Sward that is being remapped is not tested. -/
def nextTest (s : State) (h : Nat × Nat) : Option ErrRec :=
  (pendingFaults s).find? (fun p => p.link == p.id && handlerOf p.level p.unit == h && !ownTests.contains p.reason &&
    !(p.level == lvTuft && s.err.remaps.any (fun x => x.1 == p.unit / 8)) && !(p.level == lvSward && s.err.remaps.any (fun x => x.1 == p.unit)))

/-- The lanes or channels that a field test of a link or a ring found failing (R478). -/
def fieldResults (unit sub : Nat) (stuck : List (Bool × Nat)) (s : State) : State :=
  if 0x100 ≤ unit ∧ unit < 0x129 then stuck.foldl (fun t x => laneGone (unit - 0x100) (laneKey x.1 x.2) false t) s
  else if 0x140 ≤ unit ∧ unit < 0x144 then stuck.foldl (fun t x =>
    let r := unit - 0x140
    channelTest r (sub % 28) x.2 false (ringMod r (fun y => { y with tests := setAdd y.tests (chanKey (sub % 28) x.2) }) t)) s
  else s

/-- The link that SELF_TEST names returns to electrical where it still works. -/
def fieldReturns (unit : Nat) (s : State) : State :=
  if 0x100 ≤ unit ∧ unit < 0x129 then
    let l := unit - 0x100
    if linkCarries s l && !(loamLink s l).degraded && (loamLink s l).tests.isEmpty then loamMod l (fun x => { x with move := some false }) s else s
  else s

/-- SELF_TEST commands on a unit end with the verdict record `id`. -/
def selfTestsEnd (level unit id verdict : Nat) (s : State) : State :=
  (s.err.selfTests.filter (fun x => x.2.1 == level && x.2.2.1 == unit)).foldl (fun t x => endById x.1 (endDone id verdict) t)
    { s with err.selfTests := s.err.selfTests.filter (fun x => !(x.2.1 == level && x.2.2.1 == unit)) }

/-- Which record a verdict just written is: the last one. -/
def verdictEnds (level unit : Nat) (before : State) (s : State) : State :=
  if s.err.nextId = before.err.nextId then s
  else
    let id := (s.err.nextId + 65535) % 65536
    let v := if getF s reCountsTransient 0 = getF before reCountsTransient 0 then vLasting else vTransient
    selfTestsEnd level unit id v s

/-- TARGETED_TEST_DONE (R505): the test of a unit that its handler has in turn: of a pending record, or of a SELF_TEST, whose
record carries no reason on a pass (log entry 35). -/
def targetedTest (level unit : Nat) (ok : Bool) (stuck : List (Bool × Nat)) (kat : Bool) (s : State) : State :=
  match nextTest s (handlerOf level unit) with
  | some p =>
    if p.level != level || p.unit != unit || !unitIdle s level unit then s
    else verdictEnds level unit s (verdictOf p ok stuck kat s)
  | none =>
    match s.err.selfTests.find? (fun x => handlerOf x.2.1 x.2.2.1 == handlerOf level unit) with
    | some x =>
      if x.2.1 != level || x.2.2.1 != unit || !unitIdle s level unit || !mayStartTest s level unit then s
      else
        let p : ErrRec := { level := level, unit := unit, subunit := x.2.2.2, cls := if level = lvPackage then 0x05 else 0x01, id := noLink, link := noLink }
        let e := fun (v : Nat) (rep out : Bool) (t : State) => writeErr { p with verdict := v, repaired := rep, out := out } none t
        let t := bump reCountsTests 0 1 s
        let u :=
          if ok then e vTransient false false (if level = lvTuft then dropSets unit t else t)
          else if level = lvTuft then
            (match tuftRepair unit stuck kat t with
            | some v => e vLasting true false (dropSets unit v)
            | none => swardRepair (unit / 8) (unit % 8) noLink false t)
          else if level = lvSward then swardRepair unit 0xFFFF noLink false t
          else if level = lvMeadow then leaveDie unit 5 (e vLasting false true t)
          else if unit < 28 then leaveDie unit 5 (e vLasting false true t)
          else e vLasting false false (fieldResults unit x.2.2.2 stuck t)
        verdictEnds level unit s (fieldReturns unit u)
    | none => s
where
  /-- A link is tested once its traffic has moved. -/
  mayStartTest (s : State) (level unit : Nat) : Bool :=
    !(level == lvPackage && decide (0x100 ≤ unit) && decide (unit < 0x129)) || (loamLink s (unit - 0x100)).optical

/-- A Sward is remapped: its pool and its units' marks go, its Tufts are idle at their fused ceilings, and every pending fault of
its Tufts ends as repaired (R508); `x` is the remap: Sward, Tuft or 0xFFFF, pending record, reason. -/
def swardRemapped (sw : Nat) (x : Nat × Nat × Nat × Nat) (s : State) : State :=
  let sub := x.2.1
  let p := pendingOf s x.2.2.1 lvSward sw
  let t := swardLosesPool sw { s with
    err.remaps := s.err.remaps.filter (fun y => y.1 != sw)
    err.swardPos := tput s.err.swardPos sw 16
    loam.fences := setDel s.loam.fences sw
    err.out := s.err.out.filter (fun o => !((o.level == lvTuft && o.unit / 8 == sw) || (o.level == lvSward && o.unit == sw))) }
  let t := (span (8 * sw) 8).foldl (fun t k => setRegRaw .mxRepair k 0 (setF tuftCeilCeil k (getF t tuftCeilFused k)
    (setF tuftCeilState k 1 (dropSets k { t with pw.flashCeil := tdel t.pw.flashCeil k, pw.dueCeil := tdel t.pw.dueCeil k })))) t
  let e : ErrRec := { p with level := lvSward, unit := sw, subunit := sub, reason := x.2.2.2, verdict := vLasting, repaired := true }
  let level := if sub = 0xFFFF then lvSward else lvTuft
  let unit := if sub = 0xFFFF then sw else 8 * sw + sub
  let u := verdictEnds level unit t (writeErr e (linkOpt x.2.2.1) t)
  let rest := (pendingFaults u).filter (fun q => q.link == q.id && q.level == lvTuft && q.unit / 8 == sw)
  rest.foldl (fun u q => verdictEnds lvTuft q.unit u (writeErr { q with
    level := lvSward, unit := sw, subunit := q.unit % 8, reason := 0x0A51, verdict := vLasting, repaired := true } (some q.link) u)) u

/-- SWARD_REMAP_DONE (R508, R512): once the tasks on the Sward have completed, it returns on the spare position. Its Tufts
start without repairs and without sets; pending records of its other Tufts get their verdict. -/
def remapDone (sw : Nat) (s : State) : State :=
  match s.err.remaps.find? (fun x => x.1 == sw) with
  | none => s
  | some x => if !(span (8 * sw) 8).all (fun t => (tuft s t).task.isNone) then s else swardRemapped sw x s

/-! ## Rails below their retention floor (R35, R468) -/

/-- Work that had reached a Sward fails: its tasks, and the copies of its engine (log entry 36). -/
def swardWorkFails (sw code : Nat) (s : State) : State :=
  let t := s.work.tasks.foldl (fun t r => if r.phase == .running && r.tuft0 / 8 == sw then abortTask r.id code t else t) s
  (t.copies.recs.filter (fun c => c.sward == sw)).foldl (fun t c =>
    match c.owner with
    | .unit _ _ _ _ => dropCopies (fun x => x.id == c.id) t
    | _ => copyEnds c.id code t) t

/-- The Sward fence closes (R468). Only its own engine reaches what lies behind it (R228), and that engine's work fails with it. -/
def fenceSward (sw : Nat) (s : State) : State := { s with loam.fences := setAdd s.loam.fences sw }

/-- A Sward's rail falls below its floor: fence, pending record, and the repair of a lasting Sward failure. A Sward that is being
remapped is fenced too, and its record waits for the remap; one that is out already gets its verdict at once (log entry 180). -/
def railSward (sw : Nat) (s : State) : State :=
  if !meadowUp s (sw / 16) then s
  else
    let id := s.err.nextId
    let e : ErrRec := { level := lvSward, unit := sw, reason := 0x0610, cls := 0x06, verdict := vPending }
    let t := swardWorkFails sw 0x0610 (writeErr e none (fenceSward sw s))
    if s.err.out.any (fun o => o.level == lvSward && o.unit == sw) then writeErr { e with verdict := vLasting, out := true } (some id) t
    else if s.err.remaps.any (fun x => x.1 == sw) then t
    else swardRepair sw 0xFFFF id false t

/-- A die's rail falls below its floor: the pending record, then the die leaves with cause 0x06, which gives the verdict. With
the Loam every fence closes, so that no die reaches the west I/O die any more: the package starts warm (R472, log entry 180). -/
def railDie (d : Nat) (s : State) : State :=
  let t := writeErr { level := lvPackage, unit := d, reason := 0x0610, cls := 0x06, verdict := vPending } none s
  if !dieUp s d then s else if d = 28 then westGone t else leaveDie d 6 t

/-- RAIL_BELOW_RETENTION. -/
def railLow (u : FedUnit) (s : State) : State :=
  match u with
  | .sward sw => railSward sw.val s
  | .die d => railDie d.val s

/-! ## Control processor faults (R511) -/

/-- CP_FAULT and CP_WATCHDOG_EXPIRE: READY clears; a second restart within 1 s begins a warm start. -/
def cpRestart (s : State) : State :=
  if s.ob.restarting || !flagSet s obStatusReady 0 then s
  else
    let now := cpTime s
    let again := match s.ob.lastRestart with | some t => decide (now - t < 1000000000) | none => false
    let t := { setF obStatusReady 0 0 s with ob.restarting := true, ob.lastRestart := some now }
    let t := writeErr { level := lvPackage, unit := 0x001A, reason := 0x0A55, cls := 0x09, verdict := vTransient } none t
    if again then packageStops 1 7 t else t

/-- What the control processor keeps of commands that ended by the restart. -/
def forgetCmds (ids : List Nat) (s : State) : State :=
  let t := { s with
    fab.colls := s.fab.colls.filter (fun c => !ids.contains c.cmd)
    fab.barrier := (match s.fab.barrier with | some b => if ids.contains b.cmd then none else some b | none => none)
    fab.ports := s.fab.ports.map (fun (e : Nat × FabPort) => (e.1, { e.2 with cmd := e.2.cmd.filter (fun c => !ids.contains c), pattern := e.2.pattern.filter (fun c => !ids.contains c) })) }
  let t := { t with
    net.posts := t.net.posts.filter (fun p => !ids.contains p.cmd)
    net.fetch := (match t.net.fetch with | some f => if ids.contains f.cmd then none else some f | none => none)
    net.groups := t.net.groups.map (fun (e : Nat × NetGroup) => (e.1, { e.2 with cmd := e.2.cmd.filter (fun c => !ids.contains c) })) }
  let t := { t with
    work.bufWait := t.work.bufWait.filter (fun x => !ids.contains x.1)
    coh.flips := t.coh.flips.filter (fun f => !ids.contains f.cmd)
    res.regions := t.res.regions.map (fun (e : Nat × ExpertRegion) => (e.1, { e.2 with closing := e.2.closing.filter (fun c => !ids.contains c.1) })) }
  let t := { t with
    err.selfTests := t.err.selfTests.filter (fun x => !ids.contains x.1), err.drains := t.err.drains.filter (fun x => !ids.contains x.1)
    mg.quiesce := t.mg.quiesce.filter (fun c => !ids.contains c) }
  match t.ob.destroying with
  | some c => if ids.contains c then { t with ob.destroying := none } else t
  | none => t

/-- A command outlives a restart of the control processor: not begun, a graph, or the INVALIDATE in progress (R511). -/
def outlives (s : State) (o : OpenCmd) : Bool :=
  !o.started || (graphGet s o.id).isSome ||
    (match s.xl.inval with | some r => (match r.cmd with | some c => c.1 == o.id | none => false) | none => false)

/-- CP_RESTART_DONE: an INVALIDATE in progress runs again from its first step, graphs resume, every other command that was
executing fails with 0x0A55. -/
def cpRestarted (s : State) : State :=
  if !s.ob.restarting || s.start.due.isSome then s
  else
    let t := match s.xl.inval with
      | some r => if r.cmd.isSome then { s with xl.inval := some { r with await := unitsUp s } } else s
      | none => s
    let t := prefetchStops (endFailed 0x0A55 0) t
    let ids := (t.ob.openCmds.filter (fun o => !outlives s o)).map (·.id)
    let t := forgetCmds ids t
    let t := ids.foldl (fun t i => endById i (endFailed 0x0A55 0) t) t
    raise flReStatusCpRestart 0 (setF obStatusReady 0 1 { t with ob.restarting := false })

/-! ## Commands (Table RE-10) -/

def teLevel (w : Nat) : Nat := bitsOf w 1 0
def teUnit (w : Nat) : Nat := bitsOf w 31 16
def teSub (w : Nat) : Nat := bitsOf w 47 32

/-- The package has the unit (R500, Table RE-3). -/
def unitExists (level unit : Nat) : Bool :=
  if level = lvTuft then decide (unit < 1024) else if level = lvSward then decide (unit < 128) else if level = lvMeadow then decide (unit < 8)
  else decide (unit ≤ 28) || (decide (0x100 ≤ unit) && decide (unit ≤ 0x128)) || (decide (0x140 ≤ unit) && decide (unit ≤ 0x143)) ||
    (decide (0x180 ≤ unit) && decide (unit ≤ 0x18F)) || (decide (0x1C0 ≤ unit) && decide (unit ≤ 0x1C3)) || unit == 0x1E0

/-- The unit is out of service. -/
def unitOut (s : State) (level unit : Nat) : Bool :=
  s.err.out.any (fun o => o.level == level && o.unit == unit) || !dieUp s (dieOfUnit level unit) ||
    (level == lvTuft && tuftOut s unit) || (level == lvSward && !swardUp s unit) ||
    (level == lvPackage && ((decide (0x100 ≤ unit) && decide (unit ≤ 0x128) && (!linkCarries s (unit - 0x100) || (loamLink s (unit - 0x100)).degraded)) ||
      (decide (0x140 ≤ unit) && decide (unit ≤ 0x143) && flagSet s ddRingStatusLost (unit - 0x140)) ||
      (decide (0x180 ≤ unit) && decide (unit ≤ 0x18F) && flagSet s tfPortStatusDisabled (unit - 0x180))))

/-- SELF_TEST (R514, R437, R478): a link's traffic moves to optical first. -/
def selfTestBody (oc : OpenCmd) (s : State) : Body :=
  let w := wordAt oc.words 1
  let level := teLevel w
  let unit := teUnit w
  if !unitExists level unit || unitOut s level unit then refuseBody 0x0A56 s
  else if level = lvPackage ∧ 0x180 ≤ unit ∧ unit ≤ 0x18F ∧ portInPart s (unit - 0x180) then refuseBody 0x0330 s
  else
    let t := if level = lvPackage ∧ 0x100 ≤ unit ∧ unit ≤ 0x128 then
        setF ddLinkStatusState (unit - 0x100) 1 (loamMod (unit - 0x100) (fun x => { x with move := if x.optical then x.move else some true }) s)
      else s
    .runs { t with err.selfTests := t.err.selfTests ++ [(oc.id, level, unit, teSub w)] }

/-- UNIT_CTRL (R514): a unit in service waits for its work and is withdrawn; a unit that software withdrew returns. -/
def unitCtrlBody (oc : OpenCmd) (s : State) : Body :=
  let w := wordAt oc.words 1
  let level := teLevel w
  let unit := teUnit w
  let mine := fun (o : OutUnit) => o.level == level && o.unit == unit
  if !unitExists level unit then refuseBody 0x0A56 s
  else if w.testBit 2 then
    match s.err.out.find? mine with
    | some o =>
      if !o.software then refuseBody 0x0A57 s
      else
        let t := { s with err.out := s.err.out.filter (fun o => !mine o) }
        .ends (endDone 0 0) (if level = lvTuft then setF tuftCeilState unit 1 t else t)
    | none => if unitOut s level unit then refuseBody 0x0A56 s else .ends (endDone 0 0) s
  else if unitOut s level unit then refuseBody 0x0A56 s
  else .runs (drainCheck { s with err.drains := s.err.drains ++ [(oc.id, level, unit)] })

def doUnitCtrl (back : Nat) (c : Cmd) (s : State) : State :=
  runWith (cmdOpcode c.words == 0x8A && wordBits c.words 1 2 2 == back) (fun _ => ownRecord c.door c.words) unitCtrlBody c s

/-- Reasons whose detecting rule names a unit and writes a pending record: level and class. -/
def injectable (reason : Nat) : Option (Nat × Nat) :=
  if [0x0430, 0x0431, 0x0458].contains reason then some (lvTuft, 0x01)
  else if reason = 0x0468 then some (lvTuft, 0x02)
  else if reason = 0x0574 then some (lvSward, 0x02)
  else if reason = 0x0576 then some (lvSward, 0x01)
  else if reason = 0x0510 then some (lvPackage, 0x03)
  else if [0x0511, 0x0514, 0x0522].contains reason then some (lvPackage, 0x02)
  else if reason = 0x0A01 then some (lvPackage, 0x05)
  else none

/-- The unit of an injected error is of the kind its detecting rule names. -/
def injectUnitOk (reason unit sub : Nat) : Bool :=
  if [0x0510, 0x0511, 0x0514, 0x0522].contains reason then decide (8 ≤ unit) && decide (unit < 24)
  else if reason = 0x0A01 then unit == 28 && decide (sub < 41)
  else true

/-- What the detecting rule does beside its record: a Tuft's task aborts, a Sward's copies end, a link moves, a flag is set. -/
def injectEffect (reason unit sub : Nat) (s : State) : State :=
  if [0x0430, 0x0431].contains reason then bumpSat mxCountsCheckErrs unit 1 (setF mxStatusCheckErr (4 * unit + (if (mxGet s unit).mode = 1 then sub % 4 else 0)) 1 (abortOn unit reason s))
  else if reason = 0x0458 then raise flVeStatusCheckErr unit (abortOn unit reason s)
  else if reason = 0x0468 then raise flTgStatusEccErr unit s
  else if reason = 0x0576 then raise flLmStatusCheckErr unit s
  else if reason = 0x0510 then raise flHayStatusCeThresh (unit - 8) s
  else if [0x0511, 0x0514].contains reason then raise flHayStatusUe (unit - 8) s
  else if reason = 0x0522 then raise flCoStatusDirErr (unit - 8) s
  else if reason = 0x0A01 then
    raise flDdLinkStatusLaneErr sub (setF ddLinkStatusState sub 1 (loamMod sub (fun x => { x with
      tests := x.tests ++ [laneKey false 0], move := if x.optical then x.move else some true }) s))
  else s

/-- ERR_INJECT (R514). -/
def injectBody (oc : OpenCmd) (s : State) : Body :=
  let w := wordAt oc.words 1
  let reason := wordBits oc.words 2 15 0
  let level := teLevel w
  let unit := teUnit w
  match injectable reason with
  | none => refuseBody 0x0A58 s
  | some (lv, cls) =>
    if flagSet s ddStatusDebugLocked 0 || lv != level || !unitExists level unit || unitOut s level unit || !injectUnitOk reason unit (teSub w) then
      refuseBody 0x0A58 s
    else
      let id := s.err.nextId
      let t := pendErr { level := level, unit := unit, subunit := teSub w, reason := reason, cls := cls, injected := true } s
      .ends (endDone id 0) (injectEffect reason unit (teSub w) t)

/-- START_RECORD_TIME_WRITE (R504). -/
def recordTime (s : State) : State := { s with start.lastTime := cpTime s }

end Sys2Proof.Machine
end

