-- ==== Sys2Proof/Machine/RegFile.lean ====
section
/-! DEFINITION. Sys2Proof/Machine/RegFile.lean: registers as software reads and writes them: the fields that mirror other
state, REG_WRITE under its mask, writes of HEAD, and the consistency checks of enable bits (R6, R353, R396, R405–R408). -/
namespace Sys2Proof.Machine

/-! ## Reads -/

/-- The highest-priority state of the light bar that applies (Table MG-3). -/
def lightOf (s : State) : Nat :=
  let panel := getF s mgStatusPanel 0
  if !s.elec.input then 0
  else if panel = 3 then 1
  else if panel = 1 ∨ panel = 2 then 2
  else if s.start.halted || s.pw.tripped then 3
  else if (List.range 26).any (fun d => !dieUp s d) || s.start.errorEnd then 4
  else if flagSet s obStatusReady 0 then 6 else 5

/-- Entries of a Sward's copy engine. -/
def swardEnts (s : State) (sw : Nat) : List CopyEnt := s.copies.ents.filter (fun e => (copyGet s e.copy).map (·.sward) == some sw)

/-- MX_STATUSq of a Tuft; in full and joined mode only that of quadrant 0 is live (R116). -/
def mxMirror (s : State) (u : Nat) : List (Field × Nat) :=
  let t := u / 4
  let q := u % 4
  let m := mxGet s t
  let tag := fun (w : WSet) => match w.key with | some (k :: _) => k | _ => 0
  let act := tgetD m.active q {}
  let sh := tgetD m.shadow q {}
  [(mxStatusShadowTag, tag sh), (mxStatusActiveTag, tag act), (mxStatusPoisonSet, bit act.poisoned),
   (mxStatusJoined, bit (joinedLead s t).isSome), (mxStatusMode, m.mode),
   (mxStatusShadowState, if (tget m.loading q).isSome then 1 else if sh.image.isSome then 2 else 0),
   (mxStatusActiveValid, bit act.image.isSome), (mxStatusQueue, (m.queue.filter (fun o => mxKey o.d == q)).length)]

/-- Fields of a register that hold what other state says. -/
def mirror (s : State) (r : Reg) (u : Nat) : List (Field × Nat) :=
  match r with
  | .obStatus => [(obStatusGraphs, s.work.graphs.length), (obStatusOpen, s.ob.openCmds.length),
      (obStatusDegraded, bit ((List.range 26).any (fun d => !dieUp s d)))]
  | .atStatus => [(atStatusOpenFaults, openFaults s), (atStatusEn, getF s atCtrlEn 0)]
  | .mxStatus => mxMirror s u
  | .stileStatus => [(stileStatusQueue, ((tgetD s.stile.queue u []).filter (fun i => !i.started)).length)]
  | .veStatus =>
    let v := (tuft s u).ve
    let here := fun (c : VeChain) => match v.buf with | some b => b.1 == c.ord | none => false
    let waits := match v.running with
      | some c => veSrcMx c.desc.toNat && decide (c.rows.length < veM c.desc.toNat) && !here c
      | none => false
    [(veStatusRunning, bit v.running.isSome), (veStatusWaitMx, bit waits), (veStatusQueue, v.queue.length)]
  | .tgStatus =>
    let gs := (tuft s u).groups.map (·.2)
    let stalled := fun (g : Group) => g.paths.any (fun p => p.park == .fault)
    [(tgStatusParked, (gs.filter (fun g => !stalled g && !g.paths.any runnable)).length),
     (tgStatusReady, (gs.filter (fun g => !stalled g && g.paths.any runnable)).length), (tgStatusResident, gs.length)]
  | .hayStatus => [(hayStatusLocked, popCount (hayGet s u).lockedWays 16)]
  | .coStatus => [(coStatusMode, getF s coCtrlMode 0)]
  | .lmStatus =>
    let es := swardEnts s u
    let scan := poolScan s u
    [(lmStatusPoolFree, scan.1), (lmStatusPoolLargest, scan.2), (lmStatusRunning, (es.filter (·.moving)).length),
     (lmStatusGated, (es.filter (entWaits s)).length), (lmStatusQueued, (es.filter (fun e => !e.moving)).length)]
  | .swardPw => [(swardPwGated, ((span (8 * u) 8).filter (fun t => getF s tuftCeilState t == 2)).length)]
  | .ddLinkStatus => [(ddLinkStatusDieA, (linkEnds u).1), (ddLinkStatusDieB, (linkEnds u).2)]
  | .reStatus => [(reStatusPending, s.err.pend.length), (reStatusTestBusy, bit (!(pendingFaults s).isEmpty || !s.err.selfTests.isEmpty))]
  | .sbStatus => [(sbStatusDebugLocked, getF s ddStatusDebugLocked 0)]
  | .mgStatus => [(mgStatusLight, lightOf s), (mgStatusLatchOpen, bit s.pins.latchOpen), (mgStatusButtonHeld, bit s.pins.buttonHeld)]
  | _ => []

/-- Bits of the fields that `f` picks. -/
def fieldMask (r : Reg) (f : Field → Bool) : Nat :=
  ((regFields r).filter f).foldl (fun m x => m ||| ((2 ^ (x.hi + 1 - x.lo) - 1) * 2 ^ x.lo)) 0

/-- A value without the bits of a mask. -/
def without (v m : Nat) : Nat := v - (v &&& m)

/-- A register as software reads it; WO fields read zero (Table SC-2). -/
def regRead (s : State) (r : Reg) (u : Nat) : Nat :=
  if r = .mxStatus ∧ u % 4 ≠ 0 ∧ (mxGet s (u / 4)).mode ≠ 1 then 0
  else without ((mirror s r u).foldl (fun v f => withBits v f.1.hi f.1.lo f.2) (regRaw s r u)) (fieldMask r (fun x => x.acc == .wo))

/-- What a read leaves of a register: its RC fields are cleared (Table SC-2). -/
def readClears (r : Reg) (u : Nat) (s : State) : State :=
  let m := fieldMask r (fun x => x.acc == .rc)
  if m = 0 then s else setRegRaw r u (without (regRaw s r u) m) s

/-! ## Writes of HEAD (R329, R396, R409) -/

/-- A HEAD write that would pass TAIL: counts modulo `m`. -/
def pastTail (m new head tail : Nat) : Bool := decide ((tail + m - head) % m < (new + m - head) % m)

/-- HEAD of a completion queue: it frees records, answers the interrupt, and commands that wait may be accepted. -/
def cqHead (q v : Nat) (s : State) : State :=
  if pastTail 65536 v (getF s cqStateHead q) (getF s cqStateTail q) then raise flObStatusHeadErr 0 s
  else setF cqStateHead q v { s with ob.cq := tmod s.ob.cq q {} (fun k => { k with irqOut := false }) }

/-- HEAD of the event queue: held records follow. -/
def eqHead (v : Nat) (s : State) : State :=
  if pastTail 65536 v (getF s eqStateHead 0) (getF s eqStateTail 0) then raise flObStatusHeadErr 0 s
  else eqFlush 258 (setF eqStateHead 0 v { s with ob.eq := { s.ob.eq with irqOut := false } })

/-- HEAD of the fault queue: faults that wait for space follow. -/
def fqHead (v : Nat) (s : State) : State :=
  if pastTail 8192 v (getF s atFqPtrHead 0) (getF s atFqPtrTail 0) then raise flObStatusHeadErr 0 s
  else
    let t := setF atFqPtrHead 0 v { s with xl.irqOut := false, xl.ovfOut := false }
    fqDrain (t.xl.fqWait.length + 1) t

/-! ## Consistency checks (R353, R368, R407) -/

/-- EV_ROUTE check: 0x0190. -/
def evRouteBad (s : State) (v : Nat) : Bool :=
  decide (95 < bitsOf v 16 10) || bitsOf v 27 17 == 0 || decide (255 < bitsOf v 27 17) ||
    (v.testBit 28 && (decide (95 < bitsOf v 36 30) || bitsOf v 47 37 == 0 || decide (255 < bitsOf v 47 37))) ||
    (v.testBit 8 && selfHosted s)

/-- Fields of EV_ROUTE that the check covers: all but PEND and EN. -/
def evRouteCovered (v : Nat) : Nat := bitsOf v 47 8

def evRouteCode (s : State) (old new : Nat) : Option Nat :=
  failIf (new.testBit 0 && (!old.testBit 0 || evRouteCovered old != evRouteCovered new) && evRouteBad s new) 0x0190

def inwinCode (old new : Nat) : Option Nat :=
  failIf (new.testBit 63 && (!old.testBit 63 || bitsOf old 62 21 != bitsOf new 62 21) &&
    (decide (bitsOf new 62 42 < bitsOf new 41 21) || decide (0x17FFFF < bitsOf new 62 42))) 0x0834

/-! ## REG_WRITE (R6, R406) -/

/-- FW fields that software may request (R406). -/
def requestable (x : Field) : Bool := x.reg == .hayCtrl || x == coCtrlTimeoutUs || x == atCtrlFqWatchdogMs || x == atCtrlPfEn

/-- Reserved bits of a register are RO, but in the registers whose reserved bits the spec marks RW. -/
def reservedRw (r : Reg) : Nat :=
  match r with
  | .obCtrl => 0xFFFFFFFFFFFF0000
  | .evRoute => 0xFFFE0000000000FE
  | .hlRpInwin => 0x1FFFFF
  | .mgCtrl => 0xFFFF00FC
  | _ => 0

/-- Bits that a REG_WRITE may carry without setting FW_WRITE. -/
def writable (r : Reg) : Nat := fieldMask r (fun x => x.acc == .rw || x.acc == .w1c || x.acc == .w1s || x.acc == .wo || requestable x) ||| reservedRw r


/-- The value that RW, WO and requestable fields of a register take under a mask. -/
def merged (r : Reg) (old v mask : Nat) : Nat :=
  let m := mask &&& fieldMask r (fun x => x.acc == .rw || x.acc == .wo || requestable x)
  without old m ||| (v &&& m)

/-- Checks of the owning chapters on a register's whole new value. -/
def writeCodes (s : State) (r : Reg) (u old new v mask : Nat) : List (Option Nat) :=
  let asks := mask &&& fieldMask r requestable != 0
  match r with
  | .evRoute => [evRouteCode s old new]
  | .hlRpInwin => [inwinCode old new]
  | .obCtrl => [failIf (bitsOf new 15 0 == 0) 0x010A]
  | .mgCtrl => [failIf (bitsOf new 15 8 == 0) 0x0A64]
  | .hayCtrl => if asks then [hayCtrlCheck u new s] else []
  | .coCtrl => [failIf ((asks && bitsOf new 15 8 == 0) || (mask.testBit 0 && v.testBit 0 != old.testBit 0)) 0x0526]
  | .atCtrl => [failIf (asks && bitsOf new 11 2 == 0) 0x0218]
  | _ => []

/-- A write that passed its checks: merged value, W1C bits cleared, W1S bits set, HEADs, and what the register drives. -/
def regApply (r : Reg) (u v mask : Nat) (s : State) : State :=
  let old := regRaw s r u
  let new := merged r old v mask
  let headBits := fun (f : Field) => bitsOf (without old mask ||| (v &&& mask)) f.hi f.lo
  let asksHead := fun (f : Field) => bitsOf mask f.hi f.lo != 0
  match r with
  | .cqState => if asksHead cqStateHead then cqHead u (headBits cqStateHead) s else s
  | .eqState => if asksHead eqStateHead then eqHead (headBits eqStateHead) s else s
  | .atFqPtr => if asksHead atFqPtrHead then fqHead (headBits atFqPtrHead) s else s
  | .hayCtrl => if mask &&& fieldMask r requestable != 0 then hayCtrlApply u new s else s
  | .evRoute => retryHeld (setRegRaw r u new s)
  | _ =>
    let asked := fun (k : Access) => v &&& mask &&& fieldMask r (fun x => x.acc == k)
    setRegRaw r u (without new (asked .w1c) ||| asked .w1s) s

/-- REG_WRITE of a register: a check's code, or the state after it (R406). FW_WRITE, which a write may clear and set in one step,
stays set (R6). -/
def regWriteGo (r : Reg) (u v mask : Nat) (s : State) : Except Nat State :=
  let m := mask % 2 ^ min 64 (regWidth r)
  let old := regRaw s r u
  let c := lowest (writeCodes s r u old (merged r old v m) v m)
  if c != 0 then .error c
  else
    let t := regApply r u v m s
    .ok (if without m (writable r) != 0 then raise flObStatusFwWrite 0 t else t)

/-- The register that a REG_ID and UNIT name (Table CF-11). -/
def regNamed (id u : Nat) : Option Reg := (regOfId id).filter (fun r => decide (u < regUnits r))

end Sys2Proof.Machine
end

