-- ==== Sys2Proof/Machine/Obiolo.lean ====
section
/-! DEFINITION. Sys2Proof/Machine/Obiolo.lean: the commands of Table CF-6 that no other file owns: queries, queue configuration,
registers, configuration items, jobs, graphs, sequences, named buffers, regions and the cores (R398–R407). -/
namespace Sys2Proof.Machine

/-! ## Queries, registers, configuration items -/

def nopBody (_ : OpenCmd) (s : State) : Body := .ends (endDone 0 0) s

def queryBody (_ : OpenCmd) (s : State) : Body := .ends (endDone (regRead s .obId 0) (cpTime s)) s

/-- REG_ID and UNIT of word 1. -/
def regOfWord (ws : List W64) : Option Reg := regNamed (wordBits ws 1 15 0) (wordBits ws 1 31 16)

def endReg (s : State) (r : Reg) (u : Nat) : CmdEnd := endDone (regRead s r u % 2 ^ 64) (regRead s r u >>> 64)

/-- A refusal that reports the register it left as it was: Table CF-6 gives RESULT0 for every ending (DEDUCED, log entry 42). -/
def refuseShowing (code : Nat) (r : Reg) (u : Nat) (s : State) : Body :=
  .ends { endReg s r u with status := 1, reason := code } s

/-- A body of checks whose refusal reports a register. -/
def checkedShowing (codes : List (Option Nat)) (r : Reg) (u : Nat) (s : State) (go : Body) : Body :=
  let c := lowest codes
  if c != 0 then refuseShowing c r u s else go

def regReadBody (oc : OpenCmd) (s : State) : Body :=
  match regOfWord oc.words with
  | none => refuseBody 0x0109 s
  | some r => .ends (endReg s r (wordBits oc.words 1 31 16)) (readClears r (wordBits oc.words 1 31 16) s)

def regWriteBody (oc : OpenCmd) (s : State) : Body :=
  let u := wordBits oc.words 1 31 16
  match regOfWord oc.words with
  | none => refuseBody 0x0109 s
  | some r =>
    match regWriteGo r u (wordAt oc.words 2) (wordAt oc.words 3) s with
    | .error c => refuseShowing c r u s
    | .ok t => .ends (endReg t r u) t

/-- REG_WRITE, where it names register `r`; of another register it is not this row's. -/
def doRegWriteOf (r : Reg) (c : Cmd) (s : State) : State :=
  runWith (cmdOpcode c.words == 0x09 && wordBits c.words 1 15 0 == regId r) (fun _ => ownRecord c.door c.words) regWriteBody c s

/-- The configuration items with their defaults (Tables SB-2, HL-2, R16, R420). -/
def cfgItems : List (Nat × Nat) := [(0x0301, 8), (0x0520, 0), (0x0801, 0)]

def cfgValue (s : State) (k : Nat) : Option Nat := (cfgItems.find? (fun e => e.1 == k)).map (fun e => tgetD s.start.cfg k e.2)

def cfgReadBody (oc : OpenCmd) (s : State) : Body :=
  match cfgValue s (wordBits oc.words 1 15 0) with
  | none => refuseBody 0x0109 s
  | some v => .ends (endDone v 0) s

/-- The code of a reserved value of a configuration item. -/
def cfgCode (k v : Nat) : Option Nat :=
  if k = 0x0301 then failIf (8 < v) 0x0308
  else if k = 0x0520 then failIf (1 < v) 0x0526
  else failIf (v &&& (allBits - 0x73) != 0 || 1 < bitsOf v 1 0 || 3 < bitsOf v 6 4) 0x0801

/-- A command that must wait is accepted and not started. -/
def waits (oc : OpenCmd) (s : State) : Body := .runs (notYet oc.id s)

/-- CFG_WRITE begins a flash write; it ends with it. -/
def cfgWriteBody (oc : OpenCmd) (s : State) : Body :=
  let k := wordBits oc.words 1 15 0
  let v := wordAt oc.words 2
  match cfgValue s k with
  | none => refuseBody 0x0109 s
  | some _ =>
    match cfgCode k v with
    | some c => refuseBody c s
    | none => if s.sec.writing.isSome then waits oc s else .runs { s with sec.writing := some (.config oc.id k v) }

/-! ## Queue configuration (R407) -/

/-- Rings of enabled queues: (kind 0 SQ, 1 CQ, 2 EQ; number; base; bytes). -/
def rings (s : State) : List (Nat × Nat × Nat × Nat) :=
  (s.ob.sq.filter (fun e => getF s sqStateState e.1 != 0)).map (fun e => (0, e.1, e.2.base, 64 * 2 ^ getF s sqStateDepthLog2 e.1)) ++
  (s.ob.cq.filter (fun e => flagSet s cqStateEn e.1)).map (fun e => (1, e.1, e.2.base, 32 * 2 ^ getF s cqStateDepthLog2 e.1)) ++
  (if flagSet s eqStateEn 0 then [(2, 0, s.ob.eq.base, 64 * 2 ^ getF s eqStateDepthLog2 0)] else [])

/-- The check that enabling a queue runs: 0x0106 on base, depth and memory, 0x0107 on overlaps. -/
def ringCodes (s : State) (kind q base depth entry : Nat) : List (Option Nat) :=
  let n := entry * 2 ^ depth
  let meets := fun (b m : Nat) => rangesMeet base n b m
  [failIf (depth < 6 || 15 < depth || base % n != 0 || base % 4096 != 0 || !(isDevMem base n || (!selfHosted s && isHostWin base n))) 0x0106,
   failIf ((rings s).any (fun r => (r.1 != kind || r.2.1 != q) && meets r.2.2.1 r.2.2.2) ||
     (jobExists s && (meets s.xl.area s.xl.areaBytes || meets (getF s atFqBaseBase 0 * 131072) 131072)) ||
     (biasOn s && meets (biasTable s) 0x3000000)) 0x0107]

/-- Zero device memory, dropping every cached copy of a line with no transaction open on it. -/
def scrubRange (a n : Nat) (s : State) : State :=
  let hit := fun (line : Nat) => decide (a < 128 * line + 128) && decide (128 * line < a + n) && !lineOpen s line
  zeroMem a n { s with
    coh.lines := s.coh.lines.filter (fun e => !hit (e.1 % 2 ^ 34))
    coh.dir := s.coh.dir.filter (fun e => e.2.st == 0 || !hit (lineOfEntry e.1 e.2)) }

/-- Zero a range of device memory or of the host-link window. -/
def zeroPhys (a n : Nat) (s : State) : State := if isDevMem a n then scrubRange a n s else cpWrite a n 0 s

def sqConfigBody (oc : OpenCmd) (s : State) : Body :=
  let base := wordAt oc.words 1
  let q := wordBits oc.words 2 7 0
  let d := wordBits oc.words 2 11 8
  let prio := wordBits oc.words 2 13 12
  let en := wordBits oc.words 2 16 16 == 1
  let head := wordBits oc.words 3 15 0
  let st := getF s sqStateState q
  let k := tgetD s.ob.sq q {}
  let done := fun (t : State) => Body.ends (endDone (regRead t .sqState q) 0) t
  let put := fun (x : SubQ) (t : State) => { t with ob.sq := tput t.ob.sq q x }
  if st = 0 then
    if !en then done (setF sqStateDepthLog2 q d (setF sqStatePrio q prio (put { k with base := base } s)))
    else checkedShowing (ringCodes s 0 q base d 64) .sqState q s
      (done (setF sqStateState q 1 (setF sqStateTail q head (setF sqStateHead q head (setF sqStateDepthLog2 q d
        (setF sqStatePrio q prio (put { base := base } s)))))))
  else if !en then done (setF sqStateState q 0 (put { base := k.base } s))
  else if base != k.base || d != getF s sqStateDepthLog2 q then refuseShowing 0x0108 .sqState q s
  else if st = 2 then
    let tail := getF s sqStateTail q
    let keep := decide ((tail + 65536 - head) % 65536 ≤ 2 ^ d)
    done (setF sqStateState q 1 (setF sqStateTail q (if keep then tail else head) (setF sqStateHead q head
      (setF sqStatePrio q prio (put { base := k.base } s)))))
  else done (setF sqStatePrio q prio s)

/-- Enable a completion queue, or restart one that R381 stopped: the ring is zeroed and counts from 0 (R395, R413). -/
def cqStart (q base d : Nat) (s : State) : State :=
  let k := tgetD s.ob.cq q {}
  setF cqStateEn q 1 (setF cqStateStopped q 0 (setF cqStateTail q 0 (setF cqStateHead q 0 (setF cqStateDepthLog2 q d
    (zeroPhys base (32 * 2 ^ d) { s with ob.cq := tput s.ob.cq q { k with base := base, irqOut := false } })))))

def cqConfigBody (oc : OpenCmd) (s : State) : Body :=
  let base := wordAt oc.words 1
  let q := wordBits oc.words 2 5 0
  let d := wordBits oc.words 2 11 8
  let en := wordBits oc.words 2 16 16 == 1
  let k := tgetD s.ob.cq q {}
  let done := fun (t : State) => Body.ends (endDone (regRead t .cqState q) 0) t
  if !flagSet s cqStateEn q then
    if !en then done (setF cqStateDepthLog2 q d { s with ob.cq := tput s.ob.cq q { k with base := base } })
    else checkedShowing (ringCodes s 1 q base d 32) .cqState q s (done (cqStart q base d s))
  else if !en then
    if k.resv != 0 then refuseShowing 0x0108 .cqState q s else done (setF cqStateEn q 0 (setF cqStateStopped q 0 s))
  else if base != k.base || d != getF s cqStateDepthLog2 q then refuseShowing 0x0108 .cqState q s
  else done (if flagSet s cqStateStopped q then cqStart q base d s else s)

/-- Enable the event queue, or restart it after R381; held records follow. -/
def eqStart (base d : Nat) (s : State) : State :=
  eqFlush 258 (setF eqStateEn 0 1 (setF eqStateStopped 0 0 (setF eqStateTail 0 0 (setF eqStateHead 0 0 (setF eqStateDepthLog2 0 d
    (zeroPhys base (64 * 2 ^ d) { s with ob.eq := { base := base } }))))))

def eqConfigBody (oc : OpenCmd) (s : State) : Body :=
  let base := wordAt oc.words 1
  let d := wordBits oc.words 2 11 8
  let en := wordBits oc.words 2 16 16 == 1
  let done := fun (t : State) => Body.ends (endDone (regRead t .eqState 0) 0) t
  if !flagSet s eqStateEn 0 then
    if !en then done (setF eqStateDepthLog2 0 d { s with ob.eq := { s.ob.eq with base := base } })
    else checkedShowing (ringCodes s 2 0 base d 64) .eqState 0 s (done (eqStart base d s))
  else if !en then done (setF eqStateEn 0 0 (setF eqStateStopped 0 0 s))
  else if base != s.ob.eq.base || d != getF s eqStateDepthLog2 0 then refuseShowing 0x0108 .eqState 0 s
  else done (if flagSet s eqStateStopped 0 then eqStart base d s else s)

/-! ## JOB_CREATE (R400, R530) -/

/-- Fields that hardware zeroes at job creation in registers of which it zeroes only some (R284, R290, R339). -/
def jobFields : List (Field × Nat) :=
  [(hayCountsHits, 16), (hayCountsMisses, 16), (hayCountsPfIssued, 16), (coCountsNacks, 16), (coCountsPended, 16),
   (coCountsRecalls, 16), (coCountsStale, 16), (coCountsAutoFlips, 16), (atStatusFqOverflows, 1), (atFqPtrTail, 1), (atFqPtrHead, 1)]

/-- Registers that hardware zeroes at job creation. -/
def jobRegs : List Reg :=
  [.arithFlags, .arithCounts, .mxCounts, .stileStatus, .stileCounts, .veCounts, .tgCounts, .lmCounts, .tsCounts, .atCounts]

/-- Every Tuft store reads zero (R226). -/
def zeroStores (s : State) : State := zeroMem (storeKey 0 0) (1024 * 0x80000) s

/-- Arrival counters and weight sets of every Tuft. -/
def clearTufts (s : State) : State :=
  { s with tufts := s.tufts.map (fun e => (e.1, { e.2 with arv := [], mx := { e.2.mx with active := [], shadow := [] } })) }

/-- What a job zeroes when it is created. -/
def jobZero (s : State) : State :=
  let t := jobRegs.foldl (fun t r => zeroReg r t) s
  let t := jobFields.foldl (fun t f => (List.range f.2).foldl (fun t u => setF f.1 u 0 t) t) t
  clearTufts (zeroStores { t with work.seqs := [], pw.phases := [] })

def areaBad (base n fq : Nat) : Bool :=
  base % 65536 != 0 || n < 65536 || !isDevMem base n || fq % 131072 != 0 || !(isDevMem fq 131072 || isHostWin fq 131072) ||
    rangesMeet fq 131072 base n

/-- What JOB_CREATE makes: device memory scrubbed where a job's data may remain, the job's pages and its root table, its
arithmetic word; the root's address comes first (R400, R331, R537). -/
def jobMade (ws : List W64) (s : State) : Nat × State :=
  let w := wordAt ws
  let jobId := wordBits ws 6 31 0
  let scrub := flagSet s sbStatusScrubPending 0 && s.start.lastJob != some jobId
  let t := if scrub then setF sbStatusScrubPending 0 0 (scrubRange 0 devMemEnd { s with start.scrubDue := false }) else s
  let t := jobZero t
  let job : JobRec := { seed := w 1, arith := w 2, jobId := jobId, rank := wordBits ws 6 43 32, areaBase := w 3, areaBytes := w 4, fqBase := w 5 }
  let xl : AtState := { area := w 3, areaBytes := w 4, nextFault := t.xl.nextFault }
  let t := zeroPhys (w 5) 131072 { t with ob.job := job, xl := xl, start.lastJob := some jobId }
  let (root, t) := takePage t
  let t := setF atFqBaseBase 0 (w 5 / 131072) (setF atCtrlRoot 0 (root / 4096) (setF atCtrlEn 0 1 t))
  (root, setF obStatusJob 0 1 t)

/-- The checks of JOB_CREATE (R400). -/
def jobCodes (ws : List W64) (s : State) : List (Option Nat) :=
  failIf (jobExists s) 0x0103 :: failIf (areaBad (wordAt ws 3) (wordAt ws 4) (wordAt ws 5)) 0x021B :: arithChecks (wordAt ws 2)

/-- JOB_CREATE (R400). -/
def jobCreateBody (oc : OpenCmd) (s : State) : Body :=
  checked (jobCodes oc.words s) s (.ends (endDone (jobMade oc.words s).1 0) (jobMade oc.words s).2)

/-! ## The end of a job (R401, R424, R544) -/

/-- A copy has not started: none of its entries is in the queue, or its first one has not begun to move. -/
def copyIdle (s : State) (c : CopyRec) : Bool := !c.queued || s.copies.ents.any (fun e => e.copy == c.id && e.first && !e.moving)

/-- A node that was handed over to an engine and has not started there is taken back; none where it runs (R403). -/
def takeBack (g n : Nat) (y : NodeRec) (s : State) : Option State :=
  if y.kind = 1 then
    match s.copies.recs.find? (fun c => c.owner == .node g n) with
    | some c => if copyIdle s c then some (creditFree c.sward c.sub (dropCopies (fun x => x.id == c.id) s)) else none
    | none => none
  else if y.kind = 2 then
    if (invQueue s y.meadow).any (fun i => i.owner == .node g n && !i.started) then
      some (setInvQueue y.meadow ((invQueue s y.meadow).filter (fun i => i.owner != .node g n)) s)
    else none
  else none

/-- End as cancelled the nodes that `f` picks and that have not started: not handed over, waiting in an engine's queue, or a task
that waits (R403). -/
def cancelNodes (g code : Nat) (f : NodeRec → Bool) (s : State) : Nat × State :=
  match graphGet s g with
  | none => (0, s)
  | some x =>
    let r := (List.range x.nodes.length).foldl (fun (acc : Nat × State) n =>
      match nodeGet acc.2 g n with
      | some y =>
        if !f y then acc
        else if y.st == .blocked || y.st == .ready || y.st == .doomed then (acc.1 + 1, nodeEnds g n 3 code 0 0 acc.2)
        else if y.st == .going then (match takeBack g n y acc.2 with | some t => (acc.1 + 1, nodeEnds g n 3 code 0 0 t) | none => acc)
        else acc
      | none => acc) (0, s)
    let ts := r.2.work.tasks.filter (fun k => k.graph == g && k.phase == .waiting &&
      (match nodeGet r.2 g k.node with | some y => f y | none => false))
    (r.1 + ts.length, graphCheck g (sweepDoomed g (ts.foldl (fun t k => finishTask k 3 code t) r.2)))

/-- Cancel a graph: nodes not yet started complete as cancelled. -/
def cancelGraph (code : Nat) (s : State) (g : Nat) : State :=
  (cancelNodes g code (fun _ => true) (graphMod g (fun x => { x with cancelled := code }) s)).2

/-- Steps 1 to 3 of JOB_DESTROY: graphs cancelled, tasks aborted, a running PREFETCH and IMAGE_FETCH stopped; waiting buffers,
and graphs and regions not yet begun, cancelled. -/
def jobStop (s : State) : State :=
  let t := (s.work.graphs.map (·.id)).foldl (cancelGraph 0x010F) s
  let t := ((t.work.tasks.filter (fun r => r.phase == .running)).map (·.id)).foldl (fun t i => abortTask i 0x010F t) t
  let t := fetchCancel (prefetchStops (endCancelled 0x010F) t)
  let t := t.work.bufWait.foldl (fun t e => endById e.1 (endCancelled 0x010F) t) { t with work.bufWait := [] }
  let before := fun (o : OpenCmd) => match s.ob.destroying with | some d => decide (o.id < d) | none => true
  ((t.ob.openCmds.filter (fun o => !o.started && before o && (cmdOpcode o.words == 0x18 || cmdOpcode o.words == 0x24))).map (·.id)).foldl (fun t i => endById i (endCancelled 0x010F) t) t

/-- Nothing of the job runs but the command numbered `by` and later ones. -/
def jobQuiet (s : State) (by_ : Nat) : Bool :=
  s.work.graphs.isEmpty && s.work.tasks.isEmpty &&
    !s.ob.openCmds.any (fun o => o.id < by_ && (match cmdShape (cmdOpcode o.words) with | some sh => sh.job | none => false))

/-- Leaves of the job in device memory as (base, bytes). -/
def jobPages (s : State) : List (Nat × Nat) :=
  ((leavesIn s 0 (2 ^ 57)).map (fun l => (entPa l.e, pageSize l.level))).filter (fun p => isDevMem p.1 p.2)

/-- Steps 4 to 7: what the job held is given up. `stores` and `scrub` are the parts of step 5. -/
def jobTeardown (stores scrub : Bool) (s : State) : State :=
  let t := (s.res.regions.map (·.1)).foldl (fun t g => clearRegion g t) s
  let t := regionFlags { t with res := {}, work.seqs := [], work.pool := [], work.swardBars := [], stile.lists := [], stile.counts := [] }
  let t := if stores then zeroStores t else t
  let t := if scrub then scrubRange t.ob.job.areaBase t.ob.job.areaBytes (zeroPhys t.ob.job.fqBase 131072
    ((jobPages t).foldl (fun t p => scrubRange p.1 p.2 t) t)) else t
  let t := netJobEnds (partDestroy t)
  setF atCtrlEn 0 0 (setF obStatusJob 0 0 { t with ob.job := {}, xl := { nextFault := t.xl.nextFault } })

def jobDestroyBody (oc : OpenCmd) (s : State) : Body :=
  if s.ob.destroying.isSome then refuseBody 0x0102 s else .runs (jobStop { s with ob.destroying := some oc.id })

/-- JOB_DESTROY ends once nothing of the job runs. Log entry 162. -/
def destroyCheck (s : State) : State :=
  match s.ob.destroying with
  | none => s
  | some id =>
    if !jobQuiet s id then s
    else match s.ob.openCmds.find? (fun o => o.id == id) with
      | none => { s with ob.destroying := none }
      | some oc =>
        let scrub := wordBits oc.words 1 0 0 == 1
        let pages := if scrub then (jobPages s).length else 0
        endById id (endDone pages 0) (jobTeardown true scrub { s with ob.destroying := none })

/-! ## Graphs (R402, R403) -/

/-- Read `n` bytes of job memory as the control processor does: the bytes, or the code that refuses the command. -/
def cpRead (epoch va n poison : Nat) (s : State) : Except Nat Nat × State :=
  match translateRange (cpAccess va true false) n s with
  | (.runs rs, t) =>
    let (code, t) := readCode (some epoch) rs t
    if code != 0 then (.error code, t) else (let (v, bad, t) := ioRead 8 rs t; (if bad then .error poison else .ok v, t))
  | (.fail c, t) => (.error c, t)
  | (.stall, t) => (.error 0x0201, t)

def grNodesVa (h : Nat) : Nat := bitsOf h 511 455
def grEdgesVa (h : Nat) : Nat := bitsOf h 447 391
def grNodes (h : Nat) : Nat := bitsOf h 383 368 + 1
def grEdges (h : Nat) : Nat := bitsOf h 351 320
def grPrio (h : Nat) : Nat := bitsOf h 319 312
def grCq (h : Nat) : Nat := bitsOf h 311 304
def grReserved (h : Nat) : Nat := bitsOf h 454 448 + bitsOf h 390 384 + bitsOf h 367 352 + bitsOf h 303 0
def ndDesc (w : Nat) : Nat := bitsOf w 255 199
def ndToken (w : Nat) : Nat := bitsOf w 191 160
def ndFirst (w : Nat) : Nat := bitsOf w 159 143
def ndSucc (w : Nat) : Nat := bitsOf w 142 131
def ndKind (w : Nat) : Nat := bitsOf w 130 128
def ndMeadow (w : Nat) : Nat := bitsOf w 127 125
def ndReport (w : Nat) : Bool := bitsOf w 124 124 == 1
def ndReserved (w : Nat) : Nat := bitsOf w 198 192 + bitsOf w 123 0

/-- The checks of a task descriptor at acceptance (R56, R74, R234, R235). -/
def taskChecks (s : State) (d : Nat) : List (Option Nat) :=
  let qs := tkReqs d
  [failIf (tkReserved d != 0 || (List.range 8).any (fun r => bitsOf (tkReq d r) 17 0 != 0) ||
      qs.any (fun q => rqKind q.2 == 3 && rqBlocks q.2 != 1)) 0x0180,
   failIf (tkJoin d && tkTufts d < 4) 0x0181,
   failIf (qs.any (fun q => rqKind q.2 == 2 && rqName q.2 == 0)) 0x0183,
   failIf (tkBindV d && !(match tget s.res.regions (tkBindRegion d) with | some r => r.armed | none => false)) 0x0184] ++
  arithChecks (tkArith d)

/-- A copy node has global or remote global spaces, and no gate, arrival or Tuft mask (R403). -/
def copyNodeBad (d : Nat) : Bool :=
  let far := fun (sp : Nat) => sp == 2 || sp == 3
  (cpOp d == 0 && !(far (cpSrcSpace d) && far (cpDstSpace d))) || (cpOp d == 1 && !far (cpDstSpace d)) ||
    cpGateV d || cpArriveV d || cpMask d != 0

def nodeDescChecks (s : State) (kind d : Nat) : List (Option Nat) :=
  if kind = 0 then taskChecks s d
  else if kind = 1 then failIf (copyNodeBad d) 0x010C :: copyChecks s { task := none, sward := (cpSward s).getD 0 } d
  else routerChecks d

/-- The nodes of a graph with the codes of the checks that fail, lowest first. -/
structure GraphRead where
  code : Nat := 0
  nodes : List NodeRec := []
  prio : Nat := 0
  cq : Nat := 0

/-- Read and check one node: its record, the lowest code, the state. Where the edge list cannot be read, the checks that need no edge are
made (R570). -/
def readNode (ep n nodes edges : Nat) (edge : Option (Nat → Nat)) (w : Nat) (s : State) : NodeRec × Nat × State :=
  let succ := match edge with | some f => (span (ndFirst w) (ndSucc w)).map f | none => []
  let size := if ndKind w = 0 then 128 else 64
  let shape := [failIf (edges < ndFirst w + ndSucc w || succ.any (fun k => k ≤ n || nodes ≤ k)) 0x010B,
    failIf (ndReserved w != 0 || 3 < ndKind w || (ndKind w < 3 && ndDesc w % size != 0)) 0x010C]
  let rec_ : NodeRec := { kind := ndKind w, desc := 0, token := ndToken w, succ := succ, preds := 0, meadow := ndMeadow w, report := ndReport w }
  if 3 ≤ ndKind w || ndDesc w % size != 0 then (rec_, lowest shape, s)
  else match cpRead ep (ndDesc w) size 0x010C s with
    | (.error c, t) => (rec_, lowest (some c :: shape), t)
    | (.ok d, t) => ({ rec_ with desc := d }, lowest (shape ++ nodeDescChecks t (ndKind w) d), t)

/-- Predecessors of each node; a node with none is ready. -/
def linkNodes (ns : List NodeRec) : List NodeRec :=
  ns.mapIdx (fun i y =>
    let p := (ns.map (fun x => (x.succ.filter (· == i)).length)).foldl (· + ·) 0
    { y with preds := p, st := if p = 0 then .ready else .blocked })

/-- Read a graph from its header at `va` and make every check of R402 and R403. -/
def readGraph (ep va : Nat) (s : State) : GraphRead × State :=
  if va % 64 != 0 then ({ code := 0x010B }, s)
  else match cpRead ep va 64 0x010B s with
    | (.error c, t) => ({ code := c }, t)
    | (.ok h, t) =>
      -- R570: the queue the header names is checked beside the graph itself
      let off := failIf (!flagSet t cqStateEn (grCq h)) 0x0104
      let g : GraphRead := { prio := grPrio h, cq := grCq h }
      if grReserved h != 0 || 4096 < grNodes h || 65536 < grEdges h || grNodesVa h % 32 != 0 || grEdgesVa h % 4 != 0 then ({ g with code := lowest [off, some 0x010B] }, t)
      else
        let (ev, t) := if grEdges h = 0 then (.ok 0, t) else cpRead ep (grEdgesVa h) (2 * grEdges h) 0x010B t
        let lost : Option Nat := match ev with | .error c => some c | .ok _ => none
        let edge : Option (Nat → Nat) := match ev with | .error _ => none | .ok v => some (fun e => (v >>> (16 * e)) % 65536)
        match cpRead ep (grNodesVa h) (32 * grNodes h) 0x010B t with
        | (.error c, t) => ({ g with code := lowest [off, lost, some c] }, t)
        | (.ok nv, t) =>
          let r := (List.range (grNodes h)).foldl (fun (acc : List NodeRec × List (Option Nat) × State) n =>
            let (y, c, u) := readNode ep n (grNodes h) (grEdges h) edge ((nv >>> (256 * n)) % 2 ^ 256) acc.2.2
            (acc.1 ++ [y], some c :: acc.2.1, u)) ([], [], t)
          ({ g with code := lowest (off :: lost :: r.2.1), nodes := linkNodes r.1 }, r.2.2)

/-- Records that a graph reserves: its own completion, and one for each node that reports, on its queue. -/
def graphResv (c : Cmd) (s : State) : List (Nat × Nat) :=
  let g := (readGraph (getF s hlStatusLinkEpoch 0) (wordAt c.words 1) s).1
  if g.code != 0 ∨ !jobExists s then ownRecord c.door c.words
  else
    let x : GraphRec := { id := 0, sq := 0, token := 0, epoch := 0, prio := g.prio, cq := g.cq, nodes := [] }
    let qs := (g.nodes.filter (·.report)).map (nodeCq s x)
    let add := fun (l : List (Nat × Nat)) (q n : Nat) => if l.any (fun r => r.1 == q) then l.map (fun r => if r.1 = q then (q, r.2 + n) else r) else l ++ [(q, n)]
    qs.foldl (fun l q => add l q 1) (add (ownRecord c.door c.words) g.cq 0)

def graphBody (oc : OpenCmd) (s : State) : Body :=
  let (g, t) := readGraph oc.epoch (wordAt oc.words 1) s
  if g.code != 0 then refuseBody g.code t
  else
    let x : GraphRec := {
      id := oc.id, sq := doorSq oc.door, token := cmdToken oc.words, epoch := oc.epoch,
      prio := g.prio, cq := g.cq, nodes := g.nodes }
    .runs { t with work.graphs := t.work.graphs ++ [x] }

/-- Nodes of the graph that a GRAPH_SUBMIT names. -/
def submitNodes (s : State) (ws : List W64) : Nat := (readGraph (getF s hlStatusLinkEpoch 0) (wordAt ws 1) s).1.nodes.length

/-- 64 graphs, or 16,384 nodes, are in flight already, those of GRAPH_SUBMITs accepted and not yet begun among them (Table CF-1). -/
def graphsFull (c : Cmd) (s : State) : Bool :=
  let due := s.ob.openCmds.filter (fun o => cmdOpcode o.words == 0x18 && !o.started)
  decide (64 ≤ s.work.graphs.length + due.length) ||
    decide (16384 < nodeCount s + (due.map (fun o => submitNodes s o.words)).foldl (· + ·) 0 + submitNodes s c.words)

def doGraphSubmit (c : Cmd) (s : State) : State :=
  let accepted := s.ob.openCmds.any (fun o => o.door == c.door && o.words == c.words && !o.started)
  if cmdOpcode c.words == 0x18 && flagSet s obStatusReady 0 && jobExists s && !accepted && graphsFull c s then headWaits c.door false s
  else runWith (cmdOpcode c.words == 0x18) (graphResv c) graphBody c s

def graphCancelBody (oc : OpenCmd) (s : State) : Body :=
  let hits := s.work.graphs.filter (fun x => x.token == wordBits oc.words 1 31 0 && x.sq == wordBits oc.words 1 39 32 && x.cancelled == 0)
  .ends (endDone hits.length 0) ((hits.map (·.id)).foldl (cancelGraph 0x010E) s)

/-! ## Sequences (R156, R404) -/

def seqOpenBody (oc : OpenCmd) (s : State) : Body :=
  let cq := wordBits oc.words 2 13 8
  let free := (List.range 512).find? (fun i => (seqGet s i).isNone)
  checked [failIf (!flagSet s cqStateEn cq) 0x0104, failIf free.isNone 0x0156] s (
    let i := free.getD 0
    let e : SeqEnt := { kv := wordAt oc.words 1, prio := wordBits oc.words 2 7 0, cq := cq, stamp := s.work.clock }
    .ends (endDone i 0) { s with work.seqs := tput s.work.seqs i e, work.clock := s.work.clock + 1 })

/-- The nodes of every graph whose task carries sequence `i` end cancelled; their number comes first (R404). -/
def seqCancel (i : Nat) (s : State) : Nat × State :=
  (s.work.graphs.map (·.id)).foldl (fun (acc : Nat × State) g =>
    let c := cancelNodes g 0x0110 (fun y => y.kind == 0 && tkSeqV y.desc && tkSeq y.desc == i) acc.2
    (acc.1 + c.1, c.2)) (0, s)

/-- A task of sequence `i` has been placed and has not ended. -/
def seqRuns (i : Nat) (s : State) : Bool := s.work.tasks.any (fun t => tkSeqV t.d && tkSeq t.d == i && t.phase != .waiting)

/-- SEQ_CLOSE (R404). -/
def seqCloseBody (oc : OpenCmd) (s : State) : Body :=
  let i := wordBits oc.words 1 8 0
  match seqGet s i with
  | none => refuseBody 0x0155 s
  | some e =>
    if e.st = 6 then refuseBody 0x0155 s
    else
      let r := seqCancel i s
      .ends (endDone r.1 0) (if seqRuns i r.2 then { r.2 with work.seqs := tput r.2.work.seqs i { e with st := 6 } }
        else { r.2 with work.seqs := tdel r.2.work.seqs i })

/-! ## Named buffers (R229–R232, R404) -/

def bufCreateBody (oc : OpenCmd) (s : State) : Body :=
  let name := wordBits oc.words 1 31 0
  checked [failIf (name == 0 || (bufNamed s name).isSome) 0x0183, failIf (poolMax s < wordBits oc.words 2 10 0 + 1) 0x0570,
      failIf (4096 ≤ namedCount s) 0x0571] s (
    match tryBuf oc s with
    | some t => .runs t
    | none =>
      let sw := (bufSward s (bufPlace oc.words)).getD 0
      .runs (raise flLmStatusPoolWait sw { s with work.bufWait := s.work.bufWait ++ [(oc.id, sw)] }))

def bufFreeBody (oc : OpenCmd) (s : State) : Body :=
  let name := wordBits oc.words 1 31 0
  if (bufNamed s name).isNone then refuseBody 0x0182 s else .ends (endDone 0 0) (poolRelease name s)

/-! ## Expert regions (R145, R154, R404) -/

/-- Where a share fits in every active Sward: the highest place, a whole number of blocks from the pool's start. -/
def sharePlace (s : State) (n : Nat) : Option Nat :=
  let blocks := (n + 4095) / 4096
  let free := fun (b : Nat) => ((List.range 128).filter (swardUp s)).all (fun sw => blockFree s sw b)
  ((List.range (2049 - blocks)).reverse.find? (fun o => (span o blocks).all free)).map (· * 4096)

/-- Remote units of a home map with the ranks of their homes. -/
def mapRanks (v units : Nat) : List (Nat × Nat) :=
  (List.range units).filterMap (fun u => let e := (v >>> (32 * u)) % 2 ^ 32
    if e.testBit 31 then some (u, bitsOf e 27 16) else none)

/-- The checks of REGION_ARM on its descriptor `d` and its home map, `maps` as it was read (R145). -/
def armCodes (d : Nat) (maps : Except Nat Nat) (t : State) : List (Option Nat) :=
  let old := tget t.res.regions (rgNumber d)
  let shares := ((t.res.regions.filter (fun e => e.2.armed)).map (fun e => rgShare e.2.desc.toNat)).foldl (· + ·) 0
  let ranks := match maps with | .ok v => mapRanks v (rgUnits d) | .error _ => []
  [(match maps with | .error c => some c | .ok _ => none),
    failIf (match old with | some r => r.armed | none => false) 0x0567,
    failIf (rgBase d % 65536 != 0 || rgStage d % 65536 != 0 || 4 < rgWays d ||
      bitsOf d 454 448 + bitsOf d 390 384 + bitsOf d 326 320 + bitsOf d 258 256 + bitsOf d 235 0 != 0) 0x0560,
    failIf (4096 * 1024 < shares + rgShare d) 0x0561,
    failIf (rgShare d < rgUnitBytes d || (!ranks.isEmpty && rgStageBytes d < 2 * rgUnitBytes d)) 0x0562]

/-- A region of descriptor `d` armed, its share at `share`, its units homed at `ranks` (R145). -/
def regionMade (d share : Nat) (ranks : List (Nat × Nat)) (t : State) : State :=
  let i := rgNumber d
  let r : ExpertRegion := { desc := BitVec.ofNat 512 d, share := share }
  let units := ranks.foldl (fun us (x : Nat × Nat) => tput us (unitKey i x.1) { rank := some x.2 }) (t.res.units.filter (fun e => e.1 / 4096 != i))
  regionFlags { t with res.regions := tput t.res.regions i r, res.units := units }

/-- REGION_ARM (R145). -/
def regionArmBody (oc : OpenCmd) (s : State) : Body :=
  let va := wordAt oc.words 1
  if va % 64 != 0 then refuseBody 0x0560 s
  else match cpRead oc.epoch va 64 0x0560 s with
    | (.error c, t) => refuseBody c t
    | (.ok d, t) =>
      let maps := if rgHomeMap d = 0 then (.ok 0, t) else cpRead oc.epoch (rgHomeMap d) (4 * rgUnits d) 0x0560 t
      let ranks := match maps.1 with | .ok v => mapRanks v (rgUnits d) | .error _ => []
      let t := maps.2
      if (match tget t.res.regions (rgNumber d) with | some r => r.closing.isSome | none => false) then waits oc t
      else checked (armCodes d maps.1 t) t (
        match sharePlace t (rgShare d) with
        | none => waits oc t
        | some o => .ends (endDone 0 0) (regionMade d o ranks t))

def regionQuiesceBody (oc : OpenCmd) (s : State) : Body :=
  let i := wordBits oc.words 1 3 0
  match tget s.res.regions i with
  | some r =>
    if r.closing.isSome then waits oc s
    else if !r.armed then refuseBody 0x0112 s
    else .runs { s with res.regions := tput s.res.regions i { r with closing := some (oc.id, false) } }
  | none => refuseBody 0x0112 s

def regionReleaseBody (oc : OpenCmd) (s : State) : Body :=
  let i := wordBits oc.words 1 3 0
  match tget s.res.regions i with
  | some r => if r.closing.isSome then waits oc s else .runs { s with res.regions := tput s.res.regions i { r with closing := some (oc.id, true) } }
  | none => refuseBody 0x0112 s

/-! ## The cores (R342, R355, R404) -/

/-- What is left of a die's leaving: its down messages reach their receivers, and the homes end their sweeps (R303, R355; log entry
188). -/
def leaveEnds (d : Nat) (s : State) : State :=
  let t := (s.loam.down.filter (fun e => e.2.1 == d)).foldl (fun t e => dieDown e.1 d t) s
  (List.range 16).foldl (fun t h => if (tget t.coh.sweeping h).any (fun m => m.testBit (d - 16)) then sweepDone h t else t) t

/-- CORES_START of a die in reset: its caches return empty, its cores start at the entry, source 4 and record 0x0A41. -/
def coresStartBody (oc : OpenCmd) (s : State) : Body :=
  let k := wordBits oc.words 1 0 0
  let d := 24 + k
  let entry := wordAt oc.words 2
  if dieUp s d || !isDevMem entry 1 then refuseBody 0x0111 s
  else
    let s := leaveEnds d s
    -- the runtime, in M mode, releases the cores to S mode (R342)
    let harts := (span (48 * k) 48).foldl (fun hs h => tput hs h { running := true, mode := 1, pc := entry, a0 := wordAt oc.words 3 }) s.cores.harts
    let t := setF ddDieStatusRefOk d 1 (setF ddDieStatusState d 0 { s with cores.harts := harts })
    let t := (linksOf d).foldl (fun t l => let e := linkEnds l
      if dieUp t e.1 && dieUp t e.2 && getF t ddLinkStatusState l == 2 then setF ddLinkStatusState l 0 t else t) t
    let t := writeErr { level := lvPackage, unit := d, reason := 0x0A41, cls := 0x07, verdict := vTransient } none (deliverEvent 4 t)
    .ends (endDone 0 0) t

def hostDieResetBody (oc : OpenCmd) (s : State) : Body := .ends (endDone 0 0) (leaveDie (24 + wordBits oc.words 1 0 0) 0x01 s)

/-- What follows any effect: the scheduler's part, then a JOB_DESTROY that waited. -/
def settleOb (s : State) : State := destroyCheck (follow s)

end Sys2Proof.Machine
end

