-- ==== Sys2Proof/Machine/HostLink.lean ====
section
/-! DEFINITION. Sys2Proof/Machine/HostLink.lean: the host link: up, retrain and loss, BAR0 and BAR2, ECAM, inbound DMA,
completions, MSI-X, power states (R357–R388). -/
namespace Sys2Proof.Machine

/-! ## The link (R380–R385) -/

/-- A record of the host link (Table RE-14). -/
def linkErr (reason : Nat) (s : State) : State :=
  writeErr { level := lvPackage, unit := 0x1E0, reason := reason, cls := 0x04, verdict := vTransient } none s

/-- The west I/O die serves its links: in service, not in test reset, not tripped, not safe to remove, not halted. -/
def linksAlive (s : State) : Bool :=
  dieUp s 26 && !s.pins.testReset && !s.pw.tripped && getF s mgStatusPanel 0 != 3 && !s.start.halted

/-- Speed code of SPEED_CAP in force. -/
def capSpeed (s : State) : Nat := 6 - s.link.speedCap

def widthOk (w : Nat) : Bool := w == 1 || w == 2 || w == 4 || w == 8 || w == 16

/-- Pending vectors that are unmasked go, each once, when the link can carry them (R378). -/
def msixFlush (s : State) : State :=
  if !msixReady s then s
  else s.link.pba.foldl (fun t v =>
    if (tgetD t.link.msix v {}).masked then t else { t with link.pba := setDel t.link.pba v, hostOut := .msix v :: t.hostOut }) s

/-- The link runs at a speed and width: DEGRADED and a pending 0x0831 below SPEED_CAP or ×16; the record closes when the link
is back in full (R380, R503). -/
def linkRuns (speed width : Nat) (s : State) : State :=
  let t := setF hlStatusSpeed 0 speed (setF hlStatusWidth 0 width s)
  if speed < capSpeed s || width != 16 then
    pendErr { level := lvPackage, unit := 0x1E0, reason := 0x0831, cls := 0x04 } (raise flHlStatusDegraded 0 t)
  else { t with err.pend := t.err.pend.filter (fun p => p.reason != 0x0831) }

/-- HOST_LINK_UP. -/
def linkUp (speed width : Nat) (s : State) : State :=
  if flagSet s hlStatusLinkUp 0 || !linksAlive s || speed = 0 || capSpeed s < speed || !widthOk width then s
  else msixFlush (retryHeld (linkRuns speed width (setF hlStatusLinkUp 0 1 s)))

/-- HOST_LINK_RETRAIN. -/
def linkRetrain (speed width : Nat) (s : State) : State :=
  if !flagSet s hlStatusLinkUp 0 || speed = 0 || capSpeed s < speed || !widthOk width then s
  else linkRuns speed width (bump hlCountsRetrains 0 1 s)

/-- A copy has bytes to move to or from the host-link window. -/
def copyUsesHost (s : State) (c : CopyRec) : Bool :=
  let hits := fun (ps : List Piece) => ps.any (burstToHost c.desc.toNat)
  c.rest.any hits || s.copies.ents.any (fun e => e.copy == c.id && hits e.pieces) || s.link.reads.any (fun r => r.2.1 == c.id)

/-- Queues whose rings lie in the host-link window stop (R381 step 7). -/
def stopHostRings (s : State) : State :=
  (rings s).foldl (fun t r =>
    if !isHostWin r.2.2.1 r.2.2.2 then t
    else if r.1 = 0 then setF sqStateState r.2.1 2 t
    else if r.1 = 1 then setF cqStateStopped r.2.1 1 t
    else setF eqStateStopped 0 1 t) s

/-- Invocations that are to write host memory end with 0x0830 (R381 step 5). -/
def stilesHostLost (s : State) : State :=
  (List.range 8).foldl (fun t m => (invQueue t m).foldl (fun u i =>
    if i.started && !i.stalled && (i.res.outRuns ++ i.res.cntRuns).any (fun r => isHostWin r.2.1 r.2.2) then finishInv m i 0x0830 u else u) t) s

/-- Link loss (R381). -/
def linkLoss (configReset : Bool) (s : State) : State :=
  let cfg := fun (t : State) => if configReset then setF hlStatusBme 0 0
    { t with link.msixEn := false, link.msix := [], link.pba := [], link.dState := 0, link.fn := {}, link.rpCfg := [] } else t
  if !flagSet s hlStatusLinkUp 0 then cfg s
  else
    let t := setF hlStatusSpeed 0 0 (setF hlStatusWidth 0 0 (setF hlStatusLinkUp 0 0 s))
    let t := raise flHlStatusHostLost 0 (bump hlStatusLinkEpoch 0 1 { t with link.heldOut := [] })
    let used := (t.copies.recs.filter (copyUsesHost t)).map (·.id)
    let t := (t.link.reads.map (·.1)).foldl (fun t tag => readReturns tag (0, true) 0x0830 t) t
    let t := homesLinkLost t
    let t := used.foldl (fun t i => copyEnds i 0x0830 t) t
    let t := prefetchStops (endFailed 0x0217 0) t
    let t := collsFail (fun c => (c.src ++ c.dst).any (fun r => isHostWin r.2.1 r.2.2)) 0x0830 t
    let t := netHostLost (stilesHostLost t)
    cfg (stopHostRings t)

/-! ## BAR0, and the Obiolo region (R363, R364, R405) -/

/-- An access that is not performed: BAR_ERR and a record. -/
def barBad (s : State) : State := linkErr 0x0833 (raise flHlStatusBarErr 0 s)

/-- BAR0 answers the host; in the self-hosted role, the cores reach the Obiolo region. -/
def barOpen (s : State) : Bool := selfHosted s || (flagSet s hlStatusLinkUp 0 && s.link.dState != 3)

/-- The register at an 8-byte offset of the first MiB (Table CF-10): register, unit, low bit of the 64 shown. -/
def barReg (off : Nat) : Option (Reg × Nat × Nat) :=
  if off = 0 then some (.obId, 0, 0)
  else if off = 0x08 then some (.obStatus, 0, 0)
  else if off = 0x10 then some (.obCounts, 0, 0)
  else if off = 0x18 then some (.obCounts, 0, 64)
  else if off = 0x28 then some (.timerStatus, 0, 0)
  else if off = 0x30 then some (.hlStatus, 0, 0)
  else if off = 0x38 then some (.atFqPtr, 0, 0)
  else if off = 0x40 then some (.eqState, 0, 0)
  else if off = 0x48 then some (.obCtrl, 0, 0)
  else if 0x1000 ≤ off ∧ off < 0x1800 then some (.sqState, (off - 0x1000) / 8, 0)
  else if 0x2000 ≤ off ∧ off < 0x2200 then some (.cqState, (off - 0x2000) / 8, 0)
  else if 0x3000 ≤ off ∧ off < 0x3240 then some (.evRoute, (off - 0x3000) / 8, 0)
  else none

/-- A direct write of a register: HEAD, and W1C bits; every other field is read-only here. -/
def barRegWrite (r : Reg) (u part v m : Nat) (s : State) : State :=
  let old := regRaw s r u
  let head := fun (f : Field) => bitsOf ((old - (old &&& m)) ||| (v &&& m)) f.hi f.lo
  let asks := fun (f : Field) => bitsOf m f.hi f.lo != 0
  match r with
  | .cqState => if asks cqStateHead then cqHead u (head cqStateHead) s else s
  | .eqState => if asks eqStateHead then eqHead (head eqStateHead) s else s
  | .atFqPtr => if asks atFqPtrHead then fqHead (head atFqPtrHead) s else s
  | _ =>
    let w1c := ((v &&& m) * 2 ^ part) &&& fieldMask r (fun x => x.acc == .w1c)
    setRegRaw r u (old - (old &&& w1c)) s

/-- A doorbell (R372): the newest TAIL governs; a fresh budget of re-reads for an entry that was not visible (R374). -/
def doorbell (q tail : Nat) (s : State) : State :=
  let st := getF s sqStateState q
  let d := getF s sqStateDepthLog2 q
  if st = 0 || 2 ^ d < (tail + 65536 - getF s sqStateHead q) % 65536 then linkErr 0x0811 (raise flHlStatusDbErr 0 s)
  else if tail = getF s sqStateTail q then s
  else
    let k := tgetD s.ob.sq q {}
    let t := setF sqStateTail q tail { s with ob.sq := tput s.ob.sq q (if k.gone then { k with gone := false, rereads := 0 }
      else if k.rereads != 0 then { k with fresh := true } else k) }
    if k.gone && st == 3 then setF sqStateState q 1 t else t

/-- A write of 8-byte words to a Lark request slot (R376, R377): discarded while the slot is busy; setting GO submits it and
clears DONE. -/
def larkWrite (k off : Nat) (words : List Nat) (s : State) : State :=
  let l := larkGet s k
  if words.isEmpty || 32 < off + words.length then barBad s
  else if l.busy then linkErr 0x0814 (raise flHlStatusLarkOvw 0 s)
  else
    let req := (List.range words.length).foldl (fun r i => withBits r (64 * (off + i) + 63) (64 * (off + i)) (words.getD i 0)) l.req
    if req.testBit 1984 then larkPut k { req := req, ans := withBits l.ans 1984 1984 0, busy := true } s
    else larkPut k { l with req := req } s

/-- A write to the MSI-X table (R378): address, data or mask of an entry. -/
def msixWrite (off len v : Nat) (s : State) : State :=
  let i := off / 16
  let e := tgetD s.link.msix i {}
  let lay := packBits [(e.addr, 0), (e.data, 64), (bit e.masked, 96)]
  let n := withBits lay (8 * (off % 16) + 8 * len - 1) (8 * (off % 16)) v
  msixFlush { s with link.msix := tput s.link.msix i { addr := bitsOf n 63 0, data := bitsOf n 95 64, masked := n.testBit 96 } }

/-- The mask and place of an access of 4 or 8 bytes within 8. -/
def laneMask (off len : Nat) : Nat := if len = 8 then allBits else low32 * 2 ^ (off % 8 * 8)

/-- A direct write at an offset of BAR0; answer slots and the pending-bit array are read-only. -/
def barWrite (off len v : Nat) (s : State) : State :=
  let aligned := (len == 4 || len == 8) && off % len == 0
  if 0x200000 ≤ off ∧ off < 0x204000 then
    if len % 8 = 0 ∧ off % 8 = 0 then larkWrite ((off - 0x200000) / 256) (off % 256 / 8) ((List.range (len / 8)).map (fun i => (v >>> (64 * i)) % 2 ^ 64)) s
    else barBad s
  else if !aligned then barBad s
  else if off < 0x100000 then
    let m := laneMask off len
    match barReg (off / 8 * 8) with
    | some (r, u, part) => barRegWrite r u part (v * 2 ^ (off % 8 * 8)) m s
    | none => if off / 8 * 8 = 0x20 then s else barBad s
  else if off < 0x200000 then
    if off % 0x1000 = 0 then doorbell ((off - 0x100000) / 0x1000) (v % 65536) s else barBad s
  else if 0x210000 ≤ off ∧ off < 0x211000 then msixWrite (off - 0x210000) len v s
  else if 0x211000 ≤ off ∧ off < 0x212000 ∨ 0x204000 ≤ off ∧ off < 0x208000 then s
  else barBad s

/-- A read at an offset of BAR0: what it returns, and the state. Fields have no RC access at these offsets. -/
def barRead (off len : Nat) (s : State) : Nat × State :=
  let cut := fun (x : Nat) => (x >>> (off % 8 * 8)) % 256 ^ len
  if !((len == 4 || len == 8) && off % len == 0) then (0, barBad s)
  else if off < 0x100000 then
    match barReg (off / 8 * 8) with
    | some (r, u, part) => (cut (regRead s r u >>> part), readClears r u s)
    | none => if off / 8 * 8 = 0x20 then (cut (cpTime s), s) else (0, barBad s)
  else if off < 0x200000 then (if off % 0x1000 = 0 then (0, s) else (0, barBad s))
  else if off < 0x204000 then (((larkGet s ((off - 0x200000) / 256)).req >>> (off % 256 * 8)) % 256 ^ len, s)
  else if off < 0x208000 then (((larkGet s ((off - 0x204000) / 256)).ans >>> (off % 256 * 8)) % 256 ^ len, s)
  else if 0x210000 ≤ off ∧ off < 0x211000 then
    let e := tgetD s.link.msix ((off - 0x210000) / 16) {}
    ((packBits [(e.addr, 0), (e.data, 64), (bit e.masked, 96)] >>> (off % 16 * 8)) % 256 ^ len, s)
  else if 0x211000 ≤ off ∧ off < 0x212000 then
    ((s.link.pba.foldl (fun m v => m ||| 2 ^ v) 0 >>> ((off - 0x211000) * 8)) % 256 ^ len, s)
  else (0, barBad s)

/-- REGISTER_WRITE. -/
def registerWrite (off len v : Nat) (s : State) : State := if barOpen s then barWrite off len v s else s

def doorbellWrite (q w : Nat) (s : State) : State := if barOpen s then doorbell q (w % 65536) s else s
def larkRequest (k off : Nat) (words : List Nat) (s : State) : State := if barOpen s then larkWrite k off words s else s
def cqHeadWrite (q v : Nat) (s : State) : State := if barOpen s then cqHead q v s else s
def eqHeadWrite (v : Nat) (s : State) : State := if barOpen s then eqHead v s else s
def fqHeadWrite (v : Nat) (s : State) : State := if barOpen s then fqHead v s else s

/-! ## BAR2 (R365) -/

/-- Write device memory from an I/O agent of the west die: coherent, on port 10. -/
def ioWrite (pa len v : Nat) (poisoned : Bool) (s : State) : State :=
  let t := devWrite pa len v (rangeAccess .ncwr 10 pa len s)
  if poisoned then poisonRange pa len t else t

/-- Lines that writes of CXL.mem received earlier have still to reach. -/
def linkWrites (s : State) : List Nat :=
  let mine := fun (r : HomeReq) => r.kind == .ncwr && r.by_ == .cxl
  s.coh.dir.flatMap (fun x => match entryTxn s x.1 x.2 with | some t => if mine t.req then [t.req.line] else [] | none => []) ++
    ((s.coh.waiting ++ s.coh.ncHeld ++ s.coh.ncNacked).filter mine).map (·.line)

/-- A read completes after every write received earlier has been applied: their lines go on, and the read waits for one that
cannot (R369). -/
def writesSettle (s : State) : State :=
  let t := (linkWrites s).foldl (fun t l => lineSettles l t) s
  match linkWrites t with
  | [] => t
  | l :: _ => waitFor (.settle l) t

def bar2 (off : Nat) (write : Bool) (len v : Nat) (poisoned_ : Bool) (s : State) : State :=
  if selfHosted s || !barOpen s then s
  else if inBiasTable s off len then
    (let t := tableRefused off s; if write then t else { t with hostOut := .completion len 0 true :: t.hostOut })
  else if !isDevMem off len then (let t := barBad s; if write then t else { t with hostOut := .completion len 0 false :: t.hostOut })
  else if write then ioWrite off len v poisoned_ s
  else
    let t := rangeAccess .ncrd 10 off len (writesSettle s)
    { t with hostOut := .completion len (readNum t off len) (physPoison t off len) :: t.hostOut }

/-! ## The root port (R366–R368) -/

/-- Words of the root port's header that no write changes: identifiers, class, header type (log entry 23). -/
def rpFixed (w : Nat) : Bool := w == 0 || w == 2 || w == 3

/-- ECAM_ACCESS in the self-hosted role: the root port at bus 0, device 0, function 0; a function below answers with
`reply`, an absent one with all ones. Words of the header whose values the spec does not state are free values. -/
def ecam (bus fn off : Nat) (write reply : Option Nat) (s : State) : State :=
  if !selfHosted s then barBad s
  else if bus = 0 then
    if fn != 0 then (if write.isSome then s else { s with link.lastCfg := low32 })
    else match write with
      | some v => if rpFixed off then s else { s with link.rpCfg := tput s.link.rpCfg off (v % 2 ^ 32) }
      | none =>
        if off = 3 then { s with link.lastCfg := 0x10000 }
        else if rpFixed off then { drawn s with link.lastCfg := freshVal s % 2 ^ 32 }
        else { s with link.lastCfg := tgetD s.link.rpCfg off 0 }
  else if !flagSet s hlStatusLinkUp 0 then (if write.isSome then s else { s with link.lastCfg := low32 })
  else match write with
    | some v => hostSend (.cfgWrite bus fn (4 * off) 4 v) s
    | none => hostSend (.cfgRead bus fn (4 * off)) { s with link.lastCfg := reply.getD low32 }

/-- An MSI written into the interrupt-file range: one page of 4 KiB for each interrupt file, hart × 2 + FILE (log entry 25). -/
def imsicWrite (pa len v : Nat) (s : State) : State :=
  let i := (pa - imsicBase) / 4096
  let id := v % 2048
  if pa % 4096 = 0 ∧ len = 4 ∧ i < 192 ∧ 1 ≤ id ∧ id ≤ 255 ∧ dieUp s (24 + i / 2 / 48) then msiToFile (i / 2) (i % 2) id s else s

def inWindow (s : State) (a n : Nat) : Bool :=
  flagSet s hlRpInwinEn 0 && getF s hlRpInwinBase 0 * 1048576 ≤ a && a + n ≤ (getF s hlRpInwinLimit 0 + 1) * 1048576 && isDevMem a n

/-- INBOUND_DMA: within the inbound window, an MSI, or Unsupported Request with 0x0832. -/
def inboundDma (a : Nat) (write : Bool) (len v : Nat) (poisoned_ : Bool) (s : State) : State :=
  if !selfHosted s || !flagSet s hlStatusLinkUp 0 then s
  else if inWindow s a len then
    if write then ioWrite a len v poisoned_ s
    else
      let t := rangeAccess .ncrd 10 a len s
      { t with hostOut := .completion len (readNum t a len) (physPoison t a len) :: t.hostOut }
  else if write && isImsic a len then imsicWrite a len v s
  else linkErr 0x0832 { s with hostOut := .unsupported :: s.hostOut }

/-! ## Completions, MSI-X, power states -/

/-- OUTBOUND_READ_COMPLETION of a read that a copy has outstanding (R379). -/
def readCompletion (tag v : Nat) (refused : Bool) (s : State) : State :=
  if (tget s.link.reads tag).isNone then s
  else if refused then readReturns tag (0, true) 0x0820 (raise flHlStatusPeerRefused 0 s)
  else readReturns tag (v, false) 0 s

/-- COMPLETION_TIMEOUT (R387). -/
def readTimeout (tag : Nat) (s : State) : State :=
  if (tget s.link.reads tag).isNone then s else readReturns tag (0, true) 0x0821 (raise flHlStatusCplTimeout 0 s)

/-- MSIX_UNMASK. -/
def msixAct (a : MsixAct) (s : State) : State :=
  if selfHosted s then s
  else match a with
    | .vector v => msixFlush { s with link.msix := tmod s.link.msix v.val {} (fun e => { e with masked := false }) }
    | .enable => msixFlush (retryHeld { s with link.msixEn := true })
    | .busMaster => msixFlush (retryHeld (setF hlStatusBme 0 1 s))

/-- POWER_STATE_CHANGE of the endpoint: in D0 again, what was held leaves (R359). -/
def powerState (d3 : Bool) (s : State) : State :=
  if selfHosted s || !flagSet s hlStatusLinkUp 0 then s
  else if d3 then { s with link.dState := 3 }
  else msixFlush (retryHeld { s with link.dState := 0, hostOut := s.link.heldOut ++ s.hostOut, link.heldOut := [] })

end Sys2Proof.Machine
end

