-- ==== Sys2Proof/Machine/Cores.lean ====
section
/-! DEFINITION. Sys2Proof/Machine/Cores.lean: what application cores do to memory, the Obiolo region and the interrupt
files, their atomics and cache-block instructions, timer interrupts, the runtime's watchdog (R341–R356). -/
namespace Sys2Proof.Machine

/-- Host die and coherence port of a hart (R286, R341). -/
def hartDie (h : Nat) : Nat := 24 + h / 48
def hartPort (h : Nat) : Nat := 8 + h / 48

def hart (s : State) (h : Nat) : Hart := tgetD s.cores.harts h {}

/-- A hart can make accesses: it has been started (R342), its die is in service and the module neither in test reset, tripped,
halted nor safe to remove. -/
def coreUp (s : State) (h : Nat) : Bool := (hart s h).running && dieUp s (hartDie h) && linksAlive s

def setHart (h : Nat) (x : Hart) (s : State) : State := { s with cores.harts := tput s.cores.harts h x }

/-- What an access returns to its hart; no fault. -/
def hartGets (h v : Nat) (s : State) : State := setHart h { hart s h with result := v, fault := 0 } s

/-- An access fault: 1 instruction, 2 load, 3 store or AMO (R341). -/
def hartFaults (h kind : Nat) (s : State) : State := setHart h { hart s h with fault := kind } s

/-- A load or fetch that meets poison: an access fault, and the runtime's record 0x0A5A (Table RE-7). -/
def hartPoison (h kind : Nat) (s : State) : State :=
  writeErr { level := lvPackage, unit := hartDie h, subunit := h, reason := 0x0A5A, cls := 0x02, verdict := vTransient } none
    (hartFaults h kind s)

/-- Another hart's store to a line ends a reservation on it (R346). -/
def dropResv (h line : Nat) (s : State) : State :=
  { s with cores.resv := s.cores.resv.filter (fun e => e.1 == h || e.2 != line) }

/-- A store of a core into device memory, which its die owns while it is performed. -/
def coreWrite (h pa n v : Nat) (s : State) : State :=
  (linesOf pa n).foldl (fun t l => dropResv h l t) (devWrite pa n v (rangeAccess .rdx (hartPort h) pa n s))

/-- A range touches the mirrored device table, which the cores never read or write (R348). -/
def inDeviceTable (s : State) (pa n : Nat) : Bool := s.xl.areaBytes != 0 && rangesMeet pa n s.xl.area s.xl.areaBytes

/-- Device memory a core may access: neither the bias table (R309) nor the mirrored device table (R348) is among it. -/
def coreMem (s : State) (pa n : Nat) : Bool := isDevMem pa n && !inBiasTable s pa n && !inDeviceTable s pa n

/-- A core's access to the bias table sends a notice with 0x0527 (R306, R312) beside the access fault. -/
def coreBarred (h kind pa n : Nat) (s : State) : State :=
  let t := hartFaults h kind s
  if isDevMem pa n && inBiasTable s pa n then tableRefused pa t else t

/-- A load or fetch from device memory. -/
def coreLoad (h kind pa n : Nat) (s : State) : State :=
  let t := rangeAccess .rds (hartPort h) pa n s
  if physPoison t pa n then hartPoison h kind t else hartGets h (readNum t pa n) t

/-- Configuration space as the cores reach it in the self-hosted role: ECAM in the Obiolo region (R366). -/
def isEcam (s : State) (pa : Nat) : Bool := selfHosted s && obioloBase + 0x1000000 ≤ pa && pa < obioloBase + 0x2000000

/-- A core's load from configuration space, within one 4-byte word; what a function below the port answers is a free value. -/
def ecamLoad (h pa n : Nat) (s : State) : State :=
  let off := pa - obioloBase - 0x1000000
  if 4 < n || pa % n != 0 then hartGets h 0 (barBad s)
  else
    let t := ecam (off / 0x100000) (off / 4096 % 256) (off % 4096 / 4) none (some (freshVal s % 2 ^ 32)) s
    hartGets h (t.link.lastCfg >>> (8 * (off % 4)) % 256 ^ n) (drawn t)

/-- A core's store to configuration space, within one 4-byte word. -/
def ecamStore (h pa n v : Nat) (s : State) : State :=
  let off := pa - obioloBase - 0x1000000
  let bus := off / 0x100000
  let fn := off / 4096 % 256
  let w := off % 4096 / 4
  if 4 < n || pa % n != 0 then hartGets h 0 (barBad s)
  else if bus = 0 then
    let lo := 8 * (off % 4)
    hartGets h 0 (ecam 0 fn w (some (withBits (tgetD s.link.rpCfg w 0) (lo + 8 * n - 1) lo v)) none s)
  else hartGets h 0 (if flagSet s hlStatusLinkUp 0 then hostSend (.cfgWrite bus fn (off % 4096) n v) s else s)

/-- An uncached load: the Obiolo region, an interrupt file, the package timer or a part of it, the host-link window (R40, R345,
R350). Log entry 160. -/
def ioLoad (h pa n : Nat) (s : State) : State :=
  if isEcam s pa then ecamLoad h pa n s
  else if isObiolo pa n then (let r := barRead (pa - obioloBase) n s; hartGets h r.1 r.2)
  else if isImsic pa n then
    if (pa - imsicBase) / 4096 < 192 then hartGets h 0 s else hartGets h (freshVal s % 256 ^ n) (drawn s)
  else if isTimerPage pa n then
    if pa + n ≤ timerBase + 8 then hartGets h (timeOn s (hartDie h) / 256 ^ (pa - timerBase) % 256 ^ n) s else hartGets h (freshVal s % 256 ^ n) (drawn s)
  else if isHostWin pa n then
    if physPoison s pa n then hartPoison h 2 s
    else if hostFate s != 0 then hartPoison h 2 (drawn (fateFlag (hostFate s) (hostAsk pa n s)))
    else hartGets h (freshVal s % 256 ^ n) (drawn (hostAsk pa n s))
  else hartFaults h 2 s

/-- An uncached store; writes of the package timer are ignored. -/
def ioStore (h pa n v : Nat) (s : State) : State :=
  if isEcam s pa then ecamStore h pa n v s
  else if isObiolo pa n then hartGets h 0 (barWrite (pa - obioloBase) n v s)
  else if isImsic pa n then hartGets h 0 (imsicWrite pa n v s)
  else if isTimerPage pa n then hartGets h 0 s
  else if isHostWin pa n then hartGets h 0 (writePhys pa n v s)
  else hartFaults h 3 s

/-- CORE_MEMORY_ACCESS of 2^size bytes (R341, R345, R349). -/
def coreAccess (h pa : Nat) (acc : CoreAcc) (size v : Nat) (s : State) : State :=
  let n := 2 ^ size
  if !coreUp s h then s
  else if coreMem s pa n then
    match acc with
    | .store => hartGets h 0 (coreWrite h pa n (v % 256 ^ n) s)
    | .load => coreLoad h 2 pa n s
    | _ => coreLoad h 1 pa n s
  else match acc with
    | .load => if isDevMem pa n then coreBarred h 2 pa n s else ioLoad h pa n s
    | .store => if isDevMem pa n then coreBarred h 3 pa n s else ioStore h pa n (v % 256 ^ n) s
    | _ => coreBarred h 1 pa n s

/-- What an atomic leaves in memory. -/
def amoNew (op : CoreAmo) (n old x : Nat) : Nat :=
  let w := 8 * n
  let y := x % 2 ^ w
  match op with
  | .swap => y
  | .add => (old + y) % 2 ^ w
  | .and => old &&& y
  | .or => old ||| y
  | .xor => old ^^^ y
  | .min => if signedOf w old ≤ signedOf w y then old else y
  | .max => if signedOf w old ≤ signedOf w y then y else old
  | .minu => min old y
  | .maxu => max old y
  | .lr => old
  | .sc => y

/-- A word as a 64-bit register receives it. -/
def signExt (n v : Nat) : Nat := ofSigned 64 (signedOf (8 * n) v)

/-- CORE_AMO: performed in the die's caches while the die owns the line (R346). -/
def coreAmo (h pa : Nat) (op : CoreAmo) (dbl : Bool) (x : Nat) (s : State) : State :=
  let n := if dbl then 8 else 4
  let kind := if op = .lr then 2 else 3
  if !coreUp s h then s
  else if !coreMem s pa n || pa % n != 0 then coreBarred h kind pa n s
  else if op = .sc then
    let ok := tget s.cores.resv h == some (pa / 128)
    let t : State := { s with cores.resv := tdel s.cores.resv h }
    if ok then hartGets h 0 (coreWrite h pa n (amoNew op n 0 x) t) else hartGets h 1 t
  else
    let t := rangeAccess .rdx (hartPort h) pa n s
    if physPoison t pa n then hartPoison h kind t
    else if op = .lr then hartGets h (signExt n (readNum t pa n)) { t with cores.resv := tput t.cores.resv h (pa / 128) }
    else hartGets h (signExt n (readNum t pa n)) (coreWrite h pa n (amoNew op n (readNum t pa n) x) t)

/-- CBO.ZERO of the 64-byte block that holds the address (R344). -/
def cboZeroBlock (h pa : Nat) (s : State) : State :=
  let a := pa / 64 * 64
  if !coreUp s h then s
  else if !coreMem s a 64 then coreBarred h 3 a 64 s
  else hartGets h 0 (dropResv h (a / 128) (devWrite a 64 0 (rangeAccess .rdx (hartPort h) a 64 s)))

/-- A range open to the cores that their caches do not hold. -/
def coreIo (pa : Nat) : Bool := isObiolo pa 1 || isImsic pa 1 || isTimerPage pa 1 || isHostWin pa 1

/-- CBO.CLEAN of the 128-byte line: modified data is written back, and the copy stays (R344). -/
def cboCleanLine (h pa : Nat) (s : State) : State :=
  let line := pa / 128
  if !coreUp s h then s
  else if coreMem s pa 1 then
    hartGets h 0 (agentCleans (hartPort h) line s)
  else if coreIo pa then hartGets h 0 s
  else coreBarred h 3 pa 1 s

/-- CBO.FLUSH of the 128-byte line, and CBO.INVAL, which is performed as CBO.FLUSH at every privilege level (R344). -/
def cboFlushLine (h pa : Nat) (s : State) : State :=
  let line := pa / 128
  if !coreUp s h then s
  else if coreMem s pa 1 then
    hartGets h 0 (agentGivesUp (hartPort h) line s)
  else if coreIo pa then hartGets h 0 s
  else coreBarred h 3 pa 1 s

/-- An instruction retires: minstret counts it; mcycle counts the steps of the issue stage it took, a free number of at least one
(R351; log entry 137). -/
def retires (h : Nat) (s : State) : State :=
  let x := hart s h
  drawn (setHart h { x with minstret := (x.minstret + 1) % 2 ^ 64, mcycle := (x.mcycle + 1 + freshVal s) % 2 ^ 64 } s)

/-- An instruction of a hart: it retires unless it faults. -/
def coreInstr (h : Nat) (f : State → State) (s : State) : State :=
  if !coreUp s h then s
  else
    let t := f s
    if (hart t h).fault = 0 then retires h t else t

/-- CORE_TIMER_INTERRUPT: a comparator against the local timer copy of the core's die (R350). -/
def coreTimer (h : Nat) (supervisor : Bool) (cmp : Nat) (s : State) : State :=
  let due := decide (cmp ≤ localTime s (hartDie h))
  if !coreUp s h then s
  else if supervisor then setHart h { hart s h with stimecmp := cmp, stip := due } s
  else setHart h { hart s h with mtimecmp := cmp, mtip := due } s

/-- CORE_RUNTIME_WATCHDOG: the host die resets (R355). -/
def coreWatchdog (k : Nat) (s : State) : State := leaveDie (24 + k) 0x02 s

end Sys2Proof.Machine
end

