-- ==== Sys2Proof/Machine/CoreFp.lean ====
section
/-! DEFINITION. Sys2Proof/Machine/CoreFp.lean: F and D arithmetic of the application cores under fcsr (R343). A
fetch of one of these instructions performs it (CORE_MEMORY_ACCESS); the control and status registers of a core stand here too. -/
namespace Sys2Proof.Machine

/-- fcsr: bits 4–0 hold the flags NV DZ OF UF NX, bits 7–5 the dynamic rounding mode. -/
def fcsrMode (fcsr : Nat) : Nat := bitsOf fcsr 7 5

/-- A rounding mode of an instruction or of fcsr: RNE, RTZ, RDN, RUP, RMM; 7 in an instruction takes that of fcsr; others are
reserved. -/
def coreMode (fcsr rm : Nat) : Option RMode :=
  match if rm = 7 then fcsrMode fcsr else rm with
  | 0 => some .rne | 1 => some .rz | 2 => some .rd | 3 => some .ru | 4 => some .rmm | _ => none

/-- Flags as fcsr holds them. -/
def fcsrFlags (fl : Nat) : Nat :=
  bit (fl &&& fIX != 0) + 2 * bit (fl &&& fUF != 0) + 4 * bit (fl &&& fOF != 0) + 8 * bit (fl &&& fDZ != 0) + 16 * bit (fl &&& fIV != 0)

/-- An F register as an operand: a single that is not boxed in ones is the canonical NaN. -/
def fregOperand (x : Hart) (dbl : Bool) (r : Nat) : Num :=
  let v := tgetD x.fregs r 0
  if dbl then (decodeNum .fp64 true v).1
  else (decodeNum .fp32 true (if v / 2 ^ 32 = 2 ^ 32 - 1 then v % 2 ^ 32 else canonNan .fp32)).1

/-- MIN and MAX of IEEE 754-2019: the number where one operand is a NaN, −0 below +0. -/
def coreMinMax (isMin : Bool) (a b : Num) : Num :=
  if numIsNan a then b else if numIsNan b then a else if fpLess b a == isMin then b else a

/-- The result of an operation on exact operands: the code of a floating-point result or the bit of a compare, and its flags.
Subnormals are kept whatever SUBN is, and signalling NaNs raise NV (R343). -/
def coreFpResult (op : CoreFpOp) (f : Fmt) (mode : RMode) (a b c : Num) : Nat × Nat :=
  let ar : Arith := { rmode := mode, subn := true, strict := true }
  let done := fun (r : Num × Nat) => let q := roundNum f ar 0 r.1; (q.1, q.2 ||| r.2 ||| snanFlag true [a, b])
  let ordered := fun (quiet : Bool) (ok : Ordering → Bool) => match cmpNum a b with
    | some o => (bit (ok o), 0)
    | none => (0, if quiet then snanFlag true [a, b] else fIV)
  match op with
  | .add => done (addNum mode a b)
  | .sub => done (addNum mode a (numNegate b))
  | .mul => done (mulNum a b)
  | .div => divRound f ar 0 a b
  | .sqrt => sqrtRound f ar 0 a
  | .madd => fmaRound f ar 0 a b c
  | .msub => fmaRound f ar 0 a b (numNegate c)
  | .nmsub => fmaRound f ar 0 (numNegate a) b c
  | .nmadd => fmaRound f ar 0 (numNegate a) b (numNegate c)
  | .min => done (coreMinMax true a b, 0)
  | .max => done (coreMinMax false a b, 0)
  | .eq => ordered true (· == .eq)
  | .lt => ordered false (· == .lt)
  | .le => ordered false (· != .gt)

/-- A compare answers in an integer register. -/
def isCompare (op : CoreFpOp) : Bool := op == .eq || op == .lt || op == .le

/-- A hart performs an F or D operation on registers `ra`, `rb`, `rc` into `rd`: the flags join those in fcsr, and the instruction
retires (R351). A reserved rounding mode is an illegal instruction of the core. -/
def coreFp (h : Nat) (op : CoreFpOp) (dbl : Bool) (rm rd ra rb rc : Nat) (s : State) : State :=
  let x := hart s h
  match coreMode x.fcsr rm with
  | none => hartFaults h 4 s
  | some mode =>
    let f : Fmt := if dbl then .fp64 else .fp32
    let r := coreFpResult op f mode (fregOperand x dbl ra) (fregOperand x dbl rb) (fregOperand x dbl rc)
    let y := { x with fcsr := x.fcsr ||| fcsrFlags r.2 }
    retires h (setHart h (if isCompare op then { y with result := r.1 }
      else { y with fregs := tput y.fregs rd (if dbl then r.1 else (2 ^ 32 - 1) * 2 ^ 32 + r.1) }) s)

/-! ## Conversions (R343; the results at the ends of the integer ranges are the RISC-V standard's, PRESUMED, log entry 189) -/

/-- A number as an integer of `w` bits, and flags: NV out of range or for a NaN, else NX where it is inexact. -/
def coreToInt (w : Nat) (uns : Bool) (mode : RMode) (x : Num) : Nat × Nat :=
  let top := if uns then 2 ^ w - 1 else 2 ^ (w - 1) - 1
  let low := if uns then 0 else 2 ^ (w - 1)
  match x with
  | .nan _ => (top, fIV)
  | .inf n => (if n then low else top, fIV)
  | .fin neg m e =>
    let v := roundInt mode neg m e
    if v < (if uns then 0 else -(2 ^ (w - 1) : Int)) then (low, fIV)
    else if (top : Int) < v then (top, fIV)
    else (ofSigned w v, intInexact true m e)

/-- An integer operand of `w` bits as a number. -/
def coreFromInt (w : Nat) (uns : Bool) (x : Nat) : Num :=
  let y := x % 2 ^ w
  let v : Int := if uns then y else signedOf w y
  .fin (decide (v < 0)) v.natAbs 0

/-- A value for an F register: a single is boxed in ones. -/
def freg (dbl : Bool) (v : Nat) : Nat := if dbl then v else (2 ^ 32 - 1) * 2 ^ 32 + v

/-- A hart writes an F register, its flags join those in fcsr, and the instruction retires. -/
def fregGets (h rd v fl : Nat) (s : State) : State :=
  let x := hart s h
  retires h (setHart h { x with fregs := tput x.fregs rd v, fcsr := x.fcsr ||| fcsrFlags fl, fault := 0 } s)

/-- A hart's integer result of an instruction, with flags. -/
def intGets (h v fl : Nat) (s : State) : State :=
  let x := hart s h
  retires h (setHart h { x with result := v, fcsr := x.fcsr ||| fcsrFlags fl, fault := 0 } s)

/-- Conversions under a rounding mode; a reserved one is an illegal instruction. -/
def coreConvert (h rm : Nat) (f : RMode → State → State) (s : State) : State :=
  match coreMode (hart s h).fcsr rm with
  | none => hartFaults h 4 s
  | some mode => f mode s

/-! ## Control and status registers (R341, R343, R350–R352) -/

/-- misa: MXL of 64 bits and the letters A B C D F I M S U V of RVA23 (PRESUMED, log entry 189); H reads 0 (R341). -/
def coreMisa : Nat := 2 * 2 ^ 62 + ([0, 1, 2, 3, 5, 8, 12, 18, 20, 21].map (2 ^ ·)).foldl (· + ·) 0

def fileKey (h : Nat) (m : Bool) : Nat := h * 2 + bit m
def fileOf (s : State) (h : Nat) (m : Bool) : ImsicFile := tgetD s.cores.files (fileKey h m) {}
def setFile (h : Nat) (m : Bool) (f : ImsicFile) (s : State) : State := { s with cores.files := tput s.cores.files (fileKey h m) f }

/-- The lowest identity pending and enabled in a file, below its threshold where that is not 0; 0 if none. -/
def topInt (s : State) (h : Nat) (m : Bool) : Nat :=
  let f := fileOf s h m
  let ids := (tgetD s.cores.imsic (fileKey h m) []).filter (fun i => f.enabled.contains i && (f.threshold == 0 || decide (i < f.threshold)))
  ids.foldl (fun a i => if a = 0 ∨ i < a then i else a) 0

/-- The lowest privilege mode that may access a CSR. -/
def csrMode : CoreCsr → Nat
  | .satp => 1
  | .stimecmp => 1
  | .mcycle => 3
  | .minstret => 3
  | .misa => 3
  | .eidelivery m => if m then 3 else 1
  | .eithreshold m => if m then 3 else 1
  | .eie m _ => if m then 3 else 1
  | .topei m => if m then 3 else 1
  | _ => 0

/-- CSRs that the unprivileged architecture reads only. -/
def csrReadOnly (c : CoreCsr) : Bool := c == .time || c == .cycle || c == .instret

/-- The value of a CSR; the time CSR is the package timer (R350). -/
def csrValue (s : State) (h : Nat) : CoreCsr → Nat
  | .time => timeOn s (hartDie h)
  | .cycle => (hart s h).mcycle
  | .mcycle => (hart s h).mcycle
  | .instret => (hart s h).minstret
  | .minstret => (hart s h).minstret
  | .fcsr => (hart s h).fcsr
  | .misa => coreMisa
  | .satp => (hart s h).satp
  | .stimecmp => (hart s h).stimecmp
  | .eidelivery m => bit (fileOf s h m).delivery
  | .eithreshold m => (fileOf s h m).threshold
  | .eie m id => bit ((fileOf s h m).enabled.contains id.val)
  | .topei m => topInt s h m * 65537

/-- A CSR takes a value. satp holds Bare or Sv57 only (R341); misa does not change; a write of topei claims the topmost interrupt. -/
def csrPut (h : Nat) (c : CoreCsr) (v : Nat) (s : State) : State :=
  let x := hart s h
  match c with
  | .mcycle => setHart h { x with mcycle := v } s
  | .minstret => setHart h { x with minstret := v } s
  | .fcsr => setHart h { x with fcsr := v % 256 } s
  | .satp => if bitsOf v 63 60 = 0 ∨ bitsOf v 63 60 = 10 then setHart h { x with satp := v } s else s
  | .stimecmp => setHart h { x with stimecmp := v, stip := decide (v ≤ localTime s (hartDie h)) } s
  | .eidelivery m => setFile h m { fileOf s h m with delivery := v.testBit 0 } s
  | .eithreshold m => setFile h m { fileOf s h m with threshold := v % 256 } s
  | .eie m id => setFile h m { fileOf s h m with
      enabled := if v.testBit 0 then setAdd (fileOf s h m).enabled id.val else setDel (fileOf s h m).enabled id.val } s
  | .topei m => { s with cores.imsic := tput s.cores.imsic (fileKey h m) (setDel (tgetD s.cores.imsic (fileKey h m) []) (topInt s h m)) }
  | _ => s

/-! ## One instruction -/

/-- A hart performs an instruction that it has fetched; `x` is its integer operand. -/
def corePerforms (h : Nat) (i : CoreInsn) (x : Nat) (s : State) : State :=
  match i with
  | .fp op dbl rm rd ra rb rc => coreFp h op dbl rm rd ra rb rc s
  | .toInt dbl wide uns rm ra => coreConvert h rm (fun mode s =>
      let w := if wide then 64 else 32
      let r := coreToInt w uns mode (fregOperand (hart s h) dbl ra)
      intGets h (signExt (w / 8) r.1) r.2 s) s
  | .fromInt dbl wide uns rm rd => coreConvert h rm (fun mode s =>
      let r := roundNum (if dbl then .fp64 else .fp32) { rmode := mode, subn := true, strict := true } 0 (coreFromInt (if wide then 64 else 32) uns x)
      fregGets h rd (freg dbl r.1) r.2 s) s
  | .toDouble rd ra =>
    let a := fregOperand (hart s h) false ra
    fregGets h rd (roundNum .fp64 { rmode := .rne, subn := true, strict := true } 0 a).1 (snanFlag true [a]) s
  | .toSingle rm rd ra => coreConvert h rm (fun mode s =>
      let a := fregOperand (hart s h) true ra
      let r := roundNum .fp32 { rmode := mode, subn := true, strict := true } 0 a
      fregGets h rd (freg false r.1) (r.2 ||| snanFlag true [a]) s) s
  | .moveIn dbl rd => fregGets h rd (freg dbl (if dbl then x else x % 2 ^ 32)) 0 s
  | .moveOut dbl ra =>
    let v := tgetD (hart s h).fregs ra 0
    intGets h (if dbl then v else signExt 4 (v % 2 ^ 32)) 0 s
  | .csrRead c => if (hart s h).mode < csrMode c then hartFaults h 4 s else intGets h (csrValue s h c) 0 s
  | .csrWrite c =>
    if (hart s h).mode < csrMode c || csrReadOnly c then hartFaults h 4 s else csrPut h c x (intGets h (csrValue s h c) 0 s)

/-- A hart fetches an instruction and, without an access fault, performs it. -/
def coreStep (h pa : Nat) (i : CoreInsn) (x : Nat) (s : State) : State :=
  if !coreUp s h then s
  else
    let t := coreAccess h pa .fetch 2 0 s
    if (hart t h).fault = 0 then corePerforms h i x t else t

end Sys2Proof.Machine
end

