-- ==== Sys2Proof/Machine/Power.lean ====
section
/-! DEFINITION. Sys2Proof/Machine/Power.lean: rate ceilings and ageing, gating, droop, the cap controller, phases, heat, trips
and the power commands (R481–R498). -/
namespace Sys2Proof.Machine

/-- The power controller runs: the west I/O die is in service and the module has input power. -/
def pwAlive (s : State) : Bool := dieUp s 26 && s.elec.input && !s.pins.testReset

/-! ## Trips (R493) -/

/-- The host link goes down; nothing of the package is left to answer for it. -/
def hostGoesDown (s : State) : State :=
  if !flagSet s hlStatusLinkUp 0 then s
  else
    raise flHlStatusHostLost 0 (bump hlStatusLinkEpoch 0 1 (setF hlStatusSpeed 0 0 (setF hlStatusWidth 0 0 (setF hlStatusLinkUp 0 0
      { s with link.heldOut := [], link.reads := [] }))))

/-- Dies that a trip holds in reset: all but the west I/O die and the Loam. -/
def heldDies : List Nat := (List.range 26) ++ [27]

/-- R493 steps 1 to 3: fences closed but that of the west I/O die, other dies held in reset, every link down. -/
def tripSteps (s : State) : State :=
  let t := (List.range 41).foldl (fun t l => setF ddLinkStatusState l 2
    (loamMod l (fun x => { x with move := none, optical := false, tests := [], buf := [] }) t)) s
  let t := heldDies.foldl (fun t d => if getF t ddDieStatusState d = 0 then setF ddDieStatusState d 2 t else t) t
  let t := (List.range 4).foldl (fun t p => if getF t netPortStatusState p = 0 then t
    else raise flNetPortStatusLinkDown p (setF netPortStatusState p 0 t)) t
  let t := (List.range 16).foldl (fun t p => setF tfPortStatusLanesUsed p 0 (setF tfPortStatusWidth p 0 t)) t
  hostGoesDown (setF obStatusReady 0 0 (fenceAll t))

/-- The record of a trip: the die and its temperature. -/
def tripRecord (d temp reason : Nat) (s : State) : State :=
  writeErr { level := lvPackage, unit := d, reason := reason, detail := d * 256 + temp, cls := 0x06, verdict := vLasting } none s

/-- A trip: one runs at a time; during a start that is due, the start fails with the trip's cause (Table SB-10). -/
def trip (d temp reason : Nat) (s : State) : State :=
  if !pwAlive s || s.pw.tripped || s.start.halted then s
  else tripSteps { tripRecord d temp reason (startDue 1 6 s) with pw.tripped := true, start.running := false, start.errorEnd := true }

/-! ## Heat (R492) -/

/-- Throttle start, full throttle and trip of a die; the Loam's laser sites only trip (Table PW-5). -/
def heatLimits (d : Nat) : Nat × Nat × Nat :=
  if d = 28 then (256, 256, 95) else if 8 ≤ d ∧ d < 24 then (90, 100, 110) else (95, 105, 110)

/-- BAND of a temperature. -/
def heatBand (d temp : Nat) : Nat :=
  let l := heatLimits d
  if l.2.2 ≤ temp then 3 else if l.2.1 ≤ temp then 2 else if l.1 ≤ temp then 1 else 0

/-- The condition record 0x0631 of a die closes. -/
def heatCloses (d : Nat) (s : State) : State :=
  { s with err.pend := s.err.pend.filter (fun p => !(p.reason == 0x0631 && p.unit == d)) }

/-- A die reaches throttle start: THROTTLE and a pending 0x0631, once until it falls below. -/
def heatStarts (d : Nat) (s : State) : State :=
  if s.err.pend.any (fun p => p.reason == 0x0631 && p.unit == d) then s
  else writeErr { level := lvPackage, unit := d, reason := 0x0631, detail := getF s dieTempTemp d, cls := 0x06, verdict := vPending } none
    (raise flPwStatusThrottle 0 s)

/-- TEMP_SAMPLE: the die's temperature is the highest of its working sensors, at the laser sites for the Loam. -/
def tempSample (d temp laser sensors : Nat) (s : State) : State :=
  if !pwAlive s then s
  else if sensors = 0 then
    let t := setF dieTempBand d 2 (setF dieTempSensorsOk d 0 s)
    if getF s dieTempSensorsOk d = 0 then t
    else writeErr { level := lvPackage, unit := d, reason := 0x0632, cls := 0x06, verdict := vLasting } none (raise flPwStatusSensorErr 0 t)
  else
    let c := if d = 28 then laser else temp
    let b := heatBand d c
    let t := setF dieTempBand d b (setF dieTempSensorsOk d sensors (setF dieTempPeak d (max c (getF s dieTempPeak d)) (setF dieTempTemp d c s)))
    if b = 0 then heatCloses d t
    else if b = 3 then trip d c 0x0630 (if d = 28 then t else heatStarts d t)
    else heatStarts d t

/-- Every sensor lies 15 °C below its die's throttle start (R493 step 5). -/
def coolAgain (s : State) : Bool := (List.range 28).all (fun d => decide (getF s dieTempTemp d + 15 ≤ (heatLimits d).1))

/-- THERMAL_TRIP. -/
def thermalTrip (d temp : Nat) (s : State) : State :=
  if temp < (heatLimits d).2.2 then s else trip d temp 0x0630 s

/-- INPUT_RANGE_TRIP. -/
def inputTrip (s : State) : State := trip 26 0 0x0641 s

/-- THERM_HOLD_TIMEOUT (R276): the stack has held its requests for 10 ms. -/
def thermHold (h : Nat) (s : State) : State :=
  if flagSet s hayStatusThermHold h then trip (8 + h) (getF s dieTempTemp (8 + h)) 0x0630 s else s

/-! ## Ceilings (R484–R486) -/

/-- A Tuft's ceiling after `percent` of added delay. -/
def agedCeil (fused percent : Nat) : Nat := fused - fused * percent / 100

/-- AGEING_MEASURE: the ceiling falls where the monitor says so; it is kept in flash and waits for the Tuft to have no task. -/
def ageingMeasure (t percent : Nat) (s : State) : State :=
  let new := agedCeil (getF s tuftCeilFused t) percent
  let now := tgetD s.pw.dueCeil t (getF s tuftCeilCeil t)
  if !pwAlive s || !meadowUp s (t / 128) || getF s tuftCeilState t = 3 || now ≤ new then s
  else notice 0x0621 t (t / 128) (raise flPwStatusAge 0 { s with pw.flashCeil := tput s.pw.flashCeil t new, pw.dueCeil := tput s.pw.dueCeil t new })

/-- A ceiling that waited takes effect; below 2,160 M steps/s the Tuft is withdrawn, and its Sward repaired. -/
def ceilFalls (t new : Nat) (s : State) : State :=
  let u := setF tuftCeilCeil t new { s with pw.dueCeil := tdel s.pw.dueCeil t }
  if 2160 ≤ new then u
  else
    let v := setF tuftCeilState t 3 { u with err.out := u.err.out ++ [{ level := lvTuft, unit := t }] }
    let w := writeErr { level := lvTuft, unit := t, reason := 0x0620, cls := 0x06, verdict := vLasting, out := true } none v
    if spareFree w (t / 128) then swardRepair (t / 8) (t % 8) noLink false w else w

/-- Ceilings that wait take effect on Tufts that have no task. -/
def ceilCheck (s : State) : State :=
  s.pw.dueCeil.foldl (fun t e => if (tuft t e.1).task.isNone then ceilFalls e.1 e.2 t else t) s

/-! ## Gating (R487) -/

/-- TUFT_GATE: an idle Tuft with no task is gated, unless GATE_IDLE_US is 0. -/
def tuftGate (t : Nat) (s : State) : State :=
  if pwAlive s && meadowUp s (t / 128) && getF s tuftCeilState t == 1 && (tuft s t).task.isNone && getF s pwCtrlGateIdleUs 0 != 0 then
    setF tuftCeilState t 2 s
  else s

/-- TUFT_WAKE_DONE: a gated Tuft on which a task has been placed is active. -/
def tuftWake (t : Nat) (s : State) : State :=
  if getF s tuftCeilState t == 2 && (tuft s t).task.isSome then setF tuftCeilState t 0 s else s

/-! ## Droop (R488, R489) -/

/-- DROOP_GUARD_FIRE. -/
def droopFire (sw : Nat) (s : State) : State :=
  if !meadowUp s (sw / 16) || flagSet s swardPwGuard sw then s
  else
    let now := cpTime s
    let fires := now :: (tgetD s.pw.fires sw []).filter (fun x => now - x < 100000)
    bump swardPwDroopEvents sw 1 (setF swardPwGuard sw 1 { s with pw.fires := tput s.pw.fires sw fires })

/-- DROOP_GUARD_RELEASE. -/
def droopRelease (sw : Nat) (s : State) : State := setF swardPwGuard sw 0 s

/-- STEP_RATE_WINDOW: the count is latched; a Sward that is 5 % slow, and whose guard has fired 16 times within 100 µs, gets
10 mV more while its budget allows (R34, R489). -/
def stepWindow (u steps expected : Nat) (budgetOk : Bool) (s : State) : State :=
  let t := setF stepRateSteps u steps s
  let fires := ((tgetD s.pw.fires u []).filter (fun x => cpTime s - x < 100000)).length
  if u < 128 ∧ steps * 100 ≤ expected * 95 ∧ 16 ≤ fires ∧ budgetOk then
    setF swardPwSetpointMv u (min 800 (getF s swardPwSetpointMv u + 10)) t
  else t

/-! ## The cap controller (R490) -/

/-- The module cap: the lower of CAP_W and a management cap that is not 0 (R494). -/
def capNow (s : State) : Nat :=
  let m := getF s pwCtrlMgmtCapW 0
  if m = 0 then getF s pwCtrlCapW 0 else min (getF s pwCtrlCapW 0) (max 1500 m)

/-- Domains of Table PW-8: Meadows 0–7, 8 the Hayloft dies, 9 and 10 the host dies. Share of one in force; before the first
phase window each has the same. -/
def shareOf (s : State) (i : Nat) : Nat := if s.pw.shares = 0 then 23 else bitsOf s.pw.shares (8 * i + 7) (8 * i)

/-- A domain has a die in service. -/
def domainUp (s : State) (i : Nat) : Bool :=
  if i < 8 then dieUp s i else if i = 8 then (List.range 16).any (fun h => homeUp s h) else dieUp s (15 + i)

/-- Budget of a domain, in W: shares of dies out of service go to the others (Table PW-7). -/
def domainBudget (s : State) (fixed i : Nat) : Nat :=
  let gone := ((List.range 11).map (fun j => if domainUp s j then 0 else shareOf s j)).foldl (· + ·) 0
  if domainUp s i && decide (gone < 256) then (capNow s - fixed) * shareOf s i / (256 - gone) else 0

/-- A setpoint of VDD_TUFT within its range, in steps of 5 mV (Table PW-1). -/
def setpointOk (mv : Nat) : Nat := min 800 (max 680 (mv / 5 * 5))

/-- Shares of the Swards of the list, by demand, and each held within its budget in the order of Table PW-4. -/
def swardBudget (i : CapIn) (hold : Bool) (s : State) (x : SwardNo × W16 × BitVec 10 × Fin 8) : State :=
  let sw := x.1.val
  let m := sw / 16
  let demand := ((i.swards.filter (fun y => y.1.val / 16 == m)).map (fun y => y.2.1.toNat)).foldl (· + ·) 0
  let full := getF s dieTempBand m == 2
  let mv := if full then 680 else setpointOk x.2.2.1.toNat
  let duty := if full then 7 else if hold then 4 else if mv = 680 then x.2.2.2.val else 0
  let w := if demand = 0 then 0 else domainBudget s i.fixed.toNat m * x.2.1.toNat / demand
  setF swardPwDuty sw duty (setF swardPwSetpointMv sw mv (setF swardPwBudgetW sw w s))

/-- What the cap loop measured: INPUT_W, the domains' power, and whether the hold of a mean above the cap begins or goes on (R490). -/
def capMeasured (i : CapIn) (hold : Bool) (s : State) : State :=
  let t := setF pwStatusInputW 0 i.input.toNat { s with
    pw.hold := hold, pw.meadowsW := i.meadows.toNat, pw.hayloftW := i.hayloft.toNat, pw.hostsW := i.hosts.toNat }
  if hold && !s.pw.hold then
    writeErr { level := lvPackage, unit := 26, reason := 0x0640, detail := i.mean.toNat, cls := 0x06, verdict := vPending } none
      (raise flPwStatusOvercap 0 t)
  else if s.pw.hold && !hold then { t with err.pend := t.err.pend.filter (fun p => p.reason != 0x0640) }
  else t

/-- Every Sward's duty is at least 4 while the hold lasts (R490). -/
def holdDuty (s : State) : State :=
  (List.range 128).foldl (fun t sw => if getF t swardPwDuty sw < 4 then setF swardPwDuty sw 4 t else t) s

/-- The hold has ended: a Sward that only the hold had at duty 4 issues freely again. -/
def freeDuty (s : State) : State :=
  (List.range 128).foldl (fun t sw => if getF t swardPwDuty sw = 4 then setF swardPwDuty sw 0 t else t) s

/-- CAP_LOOP. -/
def capLoop (i : CapIn) (s : State) : State :=
  if !pwAlive s then s
  else
    let hold := i.aboveCap || (s.pw.hold && decide (capNow s < i.mean.toNat))
    let free := if s.pw.hold && !hold then freeDuty s else s
    let t := i.swards.foldl (swardBudget i hold) (capMeasured i hold free)
    if hold then holdDuty t else t

/-! ## Phases (R491) -/

def phaseGet (s : State) (n : Nat) : Nat := tgetD s.pw.phases n 0
def phasePut (n v : Nat) (s : State) : State := { s with pw.phases := if v = 0 then tdel s.pw.phases n else tput s.pw.phases n v }
def phaseValid (v : Nat) : Bool := v.testBit 127
def phaseHits (v : Nat) : Nat := bitsOf v 119 112
def phaseShares (v : Nat) : Nat := bitsOf v 111 24
def phaseLevels (v : Nat) : Nat := bitsOf v 23 0

/-- Summed distance of six levels. -/
def levelDistance (a b : Nat) : Nat :=
  ((List.range 6).map (fun i =>
    let x := bitsOf a (4 * i + 3) (4 * i)
    let y := bitsOf b (4 * i + 3) (4 * i)
    (x - y) + (y - x))).foldl (· + ·) 0

/-- The entry of least `key` among those of the list, the lower index on ties. -/
def leastBy (key : Nat → Nat) (ns : List Nat) : Option Nat :=
  ns.foldl (fun acc n => match acc with | none => some n | some m => if key n < key m then some n else some m) none

/-- The entry that matches a signature. -/
def phaseMatch (s : State) (levels : Nat) : Option Nat :=
  let key := fun n => levelDistance (phaseLevels (phaseGet s n)) levels
  (leastBy key ((List.range 64).filter (fun n => phaseValid (phaseGet s n)))).filter (fun n => key n ≤ 6)

/-- The entry that a new one replaces: an invalid one, else that of fewest HITS. -/
def phaseVictim (s : State) : Nat :=
  match (List.range 64).find? (fun n => !phaseValid (phaseGet s n)) with
  | some n => n
  | none => (leastBy (fun n => phaseHits (phaseGet s n)) (List.range 64)).getD 0

/-- The adjustment at the end of a matched window: 2/256 moves from the second domain to the first. -/
def phaseShift (x : Option (Fin 11 × Fin 11)) (s : State) : State :=
  match x with
  | none => s
  | some (dest, from_) =>
    let n := getF s pwStatusPhase 0
    let v := phaseGet s n
    let lo := fun (i : Fin 11) => 24 + 8 * i.val
    let a := bitsOf v (lo dest + 7) (lo dest)
    let b := bitsOf v (lo from_ + 7) (lo from_)
    if flagSet s pwStatusPhaseV 0 && flagSet s pwCtrlLearn 0 && phaseValid v && dest != from_ && decide (2 ≤ b) && decide (a + 2 < 256) then
      phasePut n (withBits (withBits v (lo dest + 7) (lo dest) (a + 2)) (lo from_ + 7) (lo from_) (b - 2)) s
    else s

/-- PHASE_WINDOW: match, learn, or the shares measured govern. -/
def phaseWindow (levels shares : Nat) (shift : Option (Fin 11 × Fin 11)) (s : State) : State :=
  if !pwAlive s then s
  else
    let t := phaseShift shift s
    match phaseMatch t levels with
    | some n =>
      let v := phaseGet t n
      let t := phasePut n (withBits v 119 112 (min 255 (phaseHits v + 1))) t
      setF pwStatusPhase 0 n (setF pwStatusPhaseV 0 1 { t with pw.shares := phaseShares v })
    | none =>
      let t := setF pwStatusPhaseV 0 0 (setF pwStatusPhase 0 0 { t with pw.shares := shares })
      if flagSet t pwCtrlLearn 0 then phasePut (phaseVictim t) (packBits [(1, 127), (shares, 24), (levels, 0)]) t else t

/-! ## Commands (R494, R496) -/

/-- CAP_SET. -/
def capSetBody (oc : OpenCmd) (s : State) : Body :=
  let w := wordBits oc.words 1 15 0
  checked [failIf (w < 1500 || 4200 < w) 0x0601] s
    (let t := setF pwCtrlLearn 0 (wordBits oc.words 1 24 24) (setF pwCtrlGateIdleUs 0 (wordBits oc.words 1 23 16) (setF pwCtrlCapW 0 w s))
     .ends (endDone (regRead t .pwCtrl 0) 0) t)

/-- Entries of the phase table that are valid. -/
def phasesValid (s : State) : Nat := ((List.range 64).filter (fun n => phaseValid (phaseGet s n))).length

/-- The phase table as 1,024 bytes. -/
def phaseTable (s : State) : Nat := (List.range 64).foldl (fun v n => v + phaseGet s n * 2 ^ (128 * n)) 0

/-- PHASE_READ. -/
def phaseReadBody (oc : OpenCmd) (s : State) : Body :=
  match translateRange (cpAccess (wordAt oc.words 1) false true) 1024 s with
  | (.runs rs, t) =>
    let code := hostCode (some oc.epoch) rs t
    if code != 0 then .ends (endFailed code 0) t else .ends (endDone (phasesValid t) 0) (ioPut 8 rs (phaseTable t) false t)
  | (.fail c, t) => .ends (endFailed c 0) t
  | (.stall, t) => .ends (endFailed 0x0201 0) t

/-- A phase entry with a reserved bit or a share sum above 256. -/
def phaseBad (v : Nat) : Bool :=
  bitsOf v 126 120 != 0 || decide (256 < ((List.range 11).map (fun i => bitsOf v (24 + 8 * i + 7) (24 + 8 * i))).foldl (· + ·) 0)

/-- PHASE_LOAD. -/
def phaseLoadBody (oc : OpenCmd) (s : State) : Body :=
  match cpRead oc.epoch (wordAt oc.words 1) 1024 0x0602 s with
  | (.error c, t) => if c = 0x0602 then refuseBody c t else .ends (endFailed c 0) t
  | (.ok v, t) =>
    let entry := fun (n : Nat) => (v >>> (128 * n)) % 2 ^ 128
    if (List.range 64).any (fun n => phaseBad (entry n)) then refuseBody 0x0602 t
    else
      let u := (List.range 64).foldl (fun u n => phasePut n (entry n) u) t
      .ends (endDone (phasesValid u) 0) u

/-- PW_READ. -/
def pwReadBody (_ : OpenCmd) (s : State) : Body :=
  .ends (endDone (packBits [(getF s pwStatusInputW 0, 0), (s.pw.meadowsW % 65536, 16), (s.pw.hayloftW % 65536, 32), (s.pw.hostsW % 65536, 48)])
    (cpTime s)) s

end Sys2Proof.Machine
end

