-- ==== Sys2Proof/Machine/Security.lean ====
section
/-! DEFINITION. Sys2Proof/Machine/Security.lean: images and their verification, module flash writes, measurement, attestation,
debug unlock, the SPDM responder (R517–R524, R533–R540). The two signature schemes stand in Config as opaque functions. -/
namespace Sys2Proof.Machine

/-- Gorse answers: the east I/O die is in service (R471). -/
def gorseUp (s : State) : Bool := dieUp s 27

/-! ## Images (R520–R522) -/

def imgMagic (h : Nat) : Nat := bitsOf h 31 0
def imgHdrVersion (h : Nat) : Nat := bitsOf h 47 32
def imgType (h : Nat) : Nat := bitsOf h 55 48
def imgKeySlot (h : Nat) : Nat := bitsOf h 63 56
def imgSvn (h : Nat) : Nat := bitsOf h 95 64
def imgVersion (h : Nat) : Nat := bitsOf h 191 128
def imgBodyBytes (h : Nat) : Nat := bitsOf h 255 192
def imgBodyHash (h : Nat) : Nat := bitsOf h 639 256
def imgRsaMod (h : Nat) : Nat := bitsOf h 3839 768
def imgSlhPub (h : Nat) : Nat := bitsOf h 4223 3840

/-- Bytes of an image before its body, and the largest image (Tables SB-2, SB-4). -/
def imgHead : Nat := 17408
def imgMax : Nat := 96 * 1048576

/-- Check 1 on the first 528 bytes and the region's size. -/
def imgHeaderBad (h : Nat) : Bool :=
  imgMagic h != 0x47535849 || imgHdrVersion h != 1 || decide (6 < imgType h) || decide (3 < imgKeySlot h) || decide (64 < imgSvn h) ||
    bitsOf h 127 96 != 0 || bitsOf h 767 640 != 0 || decide (imgMax < imgHead + imgBodyBytes h)

/-- The keys of a slot that is not revoked have the fused hashes (check 2). -/
def keysOk (s : State) (slot rsa slh : Nat) : Bool :=
  !s.sec.revoked.testBit slot && sha384 (leBytes 384 rsa) == Config.rootHash false slot && sha384 (leBytes 48 slh) == Config.rootHash true slot

/-- The checks of R522 on a whole image, in their order: 0, or the code of the first that fails. -/
def imageCode (s : State) (v n : Nat) : Nat :=
  let signed := leBytes 528 v
  if n < imgHead || imgMax < n || imgHeaderBad v || bitsOf v (8 * 17408 - 1) (8 * 17136) != 0 || n < imgHead + imgBodyBytes v then 0x0706
  else if !keysOk s (imgKeySlot v) (imgRsaMod v) (imgSlhPub v) then 0x0705
  else if imgSvn v < s.sec.svnMin then 0x0704
  else if !Config.rsaVerifies (imgRsaMod v) (bitsOf v (8 * 912 - 1) (8 * 528)) signed then 0x0701
  else if !Config.slhVerifies (imgSlhPub v) (bitsOf v (8 * 17136 - 1) (8 * 912)) signed then 0x0702
  else if sha384 (leBytes (imgBodyBytes v) (v >>> (8 * 17408))) != imgBodyHash v then 0x0703
  else 0

def bankKey (type : Nat) (bankB : Bool) : Nat := type * 2 + bit bankB

/-- Header bytes 0–527 of the image in a bank: as staged, else as the module left manufacture. -/
def bankHeader (s : State) (key : Nat) : Nat :=
  match tget s.sec.images key with
  | some b => b.header
  | none => Config.factoryHeader key

/-- SVN of the image in a bank. -/
def bankSvn (s : State) (key : Nat) : Nat :=
  match tget s.sec.images key with
  | some b => imgSvn b.header
  | none => imgSvn (Config.factoryHeader key) % 65

/-- The SHA-384 of the header bytes of the image in a bank (R533). -/
def bankMeasure (s : State) (key : Nat) : Nat :=
  match tget s.sec.images key with
  | some b => sha384 (leBytes 528 b.header)
  | none => Config.factoryMeasure key

def activeB (s : State) (type : Nat) : Bool := s.sec.active.testBit type

/-! ## Memory that the commands name by physical address -/

/-- The control processor reaches a physical range: every range of Table MS-1 that is not reserved (R258–R261). -/
def cpReach (pa n : Nat) : Bool :=
  isDevMem pa n || isHostWin pa n || isObiolo pa n || isImsic pa n || isTimerPage pa n || isDieWindow pa n

/-- `k` accesses of 8 bytes to the Obiolo region from `off` on: what they return. -/
def barReads : Nat → Nat → State → Nat × State
  | 0, _, s => (0, s)
  | k + 1, off, s =>
    let r := barRead off 8 s
    let q := barReads k (off + 8) r.2
    (r.1 + q.1 * 2 ^ 64, q.2)

/-- `k` writes of 8 bytes to the Obiolo region from `off` on. -/
def barWrites : Nat → Nat → Nat → State → State
  | 0, _, _, s => s
  | k + 1, off, v, s => barWrites k (off + 8) (v / 2 ^ 64) (barWrite off 8 (v % 2 ^ 64) s)

/-- Read `n` bytes at a physical address: value and poison. Host memory, interrupt files, die register windows and what lies beside
the timer's count give a free value. -/
def cpReadPa (pa n : Nat) (s : State) : Nat × Bool × State :=
  if isDevMem pa n then
    let t := rangeAccess .ncrd 10 pa n s
    (readNum t pa n, physPoison t pa n, t)
  else if isHostWin pa n then (freshVal s % 256 ^ n, physPoison s pa n, drawn (hostAsk pa n s))
  else if isObiolo pa n then (let r := barReads ((n + 7) / 8) (pa - obioloBase) s; (r.1 % 256 ^ n, false, r.2))
  else if isTimerPage pa n && decide (pa + n ≤ timerBase + 8) then (cpTime s / 256 ^ (pa - timerBase) % 256 ^ n, false, s)
  else (freshVal s % 256 ^ n, false, drawn s)

/-- Write `n` bytes at a physical address: the Obiolo region and the interrupt files take them as from any agent, the timer ignores
them; a die register window takes them, with no effect that the spec describes (log entry 135). -/
def cpWritePa (pa n v : Nat) (s : State) : State :=
  if isObiolo pa n then barWrites ((n + 7) / 8) (pa - obioloBase) v s
  else if isImsic pa n then imsicWrite pa n v s
  else if isHostWin pa n then (payloads pa n).foldl (fun t p => cpWrite (pa + p.1) p.2 (v / 256 ^ p.1 % 256 ^ p.2) t) s
  else cpWrite pa n v s

/-- Code of a command whose read of a physical range cannot be carried out: the link, a bridge window, or what the host answers
(R367, R379, R381, R387). -/
def cpReadCode (oc : OpenCmd) (pa n : Nat) (s : State) : Nat × State := readCode (some oc.epoch) [(0, pa, n)] s

/-- Code of a command that cannot send its bytes to a physical range. -/
def cpWriteCode (oc : OpenCmd) (pa n : Nat) (s : State) : Nat := hostCode (some oc.epoch) [(0, pa, n)] s

/-! ## Staging (R519, R538) -/

/-- Begin the flash write of a verified image into the inactive bank of its type. -/
def stageImage (cmd : Option Nat) (v n : Nat) (s : State) : State :=
  { s with sec.writing := some (.stage cmd (bankKey (imgType v) (!activeB s (imgType v))) (v % 2 ^ (8 * 528)) n) }

/-- IMAGE_STAGE. -/
def imageStageBody (oc : OpenCmd) (s : State) : Body :=
  let pa := wordAt oc.words 1
  let n := wordAt oc.words 2
  if !gorseUp s then refuseBody 0x0A22 s
  else if !cpReach pa n then .ends (endFailed 0x0501 0) s
  else if n < imgHead || imgMax < n then refuseBody 0x0706 (raise flSbStatusVerifyFail 0 s)
  else if s.sec.writing.isSome then waits oc s
  else if (cpReadCode oc pa n s).1 != 0 then .ends (endFailed (cpReadCode oc pa n s).1 0) (cpReadCode oc pa n s).2
  else
    let r := cpReadPa pa n s
    let code := if r.2.1 then 0x0706 else imageCode r.2.2 r.1 n
    if code != 0 then refuseBody code (raise flSbStatusVerifyFail 0 r.2.2) else .runs (stageImage (some oc.id) r.1 n r.2.2)

/-- Types of a mask whose staging into the inactive bank failed. -/
def stagingFailed (s : State) (mask : Nat) : Bool :=
  (List.range 7).any (fun t => mask.testBit t && (match tget s.sec.images (bankKey t (!activeB s t)) with | some b => !b.ok | none => false))

/-- The inactive banks of a mask of types become active for the next start. -/
def activateBanks (mask : Nat) (s : State) : State := { s with sec.active := s.sec.active ^^^ (mask % 128) }

/-- IMAGE_ACTIVATE. -/
def imageActivateBody (oc : OpenCmd) (s : State) : Body :=
  let mask := wordBits oc.words 1 6 0
  if s.sec.writing.isSome then waits oc s
  else if stagingFailed s mask then refuseBody 0x0712 s
  else (let t := activateBanks mask s; .ends (endDone t.sec.active 0) t)

/-- Key of the recovery image among the headers of manufacture. -/
def recoveryKey : Nat := 14

/-- SVN_COMMIT (R524). -/
def svnCommitBody (oc : OpenCmd) (s : State) : Body :=
  let v := wordBits oc.words 1 6 0
  if !gorseUp s then refuseBody 0x0A22 s
  else if (List.range 7).any (fun t => decide (bankSvn s (bankKey t (activeB s t)) < v)) || decide (bankSvn s recoveryKey < v) then refuseBody 0x0716 s
  else (let t : State := { s with sec.svnMin := max s.sec.svnMin v }; .ends (endDone t.sec.svnMin 0) t)

/-- FLASH_WRITE_DONE: the write ends, with 0x0712 where it failed. -/
def flashDone (ok : Bool) (s : State) : State :=
  let free : State := { s with sec.writing := none, start.waits := false }
  match s.sec.writing with
  | none => s
  | some (.config cmd k v) =>
    if ok then endById cmd (endDone 0 0) { free with start.cfg := tput free.start.cfg k v } else endById cmd (endFailed 0x0712 0) free
  | some (.stage cmd key h n) =>
    let t : State := { free with sec.images := tput free.sec.images key { ok := ok, header := if ok then h else 0, bytes := if ok then n else 0 } }
    match cmd with
    | some c => if ok then endById c (endDone (imgType h) (imgSvn h)) t else endById c (endFailed 0x0712 0) t
    | none => { t with mg.out := (if ok then .answer 5 (imgType h) (imgSvn h) else .reject 5 (imgType h) 0x0712) :: t.mg.out }

/-- A flash write stops where it stands: an image's bank is invalid, a configuration item keeps its value (R537, R546). -/
def flashStops (s : State) : State :=
  match s.sec.writing with
  | some (.stage _ key _ _) => { s with sec.writing := none, start.waits := false, sec.images := tput s.sec.images key { ok := false } }
  | _ => { s with sec.writing := none, start.waits := false }

/-! ## Measurement and attestation (R533–R535) -/

/-- The eight slots as 384 bytes. -/
def slotBytes (s : State) : Nat := (List.range 8).foldl (fun v i => v + s.sec.slots.getD i 0 % 2 ^ 384 * 2 ^ (384 * i)) 0

def unlocked (s : State) : Bool := !flagSet s ddStatusDebugLocked 0

/-- MEASURE_READ. -/
def measureReadBody (oc : OpenCmd) (s : State) : Body :=
  let pa := wordAt oc.words 1
  if !gorseUp s then refuseBody 0x0A22 s
  else if !cpReach pa 384 then .ends (endFailed 0x0501 0) s
  else if cpWriteCode oc pa 384 s != 0 then .ends (endFailed (cpWriteCode oc pa 384 s) 0) s
  else .ends (endDone 0 0) (cpWritePa pa 384 (slotBytes s) s)

/-- Bytes 0–423 of the report (Table SB-8). -/
def reportBody (s : State) (n0 n1 : Nat) : Nat :=
  packBits [(cpTime s % 2 ^ 64, 0), (n0, 64), (n1, 128), (Config.moduleId % 2 ^ 64, 192), (getF s sbStatusStartType 0, 256),
    (bit (unlocked s), 264), (slotBytes s, 320)]

/-- ATTEST. -/
def attestBody (oc : OpenCmd) (s : State) : Body :=
  let pa := wordAt oc.words 1
  let b := reportBody s (wordAt oc.words 2) (wordAt oc.words 3)
  let v := packBits [(b, 0), (Config.rsaSign s.freeCtr b % 2 ^ 3072, 8 * 424), (Config.slhSign s.freeCtr b % 2 ^ (8 * 16224), 8 * 808)]
  if !gorseUp s then refuseBody 0x0A22 s
  else if !cpReach pa 17032 then .ends (endFailed 0x0501 0) s
  else if cpWriteCode oc pa 17032 s != 0 then .ends (endFailed (cpWriteCode oc pa 17032 s) 0) s
  else .ends (endDone 0 0) (cpWritePa pa 17032 v (drawn s))

/-! ## Debug (R536) -/

/-- DEBUG_UNLOCK with SUBMIT = 0. -/
def nonceBody (_ : OpenCmd) (s : State) : Body :=
  let n := freshVal s % 2 ^ 256
  if !gorseUp s then refuseBody 0x0A22 s
  else if jobExists s then refuseBody 0x0715 s
  else .ends (endDone (bitsOf n 63 0) (bitsOf n 127 64)) { drawn s with sec.nonce := some n }

/-- Bytes of a token: its body, then header offsets 96 to 17,135. -/
def tokenBytes : Nat := 64 + 17040

/-- A token is good: MODULE_ID and the nonce given out, keys of some slot, both signatures over body and keys. -/
def tokenOk (s : State) (v : Nat) : Bool :=
  let rsa := bitsOf v (8 * 448 - 1) (8 * 64)
  let slh := bitsOf v (8 * 496 - 1) (8 * 448)
  let signed := leBytes 496 v
  bitsOf v 63 0 == Config.moduleId % 2 ^ 64 && s.sec.nonce == some (bitsOf v 319 64) && (List.range 4).any (fun k => keysOk s k rsa slh) &&
    Config.rsaVerifies rsa (bitsOf v (8 * 880 - 1) (8 * 496)) signed && Config.slhVerifies slh (bitsOf v (8 * 17104 - 1) (8 * 880)) signed

/-- DEBUG_UNLOCK with SUBMIT = 1: a good token clears DEBUG_LOCKED until the next start and is measured into slot 7. -/
def unlockBody (oc : OpenCmd) (s : State) : Body :=
  let pa := wordAt oc.words 2
  if !gorseUp s then refuseBody 0x0A22 s
  else if jobExists s then refuseBody 0x0715 s
  else if !cpReach pa tokenBytes then .ends (endFailed 0x0501 0) s
  else if (cpReadCode oc pa tokenBytes s).1 != 0 then .ends (endFailed (cpReadCode oc pa tokenBytes s).1 0) (cpReadCode oc pa tokenBytes s).2
  else
    let r := cpReadPa pa tokenBytes s
    let t := r.2.2
    if r.2.1 || !tokenOk t r.1 then refuseBody 0x0714 t
    else
      let slot := Config.extendSlot (t.sec.slots.getD 7 0) (sha384 (leBytes tokenBytes r.1))
      .ends (endDone 0 0) (setF ddStatusDebugLocked 0 0 { t with sec.nonce := none, sec.slots := t.sec.slots.set 7 slot })

/-! ## The error log (R501) -/

/-- Log records that an ERR_LOG_READ copies: in turn from index `first`, at most 4,096 of the `n` asked for. -/
def logPicked (s : State) (first n : Nat) : List (Nat × ErrRec) :=
  ((List.range (min n 4096)).filterMap (fun i => (tget s.err.log ((first + i) % 4096)).map (fun e => ((first + i) % 4096, e.1))))

/-- The records as bytes, one after another. -/
def logBytes (rs : List (Nat × ErrRec)) : Nat := rs.foldr (fun e v => encodeErr e.2 + v * 2 ^ 256) 0

/-- The records have been read. -/
def logMarked (rs : List (Nat × ErrRec)) (s : State) : State :=
  { s with err.log := rs.foldl (fun l e => tput l e.1 (e.2, true)) s.err.log }

/-- ERR_LOG_READ (R501): the number of records copied and the index of the newest, which is a free value while there is none. -/
def logReadBody (oc : OpenCmd) (s : State) : Body :=
  let pa := wordAt oc.words 1
  let rs := logPicked s (wordBits oc.words 2 15 0) (wordBits oc.words 2 31 16)
  let n := 32 * rs.length
  if n != 0 && !cpReach pa n then .ends (endFailed 0x0501 0) s
  else if n != 0 && cpWriteCode oc pa n s != 0 then .ends (endFailed (cpWriteCode oc pa n s) 0) s
  else
    let t := logMarked rs (cpWritePa pa n (logBytes rs) s)
    if s.err.logCount = 0 then .ends (endDone 0 (freshVal s)) (drawn s) else .ends (endDone rs.length ((s.err.logCount - 1) % 4096)) t

/-! ## The SPDM responder (R534, R535); message codes as SPDM 1.3 gives them (log entry 40) -/

def spdm (code : Nat) (parts : List Nat) (s : State) : State := { s with mg.out := .spdm code parts :: s.mg.out }

/-- An SPDM request over PCIe DOE in the attached role, or over MCTP: ERROR Busy before step 16 of a start, ERROR Unspecified
while Gorse is out. -/
def spdmGo (mctp : Bool) (go : State → State) (s : State) : State :=
  if !s.elec.input || !(dieUp s 26 || (mctp && s.start.halted)) || s.pins.testReset then s
  else if !mctp && (selfHosted s || !flagSet s hlStatusLinkUp 0) then s
  else if (s.start.due.isSome || s.start.halted) && !flagSet s obStatusReady 0 then spdm 0x7F [0x03] s
  else if !gorseUp s then spdm 0x7F [0x05] s
  else go s

def spdmVersion (s : State) : State := spdm 0x04 [0x13] s
/-- CERT_CAP, CHAL_CAP and MEAS_CAP with signatures; no key exchange, no sessions. -/
def spdmCaps (s : State) : State := spdm 0x61 [0x16] s
/-- RSASSA-PSS 3072, SHA-384, measurement hash SHA-384. -/
def spdmAlgorithms (s : State) : State := spdm 0x63 [0x08, 0x02, 0x04] s
def certDigest (k : Nat) : Nat := sha384 (Config.certificate k)
def spdmDigests (s : State) : State := spdm 0x01 [0x03, certDigest 0, certDigest 1] s

/-- GET_CERTIFICATE: a portion of the chain of slot 0 or 1. -/
def spdmCertificate (slot off len : Nat) (s : State) : State :=
  let c := Config.certificate slot
  if 1 < slot || c.length ≤ off then spdm 0x7F [0x01] s
  else
    let part := (c.drop off).take len
    spdm 0x02 [slot, part.length, c.length - off - part.length, ofBytes part] s

/-- A signed answer: the RSA signature over the transcript, whose hash is kept for the second signature. The transcript holds
messages whose bytes the spec does not state, so its hash is a free value. -/
def spdmSigned (code : Nat) (parts : List Nat) (s : State) : State :=
  let h := freshVal s % 2 ^ 384
  spdm code (parts ++ [Config.rsaSign s.freeCtr h]) { drawn s with sec.transcript := some h }

/-- CHALLENGE. -/
def spdmChallenge (slot nonce : Nat) (s : State) : State :=
  if 1 < slot then spdm 0x7F [0x01] s
  else spdmSigned 0x03 [slot, certDigest slot, nonce, freshVal s % 2 ^ 256] (drawn s)

/-- GET_MEASUREMENTS: the number of blocks, one block, or all; blocks 1–8 are slots 0–7. -/
def spdmMeasurements (block : Nat) (signed : Bool) (nonce : Nat) (s : State) : State :=
  let go := fun (parts : List Nat) => if signed then spdmSigned 0x60 (parts ++ [nonce]) s else spdm 0x60 parts s
  if block = 0 then go [8]
  else if block ≤ 8 then go [block, s.sec.slots.getD (block - 1) 0]
  else if block = 255 then go s.sec.slots
  else spdm 0x7F [0x01] s

/-- VENDOR_DEFINED_REQUEST: command 0x0001 gives the SLH-DSA signature over the transcript hash of the last signed answer. -/
def spdmVendor (command : Nat) (s : State) : State :=
  match command, s.sec.transcript with
  | 1, some h => spdm 0x7E [Config.slhSign s.freeCtr h] (drawn s)
  | 1, none => spdm 0x7F [0x04] s
  | _, _ => spdm 0x7F [0x01] s

end Sys2Proof.Machine
end

