-- ==== Sys2Proof/Machine/Start.lean ====
section
/-! DEFINITION. Sys2Proof/Machine/Start.lean: what survives without power and through a start, the steps of cold, warm and
recovery starts, input power and rails (R527–R532, R552–R561). -/
namespace Sys2Proof.Machine

def typeCold : Nat := 0
def typeWarm : Nat := 1
def typeRecovery : Nat := 2

/-- Copy a field from one state to another. -/
def copyField (s : State) (u : Nat) (t : State) (f : Field) : State := setF f u (getF s f u) t

/-- MX_REPAIR of every Tuft. -/
def mxMap (s : State) : Table W128 := s.regs.filter (fun e => e.1 / 65536 == regId .mxRepair)

/-- Lane and channel maps of the Loam and of the tensor ports (R431, R467). -/
def laneMaps (s : State) : LaneMaps :=
  { links := (List.range 41).map (fun l => let x := loamLink s l
      (l, { degraded := x.degraded, optical := x.degraded, gone := x.gone }, getF s ddLinkStatusSparesAb l, getF s ddLinkStatusSparesBa l))
    rings := (List.range 4).map (fun r => (r, { failed := (loamRing s r).failed }, regRaw s .ddRingStatus r))
    ports := (List.range 16).filterMap (fun p => if (fabPort s p).bad = 0 then none else some (p, (fabPort s p).bad)) }

/-- Lane and channel maps put in force. -/
def withLanes (m : LaneMaps) (s : State) : State :=
  let u := m.links.foldl (fun u e =>
    let u := setF ddLinkStatusSparesAb e.1 e.2.2.1 (setF ddLinkStatusSparesBa e.1 e.2.2.2 (loamMod e.1 (fun _ => e.2.1) u))
    if e.2.1.degraded then setF ddLinkStatusState e.1 1 u else u) s
  let u := m.rings.foldl (fun u e =>
    let u := ringMod e.1 (fun _ => e.2.1) u
    [ddRingStatusStopUp, ddRingStatusLost, ddRingStatusOnSpare].foldl (fun u f => setF f e.1 (bitsOf e.2.2 f.hi f.lo) u) u) u
  m.ports.foldl (fun u e => fabPortMod e.1 (fun x => { x with bad := e.2 }) u) u

/-- Ways left powered by the ways disabled. -/
def waysLeft (s : State) : State :=
  (List.range 16).foldl (fun u h => let d := popCount (hayGet u h).disabledWays 16
    if d = 0 then u else setF hayStatusWaysPowered h (16 - d) u) s

/-- The repairs in force (R281, R507). -/
def repairMaps (s : State) : RepairMaps :=
  { mx := mxMap s, swards := s.err.swardPos, spares := getF s reStatusSpareSwards 0
    hay := s.hay.map (fun e => (e.1, hayRepairs e.2)), retired := s.retired, lanes := laneMaps s }

/-- Repairs other than lane maps put in force. -/
def withRepairs (m : RepairMaps) (s : State) : State :=
  let t : State := { s with
    regs := m.mx.foldl (fun r e => tput r e.1 e.2) (s.regs.filter (fun e => e.1 / 65536 != regId .mxRepair))
    err.swardPos := m.swards, hay := m.hay, retired := m.retired }
  waysLeft (setF reStatusSpareSwards 0 m.spares t)

/-- Every lane, channel and laser works. -/
def allLanes (t : State) : State := (List.range 4).foldl (fun u r => setF ddRingStatusStopUp r (2 ^ 28 - 1) u) t

/-- What module flash and the fuses hold (Tables SB-1, SB-2), with pins, messages sent and the queue: the rest is as at reset. -/
def persist (s : State) : State :=
  let st := s.start
  let t : State := {
    pending := s.pending, mem := s.mem, wq := s.wq, freeCtr := s.freeCtr, hostOut := s.hostOut, fabOut := s.fabOut, pins := s.pins
    tap := s.tap, elec := s.elec }
  let t := { t with
    err := { log := s.err.log, logCount := s.err.logCount, hist := s.err.hist, pend := s.err.pend
             out := s.err.out.filter (fun o => !o.software) }
    start := { st with
      running := false, due := none, waits := false, halted := false, scrubDue := false, trained := [] }
    sec := { images := s.sec.images, active := s.sec.active, svnMin := s.sec.svnMin, revoked := s.sec.revoked }
    pw := { flashCeil := s.pw.flashCeil }
    mg := { out := s.mg.out }
    ob := { nextId := s.ob.nextId } }
  withRepairs (repairMaps s) ([sbStatusWarmFails, sbStatusColdFails].foldl (fun u f => copyField s 0 u f) t)

/-- The module loses input power: flash and fuses stay, and an image being written is invalid (R537, R558). -/
def powerLost (s : State) : State :=
  let t := withLanes (laneMaps s) (persist (flashStops s))
  zeroMem 0 (poolKey 128 0) { t with poison := [], elec := {} }

/-! ## The beginning of a start -/

/-- Tuft stores and Sward pools hold zero after a start. -/
def zeroInner (s : State) : State := zeroMem (storeKey 0 0) (poolKey 128 0 - storeKey 0 0) s

/-- Start causes after a run that ended in error (Table SB-5). -/
def errorCauses : List Nat := [3, 4, 5, 6, 7, 0xA, 0xB]

/-- The previous run ended in error (R526). -/
def afterError (cause : Nat) (s : State) : Bool := errorCauses.contains cause || s.start.errorEnd

/-- What a warm start keeps beside flash: counters zeroed only at cold start, the role, the coherence mode (R16, R21, R539,
R549). -/
def warmFields : List Field :=
  [mgStatusLatchEarlyCount, mgStatusButtonCount, mgStatusLatchEarly, mgStatusButton, sbStatusVerifyFailCount, sbStatusFallbackCount,
   sbStatusVerifyFail, sbStatusFallback, hlStatusRole, coCtrlMode, coCtrlBiasEn]

/-- The timer value that ages of transient verdicts count from: an ordered warm start writes it as it begins (R504). -/
def lastTimeAt (cause : Nat) (s : State) : Nat := if cause = 2 then cpTime s else s.start.lastTime

/-- Steps 1 to 4: every die is reset; rails, fuses, what memory keeps. The timer starts at zero. -/
def startBegins (type cause : Nat) (i : StartIn) (s : State) : State :=
  let error := afterError cause s
  let lost := !s.lostHomes.isEmpty || s.start.hayLost
  let keep := type = typeWarm && !lost
  let p := persist (flashStops s)
  let t := if type = typeCold && i.retestOk then allLanes p else withLanes (laneMaps s) p
  let t := if type = typeWarm then warmFields.foldl (fun u f => copyField s 0 u f) t else t
  let t := zeroInner (if keep then { t with poison := s.poison } else zeroMem 0 devMemEnd t)
  let count := if type = typeWarm then getF s sbStatusStartCount 0 + 1 else 0
  let t := setF sbStatusStartCount 0 count (setF sbStatusStartType 0 type (setF sbStatusStartCause 0 cause t))
  let t := setF sbStatusFullTest 0 (bit (type == typeCold || (type == typeWarm && error))) t
  let t := setF timerStatusLocked 0 1 t
  let hist : List (Nat × Nat × Nat × Nat × Int) := if type = typeWarm then
      s.err.hist.map (fun h => (h.1, h.2.1, h.2.2.1, h.2.2.2.1, h.2.2.2.2 - (lastTimeAt cause s : Int))) else []
  let t := { t with
    start.running := true, start.hayLost := lost, start.lastTime := 0, start.errorEnd := error
    err.hist := hist, err.pend := t.err.pend.filter (fun q => q.reason != 0x0640)
    err.out := if type = typeCold && i.retestOk then [] else t.err.out
    link.speedCap := s.link.speedCap, elec.rails := 10 }
  let t := (List.range 28).foldl (fun u d => setF ddDieStatusRefOk d 1 u) t
  { t with mg.out := .event 3 type :: t.mg.out }

/-! ## Steps -/

/-- A step of a start: done, or failed with a code and the unit it names. -/
inductive StepRes where
  | ok (s : State)
  | bad (unit code : Nat) (s : State)

/-- A record that a start writes. -/
def startErr (unit reason cls verdict detail : Nat) (s : State) : State :=
  writeErr { level := lvPackage, unit := unit, reason := reason, cls := cls, verdict := verdict, detail := detail } none s

/-- Step 2 reads the regulator latches (R561), and the start after a loss of the west die writes its record (Table DD-5). -/
def stepRails (s : State) : StepRes :=
  let t := s.elec.latches.foldl (fun t r => if r ≤ 2 then startErr 26 0x0642 0x06 vTransient r t else t) s
  .ok (if t.start.westLost then startErr 26 0x0A23 0x07 vTransient 0 { t with start.westLost := false } else t)

/-- Flash regions whose record fails its CRC: defaults, and 0x0719 (R519). -/
def flashBad (r : Nat) (s : State) : State :=
  let t := startErr 26 0x0719 0x02 vTransient r s
  if r = 4 then { t with start.cfg := [] }
  else if r = 5 then { t with start.stored := [] }
  else if r = 6 then setF sbStatusFullTest 0 1
    { withLanes t.start.fused.lanes (withRepairs t.start.fused t) with err.hist := [], pw.flashCeil := [], start.flashMaps := none }
  else if r = 7 then setF sbStatusWarmFails 0 0 (setF sbStatusColdFails 0 0
    { t with sec.active := 0, start.spare := (cfgValue t 0x0301).getD 8, start.lastJob := none })
  else if r = 8 then { t with err.log := [], err.logCount := 0 }
  else t

def stepFlash (i : StartIn) (s : State) : StepRes := .ok (i.flash.foldl (fun t r => flashBad r.val t) s)

/-- Header and rollback checks on the image in a bank, and what the start finds (R522): 0, or the code that rejects it. -/
def startImage (i : StartIn) (s : State) (type : Nat) (bankB : Bool) : Nat :=
  let found := match i.images.find? (fun x => x.1.val == type && x.2.1 == bankB) with | some x => x.2.2.toNat | none => 0
  if found != 0 then found
  else match tget s.sec.images (bankKey type bankB) with
    | some b => if !b.ok then 0x0706 else if s.sec.revoked.testBit (imgKeySlot b.header) then 0x0705 else if imgSvn b.header < s.sec.svnMin then 0x0704 else 0
    | none => if s.sec.svnMin = 0 then 0 else if bankSvn s (bankKey type bankB) < s.sec.svnMin then 0x0704 else 0

/-- An image runs from a bank: BANKS and its measurement. -/
def imageRuns (type : Nat) (bankB : Bool) (s : State) : State :=
  setF sbStatusBanks 0 (withBits (getF s sbStatusBanks 0) type type (bit bankB))
    { s with sec.slots := s.sec.slots.set type (bankMeasure s (bankKey type bankB)) }

/-- Load an image: the active bank, else the other with notice 0x0710 (R523). -/
def loadImage (i : StartIn) (s : State) (type : Nat) : StepRes :=
  let b := activeB s type
  if startImage i s type b = 0 then .ok (imageRuns type b s)
  else
    let t := raise flSbStatusVerifyFail 0 s
    if startImage i t type (!b) = 0 then
      let u := raise flSbStatusFallback 0 (notice 0x0710 type 27 t)
      .ok (imageRuns type (!b) { u with sec.active := u.sec.active ^^^ 2 ^ type })
    else .bad type 0x0707 (raise flSbStatusVerifyFail 0 t)

/-- Load several images in turn. -/
def loadImages (i : StartIn) : List Nat → State → StepRes
  | [], s => .ok s
  | t :: r, s => match loadImage i s t with
    | .ok u => loadImages i r u
    | .bad unit c u => .bad unit c u

/-- The recovery image: its parts, types 0, 1, 2 and 6, are measured; slots of the other types hold what no rule states. -/
def loadRecovery (i : StartIn) (s : State) : StepRes :=
  match i.images.find? (fun x => x.1.val == 7 && x.2.2 != 0) with
  | some x => .bad 7 x.2.2.toNat (raise flSbStatusVerifyFail 0 s)
  | none => .ok (setF sbStatusBanks 0 0 { s with sec.slots := ((List.range 7).map (fun t => Config.factoryMeasure (16 + t))) ++ [0] })

def stepGorse (type : Nat) (i : StartIn) (s : State) : StepRes := if type = typeRecovery then loadRecovery i s else loadImage i s 0

/-- Step 6: repairs recorded in flash, and the lane maps that a cold start has retested, are blown into fuses (R281, R467). -/
def stepFuses (s : State) : StepRes := .ok { s with start.fused := repairMaps s }

/-- The dies whose self-test a start runs (Table SB-6, R473): every die with the full self-test, else those that had left
service; in a recovery start the I/O dies and the Loam. -/
def dieTested (type : Nat) (s0 s : State) (d : Nat) : Bool :=
  26 ≤ d || (type != typeRecovery && (flagSet s sbStatusFullTest 0 || getF s0 ddDieStatusState d == 1 || getF s0 ddDieStatusState d == 3))

/-- A die without which no start succeeds: a Hayloft die, an I/O die, the Loam (R473, R529). -/
def dieNeeded (d : Nat) : Bool := (8 ≤ d && d < 24) || 26 ≤ d

/-- A die that fails its self-test stays fenced. -/
def dieFails (d : Nat) (s : State) : State :=
  writeErr { level := lvPackage, unit := d, reason := 0x0A20, cls := 0x08, verdict := vLasting, out := true, detail := d * 256 } none
    (fenceDie d (setF ddDieStatusState d 3 s))

/-- Units whose pending records a recovery start tests. -/
def recoveryTests (p : ErrRec) : Bool := 26 ≤ dieOfUnit p.level p.unit

/-- The start gives a pending record its verdict (R503). -/
def startVerdict (i : StartIn) (p : ErrRec) (s : State) : State :=
  let v := i.verdicts.find? (fun x => x.1 == p.id)
  let ok := match v with | some x => x.2.1 | none => true
  let stuck := match v with | some x => x.2.2.2.map (fun y => (y.1, y.2.toNat)) | none => []
  if p.reason = 0x0510 ∨ p.reason = 0x0511 then rowTestDone (rowPa (p.unit - 8) p.detail) ok 0 0 s
  else if p.reason = 0x0514 then locTestDone (rowPa (p.unit - 8) p.detail) (match v with | some x => x.2.2.1.val | none => 0) ok s
  else if p.reason = 0x0A01 then
    if !ok then laneGone p.subunit p.detail false (bump reCountsTests 0 1 s)
    else (let r := passes p (laneSub p.subunit p.detail) s; if r.1 then r.2 else laneGone p.subunit p.detail true r.2)
  else verdictOf p ok stuck true s

/-- A failing test that fails the start: a die it cannot do without. -/
def verdictFatal (i : StartIn) (p : ErrRec) : Bool :=
  p.level == lvPackage && dieNeeded p.unit && decide (p.unit < 29) && !([0x0510, 0x0511, 0x0514, 0x0A01, 0x0522].contains p.reason) &&
    i.verdicts.any (fun x => x.1 == p.id && !x.2.1)

/-- After a recovery start the maps that flash kept come back. They do so before the tests of step 7, so that step 8 holds what
those tests add to them (log entry 181). -/
def mapsBack (type : Nat) (s : State) : State :=
  if type = typeRecovery then s
  else match s.start.flashMaps with
    | some m => withLanes m.lanes (withRepairs m { s with start.flashMaps := none })
    | none => s

/-- Step 7: self-tests of dies, targeted tests of units with pending records. -/
def stepTests (type : Nat) (i : StartIn) (s0 u : State) : StepRes :=
  let s := mapsBack type u
  let failing := (i.dies.map (·.val)).filter (dieTested type s0 s)
  let first := (pendingFaults s).filter (fun p => p.link == p.id && (type != typeRecovery || recoveryTests p))
  match failing.find? dieNeeded, first.find? (verdictFatal i) with
  | some d, _ => .bad d 0 s
  | none, some p => .bad p.unit 0 s
  | none, none => .ok (first.foldl (fun t p => startVerdict i p t) (failing.foldl (fun t d => dieFails d t) s))

/-- Step 8: repair and lane maps, as step 7 left them; a recovery start runs on the fuses alone, and what flash holds stays for the next start. -/
def stepMaps (type : Nat) (s : State) : StepRes :=
  if type = typeRecovery then
    .ok (withLanes s.start.fused.lanes (withRepairs s.start.fused { s with start.flashMaps := some (s.start.flashMaps.getD (repairMaps s)) }))
  else .ok s

/-- Ceilings: the lower of the flash and fuse values (R485); Tufts out of service are withdrawn, those below 2,160 too. -/
def stepCeilings (s : State) : StepRes :=
  let t := s.pw.flashCeil.foldl (fun t e => let c := min e.2 (getF t tuftCeilFused e.1)
    setF tuftCeilState e.1 (if c < 2160 then 3 else 1) (setF tuftCeilCeil e.1 c t)) s
  .ok (t.err.out.foldl (fun t o => if o.level = lvTuft then setF tuftCeilState o.unit 3 t else t) t)

/-- Role and speed of the host link, coherence mode, bias (R305, R358): read at cold and recovery starts. A reserved value
starts the module attached at 64 GT/s with 0x0801. -/
def stepConfig (type : Nat) (s : State) : StepRes :=
  let hl := (cfgValue s 0x0801).getD 0
  let bad := decide (1 < bitsOf hl 1 0) || decide (3 < bitsOf hl 6 4)
  let t := if type = typeWarm then s
    else
      let role := if bad then 0 else bitsOf hl 1 0
      let t := setF hlStatusRole 0 role (setF coCtrlBiasEn 0 (1 - role) (setF coCtrlMode 0 ((cfgValue s 0x0520).getD 0) s))
      let t := { t with link.speedCap := if bad then 0 else bitsOf hl 6 4 }
      if bad then startErr 0x1E0 0x0801 0x0A vLasting 0 t else t
  let base := Config.biasPlace % (0x1800000 - 767)
  .ok (if biasOn t then zeroMem (base * 65536) 0x3000000 (setF coCtrlBiasBase 0 base t) else t)

/-- Step 13: position straps and the spare plane (R418, R420). -/
def stepStraps (type : Nat) (s : State) : StepRes :=
  let ok := strapsOk s.pins
  let spare := if type = typeWarm then s.start.spare else (cfgValue s 0x0301).getD 8
  let t := setF tfPosHeathId 0 s.pins.heathId (setF tfPosPlane 0 s.pins.posX (setF tfPosY 0 s.pins.posY (setF tfPosZ 0 s.pins.posZ s)))
  let t := setF tfPosStrapValid 0 (bit ok) (setF tfPosSparePlane 0 spare { t with start.spare := spare })
  .ok (if ok then t else startErr 26 0x0310 0x0A vLasting 0 (setF tfStatusStrapErr 0 1 t))

/-- A Tuft fails the short known-answer test: a lasting record, and the repairs of Table RE-6 in their order: the stuck rows and
columns are excluded and the test passes after it, or its Sward is remapped, or the Tuft is withdrawn (R79, R507–R509). -/
def katFails (t : Nat) (stuck : List (Bool × Nat)) (ok : Bool) (s : State) : State :=
  if !meadowUp s (t / 128) || getF s tuftCeilState t = 3 then s
  else
    let fails := fun (repaired : Bool) =>
      writeErr { level := lvTuft, unit := t, reason := 0x0411, cls := 0x08, verdict := vLasting, repaired := repaired } none
    match tuftRepair t stuck ok s with
    | some u => fails true u
    | none => swardRepair (t / 8) (t % 8) noLink false (fails false s)

/-- Step 15: Tufts that fail the short known-answer test (R78). -/
def stepKat (i : StartIn) (s : State) : StepRes :=
  .ok (i.kat.foldl (fun t k => katFails k.1.val (k.2.1.map (fun y => (y.1, y.2.toNat))) k.2.2 t) s)

/-- Step 16: slot 7 and the debug state (R533, R536). -/
def stepMeasure (type : Nat) (s : State) : StepRes :=
  let items := cfgItems.map (fun e => (cfgValue s e.1).getD e.2)
  let t := setF ddStatusDebugLocked 0 1 { s with sec.slots := s.sec.slots.set 7 (Config.slot7 items s.sec.svnMin type false) }
  .ok (setF obIdFwVersion 0 (imgVersion (bankHeader t (if type = typeRecovery then 17 else bankKey 1 ((getF t sbStatusBanks 0).testBit 1)))) t)

/-- Training parameters of every stack: those in module flash at a warm start, else new ones, free values, which a start that is not
a recovery start stores (R268, R528). -/
def trainStacks (type : Nat) (s : State) : State :=
  if type = typeWarm ∧ s.start.stored.length = 16 then { s with start.trained := s.start.stored }
  else
    let t := (List.range 16).foldl (fun t h => drawn { t with start.trained := tput t.start.trained h (freshVal t) }) { s with start.trained := [] }
    if type = typeRecovery then t else { t with start.stored := t.start.trained }

/-- Every stack is trained; the sensors work. Log entry 153. -/
def stepStacks (type : Nat) (s : State) : StepRes :=
  .ok (heldDies.foldl (fun t d => setF dieTempSensorsOk d (if 8 ≤ d ∧ d < 24 then 2 else 4) t) (setF dieTempSensorsOk 26 4 (trainStacks type s)))

/-- Step 17: READY; the counts of failed starts clear (R529). -/
def stepReady (type : Nat) (s : State) : StepRes :=
  let kept := type = typeWarm && !s.start.hayLost
  let t := { s with start.due := none, start.running := false, start.errorEnd := false, start.hayLost := false, start.scrubDue := kept }
  let t := setF sbStatusWarmFails 0 0 (setF sbStatusColdFails 0 0 (setF sbStatusScrubPending 0 (bit kept) t))
  .ok (setF obStatusReady 0 1 (setF hlStatusMemActive 0 (bit (!selfHosted t)) t))

/-- The steps of Table SB-6 that a type of start runs; steps 1, 3, 4, 10 and 11 stand in `startBegins`, step 14 is the links'
own events. -/
def startSteps (type : Nat) (i : StartIn) (s0 : State) : List (Nat × (State → StepRes)) :=
  let all := fun (f : State → StepRes) (n : Nat) => (n, f)
  let rails := if type = typeWarm then fun s => .ok (if s.start.westLost then startErr 26 0x0A23 0x07 vTransient 0 { s with start.westLost := false } else s)
    else stepRails
  [all rails 2, all (stepFlash i) 4, all (stepGorse type i) 5] ++
    (if type = typeCold then [all stepFuses 6] else []) ++
    [all (stepTests type i s0) 7, all (stepMaps type) 8, all (stepStacks type) 9] ++
    (if type = typeRecovery then [] else [all (loadImages i [1, 2, 3, 4, 5, 6]) 12]) ++
    [all stepCeilings 12, all (stepConfig type) 12, all (stepStraps type) 13] ++
    (if type = typeRecovery then [] else [all (stepKat i) 15]) ++
    [all (stepMeasure type) 16, all (stepReady type) 17]

/-- A start fails at a step: 0x0709 whose DETAIL names the step and the unit, or the step's own code; what comes next follows
R529 with cause 0x0A. -/
def startFails (type step unit code : Nat) (s : State) : State :=
  let reason := if code != 0 then code else if step = 9 then 0x0517 else 0x0709
  let u := if unit < 29 ∧ step != 5 ∧ step != 12 ∧ step != 2 then unit else 26
  let t := writeErr { level := lvPackage, unit := u, reason := reason, cls := 0x08, verdict := vLasting, detail := step * 65536 + unit } none s
  escalate type 0x0A { t with start.due := some (type, 0x0A), start.running := false }

/-- Run the steps until one fails. -/
def runSteps (type : Nat) (i : StartIn) : List (Nat × (State → StepRes)) → State → State
  | [], s => s
  | (n, f) :: r, s =>
    match i.fail with
    | some (k, unit, code) =>
      if k = n then startFails type n unit code s
      else match f s with
        | .ok t => runSteps type i r t
        | .bad u c t => startFails type n u c t
    | none => match f s with
      | .ok t => runSteps type i r t
      | .bad u c t => startFails type n u c t

/-- A start that is due may begin: input power, no test reset, no flash write that it waits for; after a trip, once every sensor
has cooled (R493, R537). -/
def startReady (s : State) : Bool :=
  s.elec.input && !s.pins.testReset && !(s.start.waits && s.sec.writing.isSome) && (!s.pw.tripped || coolAgain s)

/-- COLD_START, WARM_START, RECOVERY_START: a start of that type is due. -/
def doStart (type : Nat) (i : StartIn) (s : State) : State :=
  match s.start.due with
  | some (ty, cause) =>
    if ty != type || !startReady s then s
    else runSteps type i (startSteps type i s) (startBegins type cause i s)
  | none => s

/-! ## Input power and rails (R558–R561) -/

/-- INPUT_POWER_APPLIED: the hot-swap controller turns on, and a cold start is due with cause 0x00. Whether PCIE_REFCLK carries
a clock at power-up is a free value (R562). -/
def inputApplied (s : State) : State :=
  if !s.pins.present || s.elec.input then s
  else { drawn s with elec := { input := true, refclk := freshVal s % 2 == 1 }, start.due := some (0, 0) }

/-- INPUT_POWER_LOST. -/
def inputLost (s : State) : State := if s.elec.input then powerLost s else s

/-- A start that sequences rails is due: cold or recovery, with input power. -/
def railsDue (s : State) : Bool :=
  s.elec.input && !flagSet s obStatusReady 0 && (match s.start.due with | some (ty, _) => ty != 1 | none => false)

/-- RAIL_POWER_GOOD: the next rail begins to rise. -/
def railGood (s : State) : State := if railsDue s && decide (s.elec.rails < 10) then { s with elec.rails := s.elec.rails + 1 } else s

/-- RAIL_START_TIMEOUT: the start fails at step 2, naming the rail by its place in the order of R560. -/
def railTimeout (s : State) : State :=
  match s.start.due with
  | some (ty, _) => if railsDue s && decide (s.elec.rails < 10) then startFails ty 2 s.elec.rails 0 s else s
  | none => s

/-- Place of a rail in the order of R560. -/
def railNo : Rail → Nat
  | .aux => 0 | .io => 1 | .laser => 2 | .stk1 => 3 | .stk2 => 4 | .vddq => 5 | .hay => 6 | .meadow => 7 | .tuft => 8 | .core => 9

/-- A rail feeds a unit (Table EM-1). -/
def railFeeds (r : Rail) (u : FedUnit) : Bool :=
  match r, u with
  | .tuft, .sward _ => true
  | .meadow, .die d => decide (d.val < 8)
  | .core, .die d => decide (24 ≤ d.val) && decide (d.val < 26)
  | .stk1, .die d => decide (8 ≤ d.val) && decide (d.val < 24)
  | .stk2, .die d => decide (8 ≤ d.val) && decide (d.val < 24)
  | .vddq, .die d => decide (8 ≤ d.val) && decide (d.val < 24)
  | .hay, .die d => decide (8 ≤ d.val) && decide (d.val < 24)
  | _, _ => false

/-- The whole package stops (R561): every rail drops, device memory is lost, and the regulator latches its fault. During the
start that follows, that start fails. -/
def fixedRailGone (r : Nat) (s : State) : State :=
  let latches := setAdd s.elec.latches r
  match s.start.due with
  | some (ty, 0x0B) => startFails ty 2 r 0 { s with elec.latches := latches, elec.rails := 0 }
  | _ =>
    let t := powerLost s
    { t with elec := { input := true, refclk := s.elec.refclk, latches := latches } }

/-- REGULATOR_OVERVOLTAGE: the rail is removed; R35 for what it feeds, or the whole package stops. -/
def overvoltage (r : Rail) (u : FedUnit) (s : State) : State :=
  if !s.elec.input then s
  else if railNo r ≤ 2 then fixedRailGone (railNo r) s
  else if railFeeds r u then railLow u { s with elec.latches := setAdd s.elec.latches (railNo r) }
  else s

/-- REGULATOR_FAULT_RESTART: 100 ms after a fixed rail was removed, a cold start with cause 0x0B is due. -/
def faultRestart (s : State) : State :=
  if s.elec.input && s.elec.rails == 0 && s.start.due.isNone && s.elec.latches.any (fun r => r ≤ 2) then { s with start.due := some (0, 0x0B) } else s

/-! ## START_REQUEST (R537, R538) -/

/-- START_REQUEST completes, and a start becomes due; a second request ends cancelled. -/
def startRequestBody (oc : OpenCmd) (s : State) : Body :=
  let ty := wordBits oc.words 1 1 0
  if ty = 3 then refuseBody 0x0100 s
  else if s.start.due.isSome then .ends (endCancelled 0) s
  else .ends (endDone 0 0) { s with
    start.due := some (ty, if ty = 0 then 1 else if ty = 1 then 2 else 9), start.waits := s.sec.writing.isSome }

end Sys2Proof.Machine
end

