-- ==== Sys2Proof/Machine/Management.lean ====
section
/-! DEFINITION. Sys2Proof/Machine/Management.lean: MCTP, PLDM, the front panel, quiesce and removal (R541–R550, R565), and
what follows any command's effect. -/
namespace Sys2Proof.Machine

/-- The management controller answers: it is a processor of the west I/O die, and waits in a halted module too (R529). -/
def mgmtUp (s : State) : Bool := s.elec.input && !s.pins.testReset && (dieUp s 26 || s.start.halted)

def mgSend (m : MgmtMsg) (s : State) : State := { s with mg.out := m :: s.mg.out }

/-- PANEL changes, and a platform event reports it (R542). -/
def setPanel (v : Nat) (s : State) : State := if getF s mgStatusPanel 0 = v then s else mgSend (.event 2 v) (setF mgStatusPanel 0 v s)

/-! ## Quiesce (R544) -/

/-- The quiesce sequence begins: PANEL quiescing, the job's end under way. -/
def quiesceBegins (s : State) : State :=
  let t := setPanel 2 s
  if jobExists t then jobStop t else t

/-- QUIESCE with DENY = 0. -/
def quiesceBody (oc : OpenCmd) (s : State) : Body :=
  if s.start.due.isSome then refuseBody 0x0A63 s else .runs (quiesceBegins { s with mg.quiesce := some oc.id, mg.forced := false })

/-- QUIESCE with DENY = 1. -/
def denyBody (_ : OpenCmd) (s : State) : Body :=
  if getF s mgStatusPanel 0 = 1 then .ends (endDone 0 0) (setPanel 0 s) else refuseBody 0x0A63 s

/-- The reason codes that the tables list (R410), as runs: first code and how many follow one another. -/
def reasonRuns : List (Nat × Nat) :=
  [(0, 1), (0x0100, 20), (0x0150, 8), (0x0170, 7), (0x0180, 5), (0x0190, 1), (0x0201, 9), (0x0210, 10), (0x021B, 1)] ++
  [(0x0301, 3), (0x0305, 4), (0x0310, 7), (0x0320, 3), (0x0330, 2), (0x0401, 5), (0x0410, 3), (0x0420, 9), (0x0430, 2)] ++
  [(0x0440, 4), (0x0450, 6), (0x0458, 1), (0x0460, 10), (0x0501, 1), (0x0510, 10), (0x0520, 9), (0x0560, 8), (0x0570, 7)] ++
  [(0x0601, 2), (0x0610, 1), (0x0620, 2), (0x0630, 3), (0x0640, 3), (0x0701, 9), (0x0710, 1), (0x0712, 1), (0x0714, 4), (0x0719, 1)] ++
  [(0x0801, 1), (0x0810, 2), (0x0813, 2), (0x0820, 2), (0x0830, 5), (0x0901, 4), (0x0910, 3), (0x0920, 4), (0x0930, 4)] ++
  [(0x0A01, 6), (0x0A10, 1), (0x0A20, 4), (0x0A30, 2), (0x0A40, 2), (0x0A50, 11), (0x0A60, 5)]

def reasonCodes : List Nat := reasonRuns.flatMap (fun r => span r.1 r.2)

/-- A code that a table lists, chosen by a free value. -/
def someReason (s : State) : Nat := reasonCodes.getD (freshVal s % reasonCodes.length) 0

/-- The sequence is complete: QUIESCE ends, or a forced removal writes a notice, whose reason no rule states. -/
def quiesceEnds (s : State) : State :=
  let t : State := { s with mg.linkDown := true, mg.quiesce := none, mg.forced := false }
  match s.mg.quiesce with
  | some id => endById id (endDone 0 0) t
  | none => notice (someReason s) 0 26 (drawn t)

/-- Steps 2 to 4 proceed as the job ends and flash writes end. -/
def quiesceCheck (s : State) : State :=
  if getF s mgStatusPanel 0 != 2 || s.mg.linkDown then s
  else
    let t := if jobExists s && s.ob.destroying.isNone && jobQuiet s (s.mg.quiesce.getD s.ob.nextId) then jobTeardown false false s else s
    if jobExists t || t.sec.writing.isSome then t else quiesceEnds t

/-- QUIESCE_LINK_DOWN: 1 ms later the steps of a trip, then safe to remove; a start that waited becomes due. -/
def quiesceLinkDown (s : State) : State :=
  if getF s mgStatusPanel 0 != 2 || !s.mg.linkDown then s
  else
    let t := setPanel 3 (tripSteps { s with mg.linkDown := false, mg.start := none })
    match s.mg.start with
    | some ty => { t with start.due := some (ty, 8) }
    | none => { t with start.due := none, start.running := false }

/-- What follows any effect: the scheduler's part, a JOB_DESTROY that waited, ceilings that waited, the quiesce sequence; then
the network ports send what waits for them. -/
def settleAll (s : State) : State := cpSends (goesOn (netDrain (quiesceCheck (ceilCheck (settleOb s)))))

/-! ## The attention button (R543) -/

/-- A removal request: PANEL, BUTTON, event source 5, a platform event; a further one merges into it. -/
def removalRequest (s : State) : State :=
  if getF s mgStatusPanel 0 != 0 || s.start.halted || !flagSet s mgCtrlButtonEn 0 then s
  else deliverEvent 5 (raise flMgStatusButton 0 (setPanel 1 s))

/-- ATTN_BUTTON_PRESS. -/
def buttonDown (s : State) : State := { s with pins.buttonHeld := true }

/-- BUTTON_SHORT_PRESS. -/
def buttonShort (s : State) : State :=
  let t : State := { s with pins.buttonHeld := false }
  if mgmtUp t then removalRequest t else t

/-- BUTTON_HOLD: a forced removal, whatever BUTTON_EN holds; no effect while quiescing or safe to remove. -/
def buttonHold (s : State) : State :=
  let t : State := { s with pins.buttonHeld := false }
  if !mgmtUp t || 2 ≤ getF t mgStatusPanel 0 then t
  else quiesceBegins (raise flMgStatusButton 0 { t with mg.quiesce := none, mg.forced := true })

/-- REMOVAL_REQUEST_LAPSE. -/
def requestLapse (s : State) : State := if getF s mgStatusPanel 0 = 1 then notice 0x0A60 0 26 (setPanel 0 s) else s

/-! ## The latch and presence (R546, R565) -/

/-- The module is left without quiesce: links drop, commands and jobs end with no completion record, a flash write stops, the
record is written. -/
def removedEarly (detail : Nat) (s : State) : State :=
  let t := setF obStatusJob 0 0 (tripSteps (raise flMgStatusLatchEarly 0 (flashStops s)))
  let t := { t with
    ob.openCmds := [], ob.destroying := none, work := {}, copies := {}, stile := {}, res := {}, start.due := none, start.running := false
    mg.quiesce := none, mg.forced := false, mg.linkDown := false, mg.start := none, mg.early := true }
  setPanel 3 (writeErr { level := lvPackage, unit := 26, reason := 0x0A62, cls := 0x07, verdict := vLasting, detail := detail } none t)

/-- LATCH_OPEN. -/
def latchOpens (s : State) : State :=
  let t : State := { s with pins.latchOpen := true }
  if s.pins.latchOpen || !s.elec.input || getF s mgStatusPanel 0 = 3 then t else removedEarly 0 t

/-- LATCH_CLOSE: after an early opening, with input power, a warm start is due with cause 0x08, as after an error. -/
def latchCloses (s : State) : State :=
  let t : State := { s with pins.latchOpen := false }
  if s.pins.latchOpen && s.mg.early && s.elec.input then { t with mg.early := false, start.due := some (1, 8), start.errorEnd := true } else t

/-- PRESENT_N_BREAK: with the latch closed, as if it had opened, with DETAIL 1; then the input is removed. -/
def presentBreaks (s : State) : State :=
  let t : State := { s with pins.present := false }
  if !s.pins.present || !s.elec.input then t
  else if s.pins.latchOpen || getF s mgStatusPanel 0 = 3 then powerLost t
  else powerLost (removedEarly 1 t)

/-! ## MCTP and PLDM (R541, R542); codes as DSP0236, DSP0240 and DSP0248 give them (log entry 41) -/

/-- MCTP_CONTROL: message types supported are control, PLDM and SPDM; what other answers hold the spec does not state. -/
def mctpControl (c : Nat) (s : State) : State :=
  if !mgmtUp s then s
  else if c = 5 then mgSend (.answer 0 5 (2 ^ 0 + 2 ^ 1 + 2 ^ 5)) s
  else mgSend (.answer 0 c (freshVal s)) (drawn s)

/-- PLDM_BASE_DISCOVERY: types 0, 2 and 5. -/
def pldmBase (c : Nat) (s : State) : State :=
  if !mgmtUp s then s
  else if c = 4 then mgSend (.answer 1 4 (2 ^ 0 + 2 ^ 2 + 2 ^ 5)) s
  else mgSend (.answer 1 c (freshVal s)) (drawn s)

/-- PLDM_SENSOR_READ (Table MG-1). -/
def pldmSensor (id : Nat) (s : State) : State :=
  if !mgmtUp s then s
  else if id = 1 then mgSend (.answer 2 0x11 (getF s pwStatusInputW 0)) s
  else if id = 2 then mgSend (.answer 2 0x11 (freshVal s)) (drawn s)
  else if 3 ≤ id ∧ id ≤ 31 then mgSend (.answer 2 0x11 (getF s dieTempTemp (id - 3))) s
  else if id = 32 then mgSend (.answer 2 0x21 (getF s mgStatusPanel 0)) s
  else if id = 33 then mgSend (.answer 2 0x21 (getF s sbStatusStartType 0 + 4 * getF s obStatusReady 0)) s
  else if id = 34 then mgSend (.answer 2 0x21 (bitsOf (regRead s .obStatus 0) 7 7)) s
  else if id = 64 then mgSend (.answer 2 0x32 (getF s pwCtrlMgmtCapW 0)) s
  else mgSend (.reject 2 0x11 0x80) s

/-- PLDM_SET_MGMT_CAP. -/
def pldmCap (w : Nat) (s : State) : State := if mgmtUp s then mgSend (.answer 2 0x31 w) (setF pwCtrlMgmtCapW 0 w s) else s

/-- PLDM_SET_LOCATE. -/
def pldmLocate (on : Bool) (s : State) : State := if mgmtUp s then mgSend (.answer 2 0x39 (bit on)) (setF mgCtrlLocate 0 (bit on) s) else s

/-- PLDM_REMOVAL_REQUEST: as a short button press. -/
def pldmRemoval (s : State) : State := if mgmtUp s then mgSend (.answer 2 0x39 1) (removalRequest s) else s

/-- PLDM_START_REQUEST with cause 0x08: during quiescing it waits until the module is safe to remove; a start already due
governs. -/
def pldmStart (ty : Nat) (s : State) : State :=
  if !mgmtUp s then s
  else if getF s mgStatusPanel 0 = 2 then mgSend (.answer 2 0x39 ty) { s with mg.start := some (s.mg.start.getD ty) }
  else if s.start.due.isSome then mgSend (.answer 2 0x39 ty) s
  else mgSend (.answer 2 0x39 ty) { s with start.due := some (ty, 8), start.waits := s.sec.writing.isSome, start.halted := false }

/-- PLDM_FW_UPDATE_TRANSFER: components 0–6 are verified under R522 and staged into the inactive bank; a rejection ends the
transfer with its code. -/
def pldmUpdate (comp : Nat) (bytes : List Nat) (s : State) : State :=
  let v := ofBytes bytes
  let code := if comp = 7 || imgType v != comp then 0x0706 else imageCode s v bytes.length
  if !mgmtUp s then s
  else if !gorseUp s then mgSend (.reject 5 comp 0x0A22) s
  else if s.sec.writing.isSome then mgSend (.reject 5 comp 0x04) s
  else if code != 0 then mgSend (.reject 5 comp code) (raise flSbStatusVerifyFail 0 s)
  else stageImage none v bytes.length s

/-- ACTIVATE_FIRMWARE: as IMAGE_ACTIVATE; it takes effect at the next start. -/
def pldmActivate (mask : Nat) (s : State) : State :=
  if !mgmtUp s then s
  else if s.sec.writing.isSome then mgSend (.reject 5 0x1A 0x04) s
  else if stagingFailed s mask then mgSend (.reject 5 0x1A 0x0712) s
  else (let t := activateBanks mask s; mgSend (.answer 5 0x1A t.sec.active) t)

end Sys2Proof.Machine
end

