-- ==== Sys2Proof/Machine/Doors.lean ====
section
/-! DEFINITION. Sys2Proof/Machine/Doors.lean: how the control processor takes commands: entries of submission queues and their
re-reads, Lark requests (R373–R377, R389–R393). -/
namespace Sys2Proof.Machine

/-! ## Check bytes (R373, R376) -/

/-- XOR of the `n` low bytes of a number. -/
def xorBytes (v : Nat) : Nat → Nat
  | 0 => 0
  | n + 1 => xorBytes v n ^^^ ((v >>> (8 * n)) % 256)

/-- An entry read at producer count `n` agrees with R373: its tag, and 0xA5 as the XOR of all its bytes. -/
def entryPasses (v n : Nat) : Bool := bitsOf v 511 496 == n % 65536 && xorBytes v 64 == 0xA5

/-! ## The head of a queue (R392) -/

/-- 8 words as one number. -/
def wordsValue (ws : List W64) : Nat := (List.range 8).foldl (fun v i => v + wordAt ws i * 2 ^ (64 * i)) 0

/-- Entry `k` after HEAD of a queue: from device memory, or from the words the host ring holds for the head command. -/
def ringEntry (s : State) (q k : Nat) (host : List W64) : Option Nat :=
  let n := (getF s sqStateHead q + k) % 65536
  let a := (tgetD s.ob.sq q {}).base + n % 2 ^ getF s sqStateDepthLog2 q * 64
  let v := if isDevMem a 64 then (if physPoison s a 64 then none else some (readNum s a 64))
    else if flagSet s hlStatusLinkUp 0 then some (wordsValue (host.drop (8 * k))) else none
  v.filter (fun x => entryPasses x n)

/-- What stands at the head of a queue: TAIL does not cover it, entry `k` does not pass, or a command of `n` entries. -/
inductive Head where
  | short
  | fails (k : Nat)
  | cmd (n : Nat) (reserved : Bool) (words : List W64)
  deriving DecidableEq, Repr

/-- Entries of a command of `len` words. -/
def entriesOf (len : Nat) : Nat := max 1 ((len + 6) / 7)

def readHead (s : State) (q : Nat) (host : List W64) : Head :=
  let avail := (getF s sqStateTail q + 65536 - getF s sqStateHead q) % 65536
  if avail = 0 then .short
  else match ringEntry s q 0 host with
    | none => .fails 0
    | some v =>
      let len := bitsOf v 12 8
      let n := entriesOf len
      if avail < n then .short
      else match (List.range n).find? (fun k => (ringEntry s q k host).isNone) with
        | some k => .fails k
        | none =>
          let es := (List.range n).map (fun k => (ringEntry s q k host).getD 0)
          let ws := es.flatMap (fun e => (List.range 7).map (fun i => BitVec.ofNat 64 (e >>> (64 * i))))
          .cmd n (es.any (fun e => bitsOf e 487 448 != 0)) (ws.take (max 1 len))

/-- The records a command reserves. -/
def reservesOf (door : Door) (ws : List W64) (s : State) : List (Nat × Nat) :=
  if cmdOpcode ws = 0x18 then graphResv { door := door, words := ws } s else ownRecord door ws

/-- A limit of Table CF-1 keeps a command waiting; its reservations do. -/
def limitsReached (door : Door) (ws : List W64) (s : State) : Bool :=
  decide (1024 ≤ s.ob.openCmds.length) || (cmdOpcode ws == 0x18 && jobExists s && graphsFull { door := door, words := ws } s)
def recordsLack (door : Door) (ws : List W64) (s : State) : Bool := !recordsFit (reservesOf door ws s) s

/-- The control processor reads entry `k` after HEAD of a queue: one in device memory by NcRd at its home (R287). -/
def entryRead (q : Nat) (s : State) (k : Nat) : State :=
  let a := (tgetD s.ob.sq q {}).base + (getF s sqStateHead q + k) % 65536 % 2 ^ getF s sqStateDepthLog2 q * 64
  if isDevMem a 64 then rangeAccess .ncrd 10 a 64 s else s

/-- The entries that the control processor reads at the head of a queue. -/
def headReads (q : Nat) (host : List W64) (s : State) : State :=
  let n := match readHead s q host with | .short => 1 | .fails k => k + 1 | .cmd n _ _ => n
  (List.range n).foldl (entryRead q) s

/-- The head command of a queue is accepted, waits, or starts re-reads of an entry (R374, R390, R396). -/
def takeHead (q : Fin 256) (host : List W64) (s0 : State) : State :=
  let s := headReads q.val host s0
  let k := tgetD s.ob.sq q.val {}
  match readHead s q.val host with
  | .short => s
  | .fails e => setF sqStateState q.val 3 { s with ob.sq := tput s.ob.sq q.val { k with entry := e, rereads := 8, counted := k.counted && k.entry == e } }
  | .cmd n reserved ws =>
    let door := Door.sq q
    if limitsReached door ws s then headWaits door false s
    else if recordsLack door ws s then headWaits door true s
    else
      let t := setF sqStateHead q.val (getF s sqStateHead q.val + n) { s with ob.lastSq := tput s.ob.lastSq (getF s sqStatePrio q.val) q.val }
      let r := takeCmd door ws (reservesOf door ws s) t
      if reserved || (cmdShape (cmdOpcode ws)).isNone then endCmd r.1 (endRefused 0x0100) r.2 else r.2

/-- A queue may give the next entry. -/
def mayFetch (s : State) (host : List W64) (q : Nat) : Bool :=
  let st := getF s sqStateState q
  let k := tgetD s.ob.sq q {}
  if (st != 1 && st != 3) || k.rereads != 0 || k.gone then false
  else match readHead s q host with
    | .short => false
    | .fails _ => true
    | .cmd _ _ ws => !k.blocked || (!limitsReached (.sq (Fin.ofNat 256 q)) ws s && !recordsLack (.sq (Fin.ofNat 256 q)) ws s)

/-- The queue of highest PRIO that may give the next entry, round-robin after the one of that PRIO that gave the last (R393). -/
def nextQueue (s : State) (host : List W64) : Option Nat :=
  let may := (List.range 256).filter (mayFetch s host)
  let top := may.foldl (fun p q => max p (getF s sqStatePrio q)) 0
  let order := (List.range 256).map (fun i => (tgetD s.ob.lastSq top 255 + 1 + i) % 256)
  order.find? (fun q => may.contains q && getF s sqStatePrio q == top)

/-- A Lark request waits to be taken: its GO is set, and it is not being re-read. -/
def larkWaits (s : State) : Option Nat :=
  (List.range 64).find? (fun k => let l := larkGet s k; l.busy && !l.taken && l.rereads == 0)

/-- SQ_ENTRY_FETCH: pending Lark requests go first (R377, R393). -/
def sqEntryFetch (host : List W64) (s : State) : State :=
  if !flagSet s obStatusReady 0 || (larkWaits s).isSome then s
  else match nextQueue s host with
    | none => s
    | some q => takeHead (Fin.ofNat 256 q) host s

/-! ## Lark requests (R375–R377) -/

/-- The bodies of the Lark-eligible commands (Table CF-6 and the tables of the later chapters). -/
def larkBody (op : Nat) : OpenCmd → State → Body :=
  match op with
  | 0x00 => nopBody
  | 0x01 => queryBody
  | 0x02 => sqConfigBody
  | 0x03 => cqConfigBody
  | 0x04 => eqConfigBody
  | 0x08 => regReadBody
  | 0x09 => regWriteBody
  | 0x0A => cfgReadBody
  | 0x19 => graphCancelBody
  | 0x1C => seqOpenBody
  | 0x1D => seqCloseBody
  | 0x32 => resolveBody
  | 0x41 => hostDieResetBody
  | 0x48 => dirReadBody
  | 0x60 => startRequestBody
  | 0x64 => measureReadBody
  | 0x73 => portCtrlBody
  | 0x80 => capSetBody
  | 0x83 => pwReadBody
  | 0x8A => unitCtrlBody
  | 0x90 => fun oc s => if wordBits oc.words 1 0 0 = 1 then denyBody oc s else quiesceBody oc s
  | _ => fun _ s => refuseBody 0x0813 s

/-- A request's LEN, words and reserved fields. -/
def larkLen (l : LarkSlot) : Nat := bitsOf (larkCtrl l) 39 35
def larkWords (l : LarkSlot) : List W64 := (List.range (larkLen l)).map (fun i => BitVec.ofNat 64 (l.req >>> (64 * i)))
def larkReserved (l : LarkSlot) : Bool := bitsOf (larkCtrl l) 34 1 != 0 || bitsOf l.req 1983 1920 != 0

/-- CHECK of a request: 0xA5 over the command's bytes and LARK_CTRL, GO being 1. -/
def larkPasses (l : LarkSlot) : Bool :=
  let n := larkLen l
  decide (1 ≤ n) && decide (n ≤ 30) && xorBytes l.req (8 * n) ^^^ xorBytes (larkCtrl l) 8 == 0xA5

/-- A request that passes is accepted: GO clears, the command executes, its answer follows. -/
def larkTake (k : Fin 64) (s : State) : State :=
  let l := larkGet s k.val
  if 1024 ≤ s.ob.openCmds.length then s
  else
    let t := larkPut k.val { l with req := withBits l.req 1984 1984 0, taken := true, rereads := 0 } s
    let ws := larkWords l
    let r := takeCmd (.lark k) ws [] t
    if larkReserved l then endCmd r.1 (endRefused 0x0100) r.2 else startCmd (fun _ _ => true) (larkBody (cmdOpcode ws)) r.1 r.2

/-- LARK_GO: the pending request of the lowest slot is checked. -/
def larkGo (s : State) : State :=
  if !flagSet s obStatusReady 0 then s
  else match larkWaits s with
    | none => s
    | some k =>
      let l := larkGet s k
      if larkPasses l then larkTake (Fin.ofNat 64 k) s else larkPut k { l with rereads := 8 } s

/-! ## Re-reads (R374) -/

/-- An entry or request is not visible after its re-reads. -/
def notVisible (s : State) : State := raise flHlStatusNotVisible 0 s

/-- One re-read of a queue's entry. -/
def rereadQueue (q : Fin 256) (host : List W64) (s : State) : State :=
  let k := tgetD s.ob.sq q.val {}
  if k.rereads = 0 then s
  else
    let put := fun (x : SubQ) (t : State) => { t with ob.sq := tput t.ob.sq q.val x }
    let t := if k.counted then s else bump hlCountsRereads 0 1 s
    let t := entryRead q.val t k.entry
    let k := { k with counted := true }
    if (ringEntry s q.val k.entry host).isSome then takeHead q host (setF sqStateState q.val 1 (put { k with rereads := 0, entry := 0, counted := false } t))
    else if k.rereads = 1 then
      if k.fresh then put { k with rereads := 8, fresh := false } t
      else notice 0x0810 q.val 26 (notVisible (put { k with rereads := 0, gone := true } t))
    else put { k with rereads := k.rereads - 1 } t

/-- One re-read of a Lark request: after the last, the answer 0x0810. -/
def rereadLark (k : Fin 64) (s : State) : State :=
  let l := larkGet s k.val
  if !l.busy || l.taken || l.rereads = 0 then s
  else
    let t := if l.rereads = 8 then bump hlCountsRereads 0 1 s else s
    if larkPasses l then larkTake k t
    else if l.rereads = 1 then
      larkAnswer k.val 0x0810 0 0 0 0 (notVisible (larkPut k.val { l with req := withBits l.req 1984 1984 0, taken := true, rereads := 0 } t))
    else larkPut k.val { l with rereads := l.rereads - 1 } t

/-- ENTRY_REREAD. -/
def entryReread (door : Door) (host : List W64) (s : State) : State :=
  if !flagSet s obStatusReady 0 then s
  else match door with
    | .sq q => rereadQueue q host s
    | .lark k => rereadLark k s

end Sys2Proof.Machine
end

