-- ==== Sys2Proof/Machine/ExecMeadow.lean ====
section
/-! DEFINITION. Sys2Proof/Machine/ExecMeadow.lean: the commands and events of the Meadow dies: Tufts, Swards, the Stile and
the residency manager, one meaning for each row of chapters 4 to 12 of the opcode table. -/
namespace Sys2Proof.Machine

/-- What a command leaves once what follows any effect has happened: the scheduler's part, waiting commands, the quiesce
sequence. -/
def served (s t : State) : Host.Outcome State Fault Refusal := act s (settleAll (heldBack s t))

/-- An event that waits for no access. -/
def happens (s t : State) : Host.Outcome State Fault Refusal := act s (settleAll t)

/-- An effect on a Meadow die, which happens while the die takes steps. -/
def onMeadow (m : Nat) (f : State → State) (s : State) : Host.Outcome State Fault Refusal :=
  served s (if moduleRuns s && meadowUp s m then f s else s)

/-- An effect on a Tuft. -/
def onTuft (t : TuftNo) (f : State → State) (s : State) : Host.Outcome State Fault Refusal := onMeadow (t.val / 128) f s

/-- An effect on a Sward. -/
def onSward (sw : SwardNo) (f : State → State) (s : State) : Host.Outcome State Fault Refusal := onMeadow (sw.val / 16) f s

/-! ## Tasks and the work scheduler (R226–R238, R403, R404) -/

/-- TASK_START: the scheduler starts the task that R128 puts first among those that can start (R236). -/
def execTaskStart (s : State) : Host.Outcome State Fault Refusal := served s (if moduleRuns s then startTask s else s)

/-- TASK_COMPLETE: the task on the Tuft completes, its groups gone and its submissions done (R238). -/
def execTaskComplete (t : TuftNo) (s : State) : Host.Outcome State Fault Refusal :=
  onTuft t (fun s => match (tuft s t).task with | some id => completeTask id s | none => s) s

/-- POOL_WATCHDOG_EXPIRE (R232). -/
def execPoolWatchdogExpire (cmd : Bool) (id : Nat) (s : State) : Host.Outcome State Fault Refusal :=
  served s (if moduleRuns s then poolExpire cmd id s else s)

/-- STORE_ECC_ERROR (R227). -/
def execStoreEccError (t : TuftNo) (off : W32) (pool corrected : Bool) (s : State) : Host.Outcome State Fault Refusal :=
  onTuft t (storeEcc t off.toNat pool corrected) s

/-! ## The matrix array (R84–R118) -/

/-- MATRIX_ISSUE: a thread group issues a matrix operation (R93). -/
def execMatrixIssue (i : Issue) (s : State) : Host.Outcome State Fault Refusal := onTuft i.tuft (doMatrixIssue i) s

/-- MX_OP_START: the oldest operation of a quad's queue starts (R96). -/
def execMxOpStart (t : TuftNo) (quad : Fin 4) (s : State) : Host.Outcome State Fault Refusal := onTuft t (mxStart t quad) s

/-- SHADOW_LOAD_DONE: the shadow set is loaded (R99). -/
def execShadowLoadDone (t : TuftNo) (quad : Fin 4) (s : State) : Host.Outcome State Fault Refusal := onTuft t (mxLoadDone t quad) s

/-- MX_OP_COMPLETE: the running operation ends (R111). -/
def execMxOpComplete (t : TuftNo) (quad : Fin 4) (waited : W32) (s : State) : Host.Outcome State Fault Refusal :=
  onTuft t (mxComplete t quad waited.toNat) s

/-- MX_MODE_CHANGE: the engine, empty, takes the mode of the oldest waiting operation (R92). -/
def execMxModeChange (t : TuftNo) (s : State) : Host.Outcome State Fault Refusal := onTuft t (mxModeChange t) s

/-- MX_CHECK_FAIL: a checksum or parity check of the engine fails (R113). -/
def execMxCheckFail (t : TuftNo) (quad : Fin 4) (parity : Bool) (s : State) : Host.Outcome State Fault Refusal :=
  onTuft t (mxCheckFail t quad parity) s

/-- FOOT_HANDOVER: a block leaves the column feet (R177). -/
def execFootHandover (t : TuftNo) (quad : Fin 4) (waited : W32) (s : State) : Host.Outcome State Fault Refusal :=
  onTuft t (footHandover t quad waited.toNat) s

/-! ## The vector engine (R161–R186) -/

/-- CHAIN_ISSUE: a thread group issues a chain (R164). -/
def execChainIssue (i : Issue) (s : State) : Host.Outcome State Fault Refusal := onTuft i.tuft (doChainIssue i) s

/-- CHAIN_START: the oldest chain starts (R182). -/
def execChainStart (t : TuftNo) (s : State) : Host.Outcome State Fault Refusal := onTuft t (veStart t) s

/-- CHAIN_COMPLETE: the running chain ends (R175). -/
def execChainComplete (t : TuftNo) (inWait waited : W32) (s : State) : Host.Outcome State Fault Refusal :=
  onTuft t (veComplete t inWait.toNat waited.toNat) s

/-- VE_CHECK_FAIL: a lane's residue check fails (R184). -/
def execVeCheckFail (t : TuftNo) (lane : Fin 64) (s : State) : Host.Outcome State Fault Refusal := onTuft t (veCheckFail t lane) s

/-! ## Thread groups (R187–R220) -/

/-- GROUP_LAUNCH: the next thread group of the task takes a place on the Tuft (R188). -/
def execGroupLaunch (t : TuftNo) (s : State) : Host.Outcome State Fault Refusal := onTuft t (launchGroup t) s

/-- INTEGER_OP (R190). -/
def execIntegerOp (i : Issue) (op : IntOp) (wide : Bool) (s : State) : Host.Outcome State Fault Refusal :=
  onTuft i.tuft (doIntegerOp i op wide) s

/-- FP_OP (R192). -/
def execFpOp (i : Issue) (op : FpOp) (dbl : Bool) (rnd : RndMod) (s : State) : Host.Outcome State Fault Refusal :=
  onTuft i.tuft (doFpOp i op dbl rnd) s

/-- CONVERT_OP (R193). -/
def execConvertOp (i : Issue) (op : CvtOp) (s : State) : Host.Outcome State Fault Refusal := onTuft i.tuft (doConvertOp i op) s

/-- COMPARE_OP (R190). -/
def execCompareOp (i : Issue) (op : CmpOp) (s : State) : Host.Outcome State Fault Refusal := onTuft i.tuft (doCompareOp i op) s

/-- SCALAR_OP (R198). -/
def execScalarOp (i : Issue) (op : IntOp) (wide : Bool) (s : State) : Host.Outcome State Fault Refusal :=
  onTuft i.tuft (doScalarOp i op wide) s

/-- BRANCH (R214). -/
def execBranch (i : Issue) (op : BrOp) (s : State) : Host.Outcome State Fault Refusal := onTuft i.tuft (doBranch i op) s

/-- EXIT (R212). -/
def execThreadExit (i : Issue) (s : State) : Host.Outcome State Fault Refusal := onTuft i.tuft (doThreadExit i) s

/-- JOIN (R215). -/
def execJoin (i : Issue) (s : State) : Host.Outcome State Fault Refusal := onTuft i.tuft (doJoin i) s

/-- BAR.W (R213). -/
def execBarW (i : Issue) (s : State) : Host.Outcome State Fault Refusal := onTuft i.tuft (doBarW i) s

/-- TUFT_STORE_ACCESS (R201). -/
def execTuftStoreAccess (i : Issue) (m : MemMod) (s : State) : Host.Outcome State Fault Refusal := onTuft i.tuft (doStoreAccess i m) s

/-- GLOBAL_ACCESS (R199). -/
def execGlobalAccess (i : Issue) (m : MemMod) (s : State) : Host.Outcome State Fault Refusal := onTuft i.tuft (doGlobalAccess i m) s

/-- ATOMIC (R204). -/
def execAtomic (i : Issue) (m : AtomMod) (s : State) : Host.Outcome State Fault Refusal := onTuft i.tuft (doAtomic i m) s

/-- FENCE (R203). -/
def execFence (i : Issue) (reserved : Bool) (s : State) : Host.Outcome State Fault Refusal :=
  onTuft i.tuft (doFence i reserved) s

/-- BAR.ARRIVE (R212). -/
def execBarArrive (i : Issue) (sward : Bool) (idx : Fin 16) (s : State) : Host.Outcome State Fault Refusal :=
  onTuft i.tuft (doBar false i sward idx) s

/-- BAR.SYNC (R212). -/
def execBarSync (i : Issue) (sward : Bool) (idx : Fin 16) (s : State) : Host.Outcome State Fault Refusal :=
  onTuft i.tuft (doBar true i sward idx) s

/-- ARV.SET (R208). -/
def execArvSet (i : Issue) (s : State) : Host.Outcome State Fault Refusal := onTuft i.tuft (doArvSet i) s

/-- ARV.ADD (R208). -/
def execArvAdd (i : Issue) (s : State) : Host.Outcome State Fault Refusal := onTuft i.tuft (doArvAdd i) s

/-- ARV.READ (R208). -/
def execArvRead (i : Issue) (s : State) : Host.Outcome State Fault Refusal := onTuft i.tuft (doArvRead i) s

/-- ARV.WAIT (R208). -/
def execArvWait (i : Issue) (s : State) : Host.Outcome State Fault Refusal := onTuft i.tuft (doArvWait i) s

/-- ACPY.D (R242). -/
def execAcpyD (i : Issue) (s : State) : Host.Outcome State Fault Refusal := onTuft i.tuft (doAcpyD i) s

/-- ACPY.L (R211). -/
def execAcpyL (i : Issue) (size : Fin 5) (s : State) : Host.Outcome State Fault Refusal := onTuft i.tuft (doAcpyL i size) s

/-- ACPY.L_COMPLETE: the next of a Tuft's direct copies is done (R211). -/
def execAcpyLComplete (t : TuftNo) (nth : Fin 64) (s : State) : Host.Outcome State Fault Refusal := onTuft t (acpyLDone t nth) s

/-- ROUTER_ISSUE (R130). -/
def execRouterIssue (i : Issue) (s : State) : Host.Outcome State Fault Refusal := onTuft i.tuft (doRouterIssue i) s

/-- IFETCH_LINE_FILL: a line of program words arrives for a group (R197). -/
def execIfetchLineFill (t : TuftNo) (group : W16) (s : State) : Host.Outcome State Fault Refusal := onTuft t (fetchLine t group.toNat) s

/-- RF_ECC_ERROR: a register read meets an error (R196). -/
def execRfEccError (t : TuftNo) (group : W16) (reg : Fin 256) (lane : Fin 32) (corrected : Bool) (s : State) :
    Host.Outcome State Fault Refusal := onTuft t (rfEcc t group.toNat reg lane corrected) s

/-! ## The copy engine and the exchange (R239–R257) -/

/-- The Meadow of the copy engine that holds an entry. -/
def entMeadow (s : State) (id : Nat) : Nat :=
  match entGet s id with | some e => (match copyGet s e.copy with | some c => c.sward / 16 | none => 0) | none => 0

/-- An effect on an entry of a copy queue. -/
def onEntry (id : Nat) (f : State → State) (s : State) : Host.Outcome State Fault Refusal := onMeadow (entMeadow s id) f s

/-- A remote module refused a burst of the entry: the descriptor completes with 0x0175 (R252). -/
def refusedBy (refused : Bool) : Nat := if refused then 0x0175 else 0

/-- COPY: one burst of an entry that copies; `reply` is what another module answered (R239). -/
def execCopy (entry reply : Nat) (poisoned : List Nat) (refused : Bool) (s : State) : Host.Outcome State Fault Refusal :=
  onEntry entry (entStep 0 entry (reply, poisoned) (refusedBy refused)) s

/-- FILL: one burst of an entry that fills (R239). -/
def execFill (entry : Nat) (refused : Bool) (s : State) : Host.Outcome State Fault Refusal :=
  onEntry entry (entStep 1 entry (0, []) (refusedBy refused)) s

/-- DISPATCH: one step of an entry that dispatches rows to experts (R250). -/
def execDispatch (entry : Nat) (fresh : Bool) (refused : Bool) (s : State) : Host.Outcome State Fault Refusal :=
  onEntry entry (dispatchStep entry fresh (refusedBy refused)) s

/-- COMBINE: one token of an entry that combines rows of experts (R251). -/
def execCombine (entry : Nat) (reply : List (Nat × List Nat)) (refused : Bool) (s : State) : Host.Outcome State Fault Refusal :=
  onEntry entry (combineStep entry reply (refusedBy refused)) s

/-- COPY_ENTRY_COMPLETE: an entry whose bursts have all landed leaves the queue (R244). -/
def execCopyEntryComplete (entry : Nat) (s : State) : Host.Outcome State Fault Refusal := onEntry entry (entComplete entry) s

/-- COPY_CHECK_FAIL: a check of the engine fails on an entry (R255). -/
def execCopyCheckFail (entry : Nat) (s : State) : Host.Outcome State Fault Refusal := onEntry entry (copyCheckFail entry) s

/-- REMOTE_BURST_ARRIVE: a burst of another module's copy arrives, to write or to be read (R252). -/
def execRemoteBurstArrive (u : UnitNo) (source burst : Nat) (va : VA) (len val : Nat) (poisoned : List Nat) (read : Bool) (s : State) :
    Host.Outcome State Fault Refusal :=
  served s (if moduleRuns s && 8 ≤ u.val && dieUp s (dieOfXunit u) then
    (if read then remoteRead u source burst va.toNat len s else remoteWrite u source burst va.toNat len val poisoned s) else s)

/-- DISPATCH_COUNT_MESSAGE: a source's counts for experts of this module (R142). -/
def execDispatchCountMessage (rank meadow order buf round : Nat) (counts : List (Nat × Nat)) (fresh last : Bool) (s : State) :
    Host.Outcome State Fault Refusal :=
  served s (if moduleRuns s then countMessage rank meadow order buf round counts fresh last s else s)

/-- DISPATCH_SEGMENT_ANSWER: a destination answers where this source's segment of an expert starts (R250). -/
def execDispatchSegmentAnswer (entry expert start : Nat) (s : State) : Host.Outcome State Fault Refusal :=
  onEntry entry (segmentAnswer entry expert start) s

/-! ## The Stile (R130–R144) -/

/-- ROUTER_INVOCATION_START: the oldest invocation of a Meadow starts; threads that waited for its place issue again (R131). -/
def execRouterInvocationStart (m : MeadowNo) (s : State) : Host.Outcome State Fault Refusal :=
  onMeadow m (fun s => wakeMeadowQueues m (startInv m s)) s

/-- ROUTER_INVOCATION_COMPLETE: the running invocation writes its lists and ends (R137). -/
def execRouterInvocationComplete (m : MeadowNo) (s : State) : Host.Outcome State Fault Refusal :=
  onMeadow m (completeInv m) s

/-! ## Residency (R145–R155) -/

/-- RESIDENCY_HINT: a hint for a unit reaches a Sward (R151). -/
def execResidencyHint (sw : SwardNo) (region : Fin 16) (unit : Fin 4096) (s : State) : Host.Outcome State Fault Refusal :=
  onSward sw (hintReceived sw region unit) s

/-- UNIT_STAGE_COMPLETE: a unit is in the staging area (R149). -/
def execUnitStageComplete (sw : SwardNo) (region : Fin 16) (unit : Fin 4096) (s : State) : Host.Outcome State Fault Refusal :=
  onSward sw (stageDone sw region unit) s

/-- UNIT_LIFT_START: a lift into a pool starts (R152). -/
def execUnitLiftStart (sw : SwardNo) (region : Fin 16) (unit : Fin 4096) (s : State) : Host.Outcome State Fault Refusal :=
  onSward sw (liftStart sw region unit) s

/-- UNIT_LIFT_COMPLETE: a unit is in a pool (R149). -/
def execUnitLiftComplete (sw : SwardNo) (region : Fin 16) (unit : Fin 4096) (s : State) : Host.Outcome State Fault Refusal :=
  onSward sw (liftDone sw region unit) s

end Sys2Proof.Machine
end

