-- ==== Sys2Proof/Machine/ExecMemory.lean ====
section
/-! DEFINITION. Sys2Proof/Machine/ExecMemory.lean: events of the memory stacks and homes beyond the protocol's messages, of
the translation units, and of the application cores (R258–R356). -/
namespace Sys2Proof.Machine

/-- An effect on a home and its stack. -/
def onHome (h : Nat) (f : State → State) (s : State) : Host.Outcome State Fault Refusal :=
  happens s (if moduleRuns s && homeUp s h then f s else s)

/-- THERM_HOLD_TIMEOUT: a stack held for 100 ms (R276). -/
def execThermHoldTimeout (h : HomeNo) (s : State) : Host.Outcome State Fault Refusal := onHome h (thermHold h) s

/-- DRAM_CORRECTED_ERROR (R278). -/
def execDramCorrectedError (pa : PA) (s : State) : Host.Outcome State Fault Refusal :=
  onHome (homeOf pa.toNat) (dramCorrected pa.toNat) s

/-- MEMORY_UNCORRECTABLE (R279). -/
def execMemoryUncorrectable (pa : PA) (inSlice : Bool) (s : State) : Host.Outcome State Fault Refusal :=
  onHome (homeOf pa.toNat) (memUncorrectable pa.toNat inSlice) s

/-- PATROL_SCRUB_READ (R280). -/
def execPatrolScrubRead (h : HomeNo) (corrected uncorrectable : Bool) (s : State) : Host.Outcome State Fault Refusal :=
  onHome h (patrolRead h corrected uncorrectable) s

/-- DRAM_ROW_TEST_DONE (R280). -/
def execDramRowTestDone (pa : PA) (passes : Bool) (badSectors corrected : W64) (s : State) : Host.Outcome State Fault Refusal :=
  onHome (homeOf pa.toNat) (rowTestDone pa.toNat passes badSectors.toNat corrected.toNat) s

/-- HAYLOFT_LOCATION_TEST_DONE (R282). -/
def execHayloftLocationTestDone (pa : PA) (way : Fin 16) (passes : Bool) (s : State) : Host.Outcome State Fault Refusal :=
  onHome (homeOf pa.toNat) (locTestDone pa.toNat way passes) s

/-- HOME_TIMEOUT: the request ends with poison, and an agent that did not answer leaves service (R302). -/
def execHomeTimeout (pa : PA) (s : State) : Host.Outcome State Fault Refusal :=
  onHome (homeOf pa.toNat) (fun s =>
    let r := homeTimeoutAt (pa.toNat / 128) s
    r.1.foldl (fun t a => leaveDie (if a < 8 then a else a + 16) 7 t) r.2) s

/-- DIR_ECC_ERROR (R292). -/
def execDirEccError (h : HomeNo) (set : Fin 32768) (way : Fin 16) (s : State) : Host.Outcome State Fault Refusal :=
  onHome h (dirEcc h set way) s

/-- HOST_D2H_RESPONSE (R307). -/
def execHostD2hResponse (pa : PA) (d : Option LineData) (s : State) : Host.Outcome State Fault Refusal :=
  onHome (homeOf pa.toNat) (hostResponse pa.toNat d) s

/-- DIRECTORY_SWEEP_DONE (R303). -/
def execDirectorySweepDone (h : HomeNo) (s : State) : Host.Outcome State Fault Refusal := onHome h (sweepDone h) s

/-! ## Translation (R313–R340) -/

/-- An effect on a translation unit. -/
def onUnit (u : Nat) (f : State → State) (s : State) : Host.Outcome State Fault Refusal :=
  served s (if moduleRuns s && dieUp s (dieOfXunit u) then f s else s)

/-- TABLE_WALK_DONE: an access of no stalled waiter walks the table, to fill a buffer or to fault (R322). -/
def execTableWalkDone (u : UnitNo) (sward : Fin 16) (tuft : TuftNo) (agent : Fin 7) (va : VA) (r w x prefetch : Bool) (s : State) :
    Host.Outcome State Fault Refusal :=
  onUnit u (walkDone { unit := u, sward := sward, tuft := tuft, agent := agent, va := va.toNat, r := r, w := w, x := x } prefetch) s

/-- The place of the stalled access that expires. -/
def stallPlace (p : Fin 3) : StallPlace := if p = 0 then .slot else if p = 1 then .noSlot else .move

/-- FAULT_WATCHDOG_EXPIRE (R331). -/
def execFaultWatchdogExpire (u : UnitNo) (place : Fin 3) (fault nth : Nat) (s : State) : Host.Outcome State Fault Refusal :=
  onUnit u (watchdogExpire u (stallPlace place) fault nth) s

/-- INVAL_UNIT_REPORT (R332). -/
def execInvalUnitReport (u : UnitNo) (s : State) : Host.Outcome State Fault Refusal := onUnit u (unitReports u) s

/-! ## Application cores (R341–R356); a core whose die is out of service, or whose module does not run, does nothing -/

/-- CORE_MEMORY_ACCESS: a load, store or fetch of 2^size bytes (R341); a fetched instruction that the rules describe is performed. -/
def execCoreMemoryAccess (h : HartNo) (pa : PA) (acc : CoreAcc) (size : Fin 4) (data : W64) (s : State) :
    Host.Outcome State Fault Refusal :=
  served s (match acc with
    | .fetch => coreAccess h pa.toNat .fetch size data.toNat s
    | .insn i => coreStep h pa.toNat i data.toNat s
    | a => coreInstr h (coreAccess h pa.toNat a size data.toNat) s)

/-- CORE_AMO (R346). -/
def execCoreAmo (h : HartNo) (pa : PA) (op : CoreAmo) (dbl : Bool) (data : W64) (s : State) : Host.Outcome State Fault Refusal :=
  served s (coreInstr h (coreAmo h pa.toNat op dbl data.toNat) s)

/-- CBO.ZERO (R344). -/
def execCboZero (h : HartNo) (pa : PA) (s : State) : Host.Outcome State Fault Refusal := served s (coreInstr h (cboZeroBlock h pa.toNat) s)

/-- CBO.CLEAN (R344). -/
def execCboClean (h : HartNo) (pa : PA) (s : State) : Host.Outcome State Fault Refusal := served s (coreInstr h (cboCleanLine h pa.toNat) s)

/-- CBO.FLUSH (R344). -/
def execCboFlush (h : HartNo) (pa : PA) (s : State) : Host.Outcome State Fault Refusal := served s (coreInstr h (cboFlushLine h pa.toNat) s)

/-- CBO.INVAL, which behaves as CBO.FLUSH (R344). -/
def execCboInval (h : HartNo) (pa : PA) (s : State) : Host.Outcome State Fault Refusal := served s (coreInstr h (cboFlushLine h pa.toNat) s)

/-- CORE_TIMER_INTERRUPT (R350). -/
def execCoreTimerInterrupt (h : HartNo) (supervisor : Bool) (cmp : W64) (s : State) : Host.Outcome State Fault Refusal :=
  served s (coreTimer h supervisor cmp.toNat s)

/-- CORE_RUNTIME_WATCHDOG (R355). -/
def execCoreRuntimeWatchdog (d : Fin 2) (s : State) : Host.Outcome State Fault Refusal :=
  served s (if moduleRuns s && dieUp s (24 + d) then coreWatchdog d s else s)

end Sys2Proof.Machine
end

