-- ==== Sys2Proof/Machine/ExecObiolo.lean ====
section
/-! DEFINITION. Sys2Proof/Machine/ExecObiolo.lean: the Obiolo commands, one meaning for each row of Table CF-6 that the
opcode table lists. Each is served as R389–R398 say (`runCmd`, `runWith`). -/
namespace Sys2Proof.Machine

/-- NOP (R398). -/
def execNop (c : Cmd) (s : State) : Host.Outcome State Fault Refusal := served s (runCmd 0x00 nopBody c s)
/-- QUERY (R398). -/
def execQuery (c : Cmd) (s : State) : Host.Outcome State Fault Refusal := served s (runCmd 0x01 queryBody c s)
/-- SQ_CONFIG (R407). -/
def execSqConfig (c : Cmd) (s : State) : Host.Outcome State Fault Refusal := served s (runCmd 0x02 sqConfigBody c s)
/-- CQ_CONFIG (R395). -/
def execCqConfig (c : Cmd) (s : State) : Host.Outcome State Fault Refusal := served s (runCmd 0x03 cqConfigBody c s)
/-- EQ_CONFIG (R409). -/
def execEqConfig (c : Cmd) (s : State) : Host.Outcome State Fault Refusal := served s (runCmd 0x04 eqConfigBody c s)
/-- REG_READ (R406). -/
def execRegRead (c : Cmd) (s : State) : Host.Outcome State Fault Refusal := served s (runCmd 0x08 regReadBody c s)
/-- REG_WRITE (R406). -/
def execRegWrite (c : Cmd) (s : State) : Host.Outcome State Fault Refusal := served s (runCmd 0x09 regWriteBody c s)
/-- CFG_READ (R406). -/
def execCfgRead (c : Cmd) (s : State) : Host.Outcome State Fault Refusal := served s (runCmd 0x0A cfgReadBody c s)
/-- CFG_WRITE (R406). -/
def execCfgWrite (c : Cmd) (s : State) : Host.Outcome State Fault Refusal := served s (runCmd 0x0B cfgWriteBody c s)

/-! ## Writes of one register (R284, R311, R339, R353, R368, R407, R547, R549) -/

/-- EV_ROUTE_WRITE (R353). -/
def execEvRouteWrite (c : Cmd) (s : State) : Host.Outcome State Fault Refusal := served s (doRegWriteOf .evRoute c s)
/-- HAY_CTRL_WRITE (R284). -/
def execHayCtrlWrite (c : Cmd) (s : State) : Host.Outcome State Fault Refusal := served s (doRegWriteOf .hayCtrl c s)
/-- CO_CTRL_WRITE (R311). -/
def execCoCtrlWrite (c : Cmd) (s : State) : Host.Outcome State Fault Refusal := served s (doRegWriteOf .coCtrl c s)
/-- AT_CTRL_WRITE (R339). -/
def execAtCtrlWrite (c : Cmd) (s : State) : Host.Outcome State Fault Refusal := served s (doRegWriteOf .atCtrl c s)
/-- OB_CTRL_WRITE (R232). -/
def execObCtrlWrite (c : Cmd) (s : State) : Host.Outcome State Fault Refusal := served s (doRegWriteOf .obCtrl c s)
/-- MG_CTRL_WRITE (R549). -/
def execMgCtrlWrite (c : Cmd) (s : State) : Host.Outcome State Fault Refusal := served s (doRegWriteOf .mgCtrl c s)
/-- HL_RP_INWIN_WRITE (R368). -/
def execHlRpInwinWrite (c : Cmd) (s : State) : Host.Outcome State Fault Refusal := served s (doRegWriteOf .hlRpInwin c s)

/-! ## Jobs, graphs, sequences, buffers, regions (R400–R404) -/

/-- JOB_CREATE (R400). -/
def execJobCreate (c : Cmd) (s : State) : Host.Outcome State Fault Refusal := served s (runCmd 0x10 jobCreateBody c s)
/-- JOB_DESTROY (R401). -/
def execJobDestroy (c : Cmd) (s : State) : Host.Outcome State Fault Refusal := served s (runCmd 0x11 jobDestroyBody c s)
/-- GRAPH_SUBMIT (R402). -/
def execGraphSubmit (c : Cmd) (s : State) : Host.Outcome State Fault Refusal := served s (doGraphSubmit c s)
/-- GRAPH_CANCEL (R403). -/
def execGraphCancel (c : Cmd) (s : State) : Host.Outcome State Fault Refusal := served s (runCmd 0x19 graphCancelBody c s)
/-- SEQ_OPEN (R156). -/
def execSeqOpen (c : Cmd) (s : State) : Host.Outcome State Fault Refusal := served s (runCmd 0x1C seqOpenBody c s)
/-- SEQ_CLOSE (R404). -/
def execSeqClose (c : Cmd) (s : State) : Host.Outcome State Fault Refusal := served s (runCmd 0x1D seqCloseBody c s)
/-- BUF_CREATE (R404). -/
def execBufCreate (c : Cmd) (s : State) : Host.Outcome State Fault Refusal := served s (runCmd 0x20 bufCreateBody c s)
/-- BUF_FREE (R404). -/
def execBufFree (c : Cmd) (s : State) : Host.Outcome State Fault Refusal := served s (runCmd 0x21 bufFreeBody c s)
/-- REGION_ARM (R145). -/
def execRegionArm (c : Cmd) (s : State) : Host.Outcome State Fault Refusal := served s (runCmd 0x24 regionArmBody c s)
/-- REGION_QUIESCE (R154). -/
def execRegionQuiesce (c : Cmd) (s : State) : Host.Outcome State Fault Refusal := served s (runCmd 0x25 regionQuiesceBody c s)
/-- REGION_RELEASE (R154). -/
def execRegionRelease (c : Cmd) (s : State) : Host.Outcome State Fault Refusal := served s (runCmd 0x26 regionReleaseBody c s)

/-! ## Address space (R317, R330–R337, R399) and coherence (R309) -/

/-- MAP (R332). -/
def execMap (c : Cmd) (s : State) : Host.Outcome State Fault Refusal := served s (doMap c s)
/-- INVALIDATE with UNMAP (R332). -/
def execInvalidateUnmap (c : Cmd) (s : State) : Host.Outcome State Fault Refusal := served s (doInvalUnmap c s)
/-- INVALIDATE with PROTECT (R332). -/
def execInvalidateProtect (c : Cmd) (s : State) : Host.Outcome State Fault Refusal := served s (doInvalProtect c s)
/-- INVALIDATE with REMAP (R332). -/
def execInvalidateRemap (c : Cmd) (s : State) : Host.Outcome State Fault Refusal := served s (doInvalRemap c s)
/-- RESOLVE with RETRY (R330). -/
def execResolveRetry (c : Cmd) (s : State) : Host.Outcome State Fault Refusal := served s (doResolve 0 c s)
/-- RESOLVE with FAIL (R330). -/
def execResolveFail (c : Cmd) (s : State) : Host.Outcome State Fault Refusal := served s (doResolve 1 c s)
/-- PREFETCH to device memory (R335). -/
def execPrefetchToDevice (c : Cmd) (s : State) : Host.Outcome State Fault Refusal := served s (doPrefetch 0 c s)
/-- PREFETCH to host memory (R335). -/
def execPrefetchToHost (c : Cmd) (s : State) : Host.Outcome State Fault Refusal := served s (doPrefetch 1 c s)
/-- ADVISE (R337). -/
def execAdvise (c : Cmd) (s : State) : Host.Outcome State Fault Refusal := served s (doAdvise c s)
/-- BIAS_SET to host bias (R309). -/
def execBiasSetToHost (c : Cmd) (s : State) : Host.Outcome State Fault Refusal := served s (doBiasSet 1 c s)
/-- BIAS_SET to device bias (R309). -/
def execBiasSetToDevice (c : Cmd) (s : State) : Host.Outcome State Fault Refusal := served s (doBiasSet 0 c s)
/-- CORES_START (R355). -/
def execCoresStart (c : Cmd) (s : State) : Host.Outcome State Fault Refusal := served s (runCmd 0x40 coresStartBody c s)
/-- HOST_DIE_RESET (R355). -/
def execHostDieReset (c : Cmd) (s : State) : Host.Outcome State Fault Refusal := served s (runCmd 0x41 hostDieResetBody c s)
/-- DIR_READ (R289). -/
def execDirRead (c : Cmd) (s : State) : Host.Outcome State Fault Refusal := served s (runCmd 0x48 dirReadBody c s)

/-! ## Start-up and security (R517–R540) -/

/-- START_REQUEST for a cold start; TYPE 3, which is reserved, is refused here (R538). -/
def execStartRequestCold (c : Cmd) (s : State) : Host.Outcome State Fault Refusal :=
  served s (runWith (cmdOpcode c.words == 0x60 && (wordBits c.words 1 1 0 == 0 || wordBits c.words 1 1 0 == 3))
    (fun _ => ownRecord c.door c.words) startRequestBody c s)
/-- START_REQUEST for a warm start (R538). -/
def execStartRequestWarm (c : Cmd) (s : State) : Host.Outcome State Fault Refusal :=
  served s (runWith (cmdOpcode c.words == 0x60 && wordBits c.words 1 1 0 == 1) (fun _ => ownRecord c.door c.words) startRequestBody c s)
/-- START_REQUEST for a recovery start (R538). -/
def execStartRequestRecovery (c : Cmd) (s : State) : Host.Outcome State Fault Refusal :=
  served s (runWith (cmdOpcode c.words == 0x60 && wordBits c.words 1 1 0 == 2) (fun _ => ownRecord c.door c.words) startRequestBody c s)
/-- IMAGE_STAGE (R538). -/
def execImageStage (c : Cmd) (s : State) : Host.Outcome State Fault Refusal := served s (runCmd 0x61 imageStageBody c s)
/-- IMAGE_ACTIVATE (R538). -/
def execImageActivate (c : Cmd) (s : State) : Host.Outcome State Fault Refusal := served s (runCmd 0x62 imageActivateBody c s)
/-- SVN_COMMIT (R524). -/
def execSvnCommit (c : Cmd) (s : State) : Host.Outcome State Fault Refusal := served s (runCmd 0x63 svnCommitBody c s)
/-- MEASURE_READ (R533). -/
def execMeasureRead (c : Cmd) (s : State) : Host.Outcome State Fault Refusal := served s (runCmd 0x64 measureReadBody c s)
/-- ATTEST (R535). -/
def execAttest (c : Cmd) (s : State) : Host.Outcome State Fault Refusal := served s (runCmd 0x65 attestBody c s)
/-- DEBUG_UNLOCK with SUBMIT = 0: a nonce (R536). -/
def execDebugUnlockNonce (c : Cmd) (s : State) : Host.Outcome State Fault Refusal :=
  served s (runWith (cmdOpcode c.words == 0x66 && wordBits c.words 1 0 0 == 0) (fun _ => ownRecord c.door c.words) nonceBody c s)
/-- DEBUG_UNLOCK with SUBMIT = 1: a token (R536). -/
def execDebugUnlockSubmit (c : Cmd) (s : State) : Host.Outcome State Fault Refusal :=
  served s (runWith (cmdOpcode c.words == 0x66 && wordBits c.words 1 0 0 == 1) (fun _ => ownRecord c.door c.words) unlockBody c s)

/-! ## The tensor fabric and collectives (R419–R438) -/

/-- PART_CREATE (R423). -/
def execPartCreate (c : Cmd) (s : State) : Host.Outcome State Fault Refusal := served s (runCmd 0x70 partCreateBody c s)
/-- PART_DESTROY (R424). -/
def execPartDestroy (c : Cmd) (s : State) : Host.Outcome State Fault Refusal := served s (runCmd 0x71 partDestroyBody c s)
/-- SPARE_SWAP (R432). -/
def execSpareSwap (c : Cmd) (s : State) : Host.Outcome State Fault Refusal := served s (runCmd 0x72 spareSwapBody c s)
/-- PORT_CTRL: retrain (R431). -/
def execPortCtrlRetrain (c : Cmd) (s : State) : Host.Outcome State Fault Refusal := served s (doPortCtrl 0 c s)
/-- PORT_CTRL: disable (R431). -/
def execPortCtrlDisable (c : Cmd) (s : State) : Host.Outcome State Fault Refusal := served s (doPortCtrl 1 c s)
/-- PORT_CTRL: enable (R431). -/
def execPortCtrlEnable (c : Cmd) (s : State) : Host.Outcome State Fault Refusal := served s (doPortCtrl 2 c s)
/-- PORT_CTRL: lane test (R430). -/
def execPortCtrlLaneTest (c : Cmd) (s : State) : Host.Outcome State Fault Refusal := served s (doPortCtrl 3 c s)
/-- COLL: all-reduce (R435). -/
def execCollAllReduce (c : Cmd) (s : State) : Host.Outcome State Fault Refusal := served s (doColl 0 c s)
/-- COLL: reduce-scatter (R434). -/
def execCollReduceScatter (c : Cmd) (s : State) : Host.Outcome State Fault Refusal := served s (doColl 1 c s)
/-- COLL: all-gather (R434). -/
def execCollAllGather (c : Cmd) (s : State) : Host.Outcome State Fault Refusal := served s (doColl 2 c s)
/-- COLL: broadcast (R434). -/
def execCollBroadcast (c : Cmd) (s : State) : Host.Outcome State Fault Refusal := served s (doColl 3 c s)
/-- COLL: barrier (R434). -/
def execCollBarrier (c : Cmd) (s : State) : Host.Outcome State Fault Refusal := served s (doColl 4 c s)
/-- PATTERN (R437). -/
def execPattern (c : Cmd) (s : State) : Host.Outcome State Fault Refusal := served s (runCmd 0x75 patternBody c s)

/-! ## The ordinary network (R441–R456) -/

/-- NET_CONFIG (R454). -/
def execNetConfig (c : Cmd) (s : State) : Host.Outcome State Fault Refusal := served s (runCmd 0x78 netConfigBody c s)
/-- QP_CONFIG (R454). -/
def execQpConfig (c : Cmd) (s : State) : Host.Outcome State Fault Refusal := served s (runCmd 0x79 qpConfigBody c s)
/-- NET_POST: RDMA read (R442). -/
def execNetPostRdmaRead (c : Cmd) (s : State) : Host.Outcome State Fault Refusal := served s (doNetPost 0 c s)
/-- NET_POST: RDMA write (R442). -/
def execNetPostRdmaWrite (c : Cmd) (s : State) : Host.Outcome State Fault Refusal := served s (doNetPost 1 c s)
/-- NET_POST: send (R442). -/
def execNetPostSend (c : Cmd) (s : State) : Host.Outcome State Fault Refusal := served s (doNetPost 2 c s)
/-- IMAGE_FETCH (R448). -/
def execImageFetch (c : Cmd) (s : State) : Host.Outcome State Fault Refusal := served s (runCmd 0x7B imageFetchBody c s)
/-- XGROUP_OPEN (R452). -/
def execXgroupOpen (c : Cmd) (s : State) : Host.Outcome State Fault Refusal := served s (runCmd 0x7C xgroupBody c s)
/-- XCOLL: all-reduce (R453). -/
def execXcollAllReduce (c : Cmd) (s : State) : Host.Outcome State Fault Refusal := served s (doXcoll 0 c s)
/-- XCOLL: reduce-scatter (R453). -/
def execXcollReduceScatter (c : Cmd) (s : State) : Host.Outcome State Fault Refusal := served s (doXcoll 1 c s)
/-- XCOLL: all-gather (R453). -/
def execXcollAllGather (c : Cmd) (s : State) : Host.Outcome State Fault Refusal := served s (doXcoll 2 c s)
/-- XCOLL: broadcast (R453). -/
def execXcollBroadcast (c : Cmd) (s : State) : Host.Outcome State Fault Refusal := served s (doXcoll 3 c s)
/-- XCOLL: barrier (R453). -/
def execXcollBarrier (c : Cmd) (s : State) : Host.Outcome State Fault Refusal := served s (doXcoll 4 c s)

/-! ## Power, errors and service (R481–R516, R544) -/

/-- CAP_SET (R490). -/
def execCapSet (c : Cmd) (s : State) : Host.Outcome State Fault Refusal := served s (runCmd 0x80 capSetBody c s)
/-- PHASE_READ (R496). -/
def execPhaseRead (c : Cmd) (s : State) : Host.Outcome State Fault Refusal := served s (runCmd 0x81 phaseReadBody c s)
/-- PHASE_LOAD (R496). -/
def execPhaseLoad (c : Cmd) (s : State) : Host.Outcome State Fault Refusal := served s (runCmd 0x82 phaseLoadBody c s)
/-- PW_READ (R496). -/
def execPwRead (c : Cmd) (s : State) : Host.Outcome State Fault Refusal := served s (runCmd 0x83 pwReadBody c s)
/-- ERR_LOG_READ (R501). -/
def execErrLogRead (c : Cmd) (s : State) : Host.Outcome State Fault Refusal := served s (runCmd 0x88 logReadBody c s)
/-- SELF_TEST (R514). -/
def execSelfTest (c : Cmd) (s : State) : Host.Outcome State Fault Refusal := served s (runCmd 0x89 selfTestBody c s)
/-- UNIT_CTRL: withdraw (R514). -/
def execUnitCtrlWithdraw (c : Cmd) (s : State) : Host.Outcome State Fault Refusal := served s (doUnitCtrl 0 c s)
/-- UNIT_CTRL: return (R514). -/
def execUnitCtrlReturn (c : Cmd) (s : State) : Host.Outcome State Fault Refusal := served s (doUnitCtrl 1 c s)
/-- ERR_INJECT (R514). -/
def execErrInject (c : Cmd) (s : State) : Host.Outcome State Fault Refusal := served s (runCmd 0x8B injectBody c s)
/-- QUIESCE with DENY = 0 (R544). -/
def execQuiesce (c : Cmd) (s : State) : Host.Outcome State Fault Refusal :=
  served s (runWith (cmdOpcode c.words == 0x90 && wordBits c.words 1 0 0 == 0) (fun _ => ownRecord c.door c.words) quiesceBody c s)
/-- QUIESCE with DENY = 1 (R548). -/
def execQuiesceDeny (c : Cmd) (s : State) : Host.Outcome State Fault Refusal :=
  served s (runWith (cmdOpcode c.words == 0x90 && wordBits c.words 1 0 0 == 1) (fun _ => ownRecord c.door c.words) denyBody c s)

/-! ## The doors and the control processor (R374–R377, R389, R393, R511) -/

/-- SQ_ENTRY_FETCH: the control processor takes the next head (R374). -/
def execSqEntryFetch (host : List W64) (s : State) : Host.Outcome State Fault Refusal := served s (sqEntryFetch host s)
/-- LARK_GO: the control processor takes the lowest Lark slot whose GO waits (R376). -/
def execLarkGo (s : State) : Host.Outcome State Fault Refusal := served s (larkGo s)
/-- ENTRY_REREAD: a head that failed its check is read again (R374). -/
def execEntryReread (door : Door) (host : List W64) (s : State) : Host.Outcome State Fault Refusal := served s (entryReread door host s)
/-- CP_FAULT: a fault of the control processor's program restarts it (R511). -/
def execCpFault (s : State) : Host.Outcome State Fault Refusal := served s (if moduleRuns s && dieUp s 26 then cpRestart s else s)
/-- CP_WATCHDOG_EXPIRE: the 10 ms watchdog restarts the control processor (R511). -/
def execCpWatchdogExpire (s : State) : Host.Outcome State Fault Refusal :=
  served s (if moduleRuns s && dieUp s 26 then cpRestart s else s)
/-- CP_RESTART_DONE (R511). -/
def execCpRestartDone (s : State) : Host.Outcome State Fault Refusal :=
  served s (if moduleRuns s && dieUp s 26 then cpRestarted s else s)

end Sys2Proof.Machine
end

