-- ==== Sys2Proof/Machine/ExecHost.lean ====
section
/-! DEFINITION. Sys2Proof/Machine/ExecHost.lean: events of the host link and writes to the door registers (R357–R388,
R405–R408). -/
namespace Sys2Proof.Machine

/-- An effect at the host link's controller, on the west I/O die. -/
def onLink (f : State → State) (s : State) : Host.Outcome State Fault Refusal := served s (if linksAlive s then f s else s)

/-- HOST_LINK_UP (R383). -/
def execHostLinkUp (speed : Fin 7) (width : Fin 17) (s : State) : Host.Outcome State Fault Refusal := onLink (linkUp speed width) s
/-- HOST_LINK_RETRAIN (R380). -/
def execHostLinkRetrain (speed : Fin 7) (width : Fin 17) (s : State) : Host.Outcome State Fault Refusal :=
  onLink (linkRetrain speed width) s
/-- HOST_LINK_LOSS; the loss is noticed while the die is in service, whatever else stopped (R381). -/
def execHostLinkLoss (configReset : Bool) (s : State) : Host.Outcome State Fault Refusal :=
  happens s (if dieUp s 26 then linkLoss configReset s else s)
/-- DOORBELL (R372). -/
def execDoorbell (q : Fin 256) (word : W32) (s : State) : Host.Outcome State Fault Refusal := onLink (doorbellWrite q word.toNat) s
/-- LARK_REQUEST_WRITE (R377). -/
def execLarkRequestWrite (slot : Fin 64) (off : Fin 32) (words : List W64) (s : State) : Host.Outcome State Fault Refusal :=
  onLink (larkRequest slot off (words.map (·.toNat))) s
/-- BAR2_ACCESS (R365). -/
def execBar2Access (off : BitVec 41) (write : Bool) (len val : Nat) (poisoned : Bool) (s : State) : Host.Outcome State Fault Refusal :=
  onLink (bar2 off.toNat write len val poisoned) s
/-- ECAM_ACCESS (R366). -/
def execEcamAccess (bus : Fin 16) (fn : Fin 256) (off : Fin 1024) (write reply : Option W32) (s : State) :
    Host.Outcome State Fault Refusal := onLink (ecam bus fn off (write.map (·.toNat)) (reply.map (·.toNat))) s
/-- INBOUND_DMA (R368). -/
def execInboundDma (addr : W64) (write : Bool) (len val : Nat) (poisoned : Bool) (s : State) : Host.Outcome State Fault Refusal :=
  onLink (inboundDma addr.toNat write len val poisoned) s
/-- OUTBOUND_READ_COMPLETION (R379). -/
def execOutboundReadCompletion (tag val : Nat) (refused : Bool) (s : State) : Host.Outcome State Fault Refusal :=
  onLink (readCompletion tag val refused) s
/-- COMPLETION_TIMEOUT (R387). -/
def execCompletionTimeout (tag : Nat) (s : State) : Host.Outcome State Fault Refusal := onLink (readTimeout tag) s
/-- MSIX_UNMASK (R378). -/
def execMsixUnmask (a : MsixAct) (s : State) : Host.Outcome State Fault Refusal := onLink (msixAct a) s
/-- REGISTER_WRITE: a write into BAR0 (R405). -/
def execRegisterWrite (off : BitVec 26) (len : Nat) (val : W64) (s : State) : Host.Outcome State Fault Refusal :=
  onLink (registerWrite off.toNat len val.toNat) s
/-- CQ_HEAD_WRITE (R396). -/
def execCqHeadWrite (q : Fin 64) (head : W16) (s : State) : Host.Outcome State Fault Refusal := onLink (cqHeadWrite q head.toNat) s
/-- EQ_HEAD_WRITE (R409). -/
def execEqHeadWrite (head : W16) (s : State) : Host.Outcome State Fault Refusal := onLink (eqHeadWrite head.toNat) s
/-- FQ_HEAD_WRITE (R329). -/
def execFqHeadWrite (head : BitVec 13) (s : State) : Host.Outcome State Fault Refusal := onLink (fqHeadWrite head.toNat) s
/-- POWER_STATE_CHANGE (R359). -/
def execPowerStateChange (d3 : Bool) (s : State) : Host.Outcome State Fault Refusal := onLink (powerState d3) s
/-- CXL_MEM_READ (R308). -/
def execCxlMemRead (pa : PA) (mayModify : Bool) (s : State) : Host.Outcome State Fault Refusal := onLink (doCxlMemRead pa.toNat mayModify) s
/-- CXL_MEM_WRITE (R362). -/
def execCxlMemWrite (pa : PA) (w : LineWrite) (s : State) : Host.Outcome State Fault Refusal := onLink (doCxlMemWrite pa.toNat w) s

end Sys2Proof.Machine
end

