-- ==== Sys2Proof/Machine/ExecFabric.lean ====
section
/-! DEFINITION. Sys2Proof/Machine/ExecFabric.lean: events of the tensor fabric and the ordinary network (R414–R456). -/
namespace Sys2Proof.Machine

/-- An effect at a tensor port, on its I/O die. -/
def onPort (p : Nat) (f : State → State) (s : State) : Host.Outcome State Fault Refusal :=
  served s (if moduleRuns s && dieUp s (26 + p / 8) then f s else s)

/-- An effect of the fabric's or the network's logic while the dies take steps. -/
def onFabric (f : State → State) (s : State) : Host.Outcome State Fault Refusal := served s (if moduleRuns s then f s else s)

/-- An effect at an Ethernet port, on its I/O die. -/
def onEth (p : Nat) (f : State → State) (s : State) : Host.Outcome State Fault Refusal :=
  served s (if moduleRuns s && dieUp s (26 + p / 2) then f s else s)

/-- TENSOR_LINK_TRAINED (R419). -/
def execTensorLinkTrained (p : PortNo) (ok : Bool) (n : NbrIdent) (lanes : BitVec 10) (s : State) : Host.Outcome State Fault Refusal :=
  onPort p (linkTrained p ok ⟨n.heath.toNat, n.plane, n.y, n.z, n.spare, n.part.toNat⟩ lanes.toNat) s
/-- TENSOR_LINK_DOWN (R427). -/
def execTensorLinkDown (p : PortNo) (s : State) : Host.Outcome State Fault Refusal := onPort p (linkDown p) s
/-- PARTITION_BARRIER_MESSAGE (R423). -/
def execPartitionBarrierMessage (part : W16) (plane : Fin 9) (y z : Fin 4) (s : State) : Host.Outcome State Fault Refusal :=
  onFabric (barrierMsg part.toNat (memberCode plane y z)) s
/-- PART_BARRIER_TIMEOUT (R423). -/
def execPartBarrierTimeout (s : State) : Host.Outcome State Fault Refusal := onFabric barrierTimeout s
/-- COLL_FIELDS_MESSAGE (R434). -/
def execCollFieldsMessage (rank : Fin 128) (fields : List W64) (val : Nat) (poison : List Nat) (s : State) :
    Host.Outcome State Fault Refusal :=
  onFabric (collMsg { rank := rank, fields := fields.map (·.toNat), data := val, poison := poison }) s
/-- PATTERN_DONE (R437). -/
def execPatternDone (p : PortNo) (lane : Fin 10) (errors bits : Nat) (s : State) : Host.Outcome State Fault Refusal :=
  onPort p (patternDone p lane errors bits) s
/-- FABRIC_BURST_ARRIVE (R428). -/
def execFabricBurstArrive (u : UnitNo) (rank : Fin 128) (burst : Nat) (va : VA) (len val : Nat) (poisoned : List Nat) (s : State) :
    Host.Outcome State Fault Refusal :=
  served s (if moduleRuns s && 8 ≤ u.val && dieUp s (dieOfXunit u) then burstArrive u rank burst va.toNat len val poisoned s else s)
/-- FABRIC_BURST_ACK (R428). -/
def execFabricBurstAck (rank : Fin 128) (burst : Nat) (s : State) : Host.Outcome State Fault Refusal := onFabric (burstAck rank burst) s
/-- FENCED_FLIT_ARRIVE (R425). -/
def execFencedFlitArrive (p : PortNo) (s : State) : Host.Outcome State Fault Refusal := onPort p (fencedFlit p) s
/-- PEER_TIMEOUT (R429). -/
def execPeerTimeout (rank : Fin 128) (unreachable : Bool) (s : State) : Host.Outcome State Fault Refusal :=
  onFabric (peerLost rank unreachable) s
/-- TENSOR_LANE_ERROR (R430). -/
def execTensorLaneError (p : PortNo) (lane : Fin 10) (s : State) : Host.Outcome State Fault Refusal := onPort p (laneError p lane) s
/-- TENSOR_LANE_TEST_DONE (R430). -/
def execTensorLaneTestDone (p : PortNo) (ok : Bool) (s : State) : Host.Outcome State Fault Refusal := onPort p (laneTestDone p ok) s
/-- TENSOR_FLIT_REPLAY (R414). -/
def execTensorFlitReplay (p : PortNo) (s : State) : Host.Outcome State Fault Refusal := onPort p (flitReplay p) s

/-- NET_MESSAGE_ARRIVE (R443). -/
def execNetMessageArrive (p : EthNo) (qp : Fin 4096) (m : NetMsg) (s : State) : Host.Outcome State Fault Refusal :=
  onEth p (netMessage p qp m) s
/-- ECN_MARK_RECEIVED: the receiver of a marked packet answers its sender (R442). -/
def execEcnMarkReceived (qp : Fin 4096) (s : State) : Host.Outcome State Fault Refusal :=
  onFabric (fun s => if (qpGet s qp).en then ecnMark qp s else s) s
/-- CNP_RECEIVED (R442). -/
def execCnpReceived (qp : Fin 4096) (s : State) : Host.Outcome State Fault Refusal := onFabric (cnpArrives qp) s
/-- ETH_PORT_DOWN (R444). -/
def execEthPortDown (p : EthNo) (s : State) : Host.Outcome State Fault Refusal := onEth p (ethDown p) s
/-- ETH_PORT_UP (R444). -/
def execEthPortUp (p : EthNo) (s : State) : Host.Outcome State Fault Refusal := onEth p (ethUpDone p) s
/-- ROCE_RETRY_EXHAUSTED (R444). -/
def execRoceRetryExhausted (qp : Fin 4096) (s : State) : Host.Outcome State Fault Refusal := onFabric (retryOut qp) s
/-- MANIFEST_ARRIVE (R447). -/
def execManifestArrive (bytes : List Byte) (s : State) : Host.Outcome State Fault Refusal := onFabric (manifestArrives bytes) s
/-- IMAGE_CHUNK_ARRIVE (R448). -/
def execImageChunkArrive (src : ChunkFrom) (chunk : Fin 1048576) (bytes : List Byte) (s : State) : Host.Outcome State Fault Refusal :=
  onFabric (chunkArrives src chunk bytes) s
/-- CHUNK_READ_REQUEST (R450). -/
def execChunkReadRequest (node : Fin 4096) (chunk : Fin 1048576) (s : State) : Host.Outcome State Fault Refusal :=
  onFabric (chunkRequest node chunk) s
/-- PREFIX_MESSAGE (R448). -/
def execPrefixMessage (node : Fin 4096) (count : Fin 1048576) (s : State) : Host.Outcome State Fault Refusal :=
  onFabric (prefixArrives node count) s
/-- PREFIX_SEND_TIMER (R448). -/
def execPrefixSendTimer (s : State) : Host.Outcome State Fault Refusal := onFabric sendPrefix s
/-- PARENT_TIMEOUT (R449). -/
def execParentTimeout (s : State) : Host.Outcome State Fault Refusal := onFabric parentFails s
/-- CHILD_SILENCE_TIMEOUT (R450). -/
def execChildSilenceTimeout (node : Fin 4096) (s : State) : Host.Outcome State Fault Refusal := onFabric (childSilent node) s
/-- XGROUP_HELLO (R452). -/
def execXgroupHello (group : W32) (member : Fin 64) (low high : Byte) (s : State) : Host.Outcome State Fault Refusal :=
  onFabric (helloArrives group.toNat member low.toNat high.toNat) s
/-- XGROUP_OPEN_TIMEOUT (R452). -/
def execXgroupOpenTimeout (group : W32) (s : State) : Host.Outcome State Fault Refusal := onFabric (groupTimeout group.toNat) s
/-- XCOLL_MEMBER_TIMEOUT (R453). -/
def execXcollMemberTimeout (group : W32) (member : Fin 64) (s : State) : Host.Outcome State Fault Refusal :=
  onFabric (memberLost group.toNat member) s

end Sys2Proof.Machine
end

