-- ==== Sys2Proof/Machine/ExecPackage.lean ====
section
/-! DEFINITION. Sys2Proof/Machine/ExecPackage.lean: events of the package, its links and dies, power and heat, start-up,
security and service (R25–R46, R457–R569). -/
namespace Sys2Proof.Machine

/-- An effect of the package while its dies take steps. -/
def onPackage (f : State → State) (s : State) : Host.Outcome State Fault Refusal := happens s (if moduleRuns s then f s else s)

/-- An effect of a pin, or of the supply, which happens whatever the module does. -/
def onPin (f : State → State) (s : State) : Host.Outcome State Fault Refusal :=
  finish s (let t := f s; if t.pins.testReset || !t.elec.input then t else settleAll t)

/-! ## Timing (R25–R46) -/

/-- PLL_LOCK_LOST (R41). -/
def execPllLockLost (s : State) : Host.Outcome State Fault Refusal := happens s (pllLost s)
/-- TIMER_SYNC (R38). -/
def execTimerSync (d : DieNo) (drift : Int) (s : State) : Host.Outcome State Fault Refusal := happens s (if dieUp s d then timerSync d drift s else s)
/-- STEP_RATE_WINDOW (R34). -/
def execStepRateWindow (u : Fin 148) (steps expected : W32) (budgetOk : Bool) (s : State) : Host.Outcome State Fault Refusal :=
  onPackage (stepWindow u steps.toNat expected.toNat budgetOk) s
/-- RAIL_BELOW_RETENTION (R35). -/
def execRailBelowRetention (u : FedUnit) (s : State) : Host.Outcome State Fault Refusal := happens s (railLow u s)

/-- What a step does with no command waiting: the package timer counts while the module has power (R36). -/
def idle (s : State) : Host.Outcome State Fault Refusal := finish s (if s.elec.input then timerTick s else s)

/-! ## Die to die (R457–R480) -/

/-- LOAM_FRAME_RECEIVE (R459). -/
def execLoamFrameReceive (l : LinkNo) (ba : Bool) (frame : Nat) (src : DieNo) (crcOk : Bool) (s : State) : Host.Outcome State Fault Refusal :=
  onPackage (frameReceive l ba frame src crcOk) s
/-- LOAM_FRAME_ACK (R459). -/
def execLoamFrameAck (l : LinkNo) (ba : Bool) (frame : Nat) (s : State) : Host.Outcome State Fault Refusal := onPackage (frameAck l ba frame) s
/-- LOAM_FRAME_REPLAY (R459). -/
def execLoamFrameReplay (l : LinkNo) (ba : Bool) (frame : Nat) (s : State) : Host.Outcome State Fault Refusal := onPackage (frameReplay l ba frame) s
/-- LOAM_LANE_ERROR (R463). -/
def execLoamLaneError (l : LinkNo) (ba : Bool) (lane : Fin 136) (s : State) : Host.Outcome State Fault Refusal :=
  onPackage (loamLaneError l ba lane) s
/-- LOAM_HANDSHAKE_TIMEOUT: a handshake that does not complete counts as a lane error (R463). -/
def execLoamHandshakeTimeout (l : LinkNo) (ba : Bool) (lane : Fin 136) (s : State) : Host.Outcome State Fault Refusal :=
  onPackage (loamLaneError l ba lane) s
/-- LOAM_LANE_TEST_DONE (R463). -/
def execLoamLaneTestDone (l : LinkNo) (ba : Bool) (lane : Fin 136) (ok : Bool) (s : State) : Host.Outcome State Fault Refusal :=
  onPackage (loamLaneTest l ba lane ok) s
/-- LINK_MOVE_COMPLETE (R464). -/
def execLinkMoveComplete (l : LinkNo) (s : State) : Host.Outcome State Fault Refusal := onPackage (moveComplete l) s
/-- OPTICAL_CHANNEL_ERROR (R465). -/
def execOpticalChannelError (r : RingNo) (d : Fin 28) (ch : Fin 34) (s : State) : Host.Outcome State Fault Refusal :=
  onPackage (channelError r d ch) s
/-- OPTICAL_CHANNEL_TEST_DONE (R465). -/
def execOpticalChannelTestDone (r : RingNo) (d : Fin 28) (ch : Fin 34) (ok : Bool) (s : State) : Host.Outcome State Fault Refusal :=
  onPackage (channelTest r d ch ok) s
/-- LASER_FAIL (R465). -/
def execLaserFail (r : RingNo) (s : State) : Host.Outcome State Fault Refusal := onPackage (laserFail r) s
/-- PHY_REF_LOST (R469). -/
def execPhyRefLost (d : DieNo) (s : State) : Host.Outcome State Fault Refusal := onPackage (phyLost d) s
/-- Receiver of a die-down message: a home, the control processor, or another die. -/
def downCode : DownTo → Nat
  | .home h => h
  | .cp => 16
  | .die d => 32 + d
/-- DIE_DOWN_MESSAGE (R303). -/
def execDieDownMessage (dest : DownTo) (d : DieNo) (s : State) : Host.Outcome State Fault Refusal := onPackage (dieDown (downCode dest) d) s
/-- WEST_DIE_LOST (R472). -/
def execWestDieLost (s : State) : Host.Outcome State Fault Refusal := onPackage westGone s
/-- TAP_INSTRUCTION; test access works in test reset (R477). -/
def execTapInstruction (tap : TapId) (op : TapOp) (s : State) : Host.Outcome State Fault Refusal := finish s (tapInstr tap op s)
/-- TEST_RESET_ASSERT (R477). -/
def execTestResetAssert (s : State) : Host.Outcome State Fault Refusal := onPin testReset s
/-- TEST_RESET_RELEASE (R477). -/
def execTestResetRelease (s : State) : Host.Outcome State Fault Refusal := onPin testRelease s
/-- SVC_CABLE_INSERT (R566). -/
def execSvcCableInsert (s : State) : Host.Outcome State Fault Refusal := onPin (svcCable true) s
/-- SVC_CABLE_REMOVE (R566). -/
def execSvcCableRemove (s : State) : Host.Outcome State Fault Refusal := onPin (svcCable false) s

/-! ## Power and heat (R481–R498, R557–R569) -/

/-- INPUT_POWER_APPLIED (R558). -/
def execInputPowerApplied (s : State) : Host.Outcome State Fault Refusal := onPin inputApplied s
/-- INPUT_POWER_LOST (R560). -/
def execInputPowerLost (s : State) : Host.Outcome State Fault Refusal := onPin inputLost s
/-- RAIL_POWER_GOOD (R560). -/
def execRailPowerGood (s : State) : Host.Outcome State Fault Refusal := happens s (railGood s)
/-- RAIL_START_TIMEOUT (R560). -/
def execRailStartTimeout (s : State) : Host.Outcome State Fault Refusal := happens s (railTimeout s)
/-- REGULATOR_OVERVOLTAGE (R561). -/
def execRegulatorOvervoltage (r : Rail) (u : FedUnit) (s : State) : Host.Outcome State Fault Refusal := happens s (overvoltage r u s)
/-- REGULATOR_FAULT_RESTART (R561). -/
def execRegulatorFaultRestart (s : State) : Host.Outcome State Fault Refusal := happens s (faultRestart s)
/-- CAP_LOOP (R490). -/
def execCapLoop (i : CapIn) (s : State) : Host.Outcome State Fault Refusal := onPackage (capLoop i) s
/-- PHASE_WINDOW (R491). -/
def execPhaseWindow (levels : BitVec 24) (shares : BitVec 88) (shift : Option (Fin 11 × Fin 11)) (s : State) : Host.Outcome State Fault Refusal :=
  onPackage (phaseWindow levels.toNat shares.toNat shift) s
/-- DROOP_GUARD_FIRE (R488). -/
def execDroopGuardFire (sw : SwardNo) (s : State) : Host.Outcome State Fault Refusal := onSward sw (droopFire sw) s
/-- DROOP_GUARD_RELEASE (R488). -/
def execDroopGuardRelease (sw : SwardNo) (s : State) : Host.Outcome State Fault Refusal := onSward sw (droopRelease sw) s
/-- AGEING_MEASURE (R485). -/
def execAgeingMeasure (t : TuftNo) (percent : Fin 101) (s : State) : Host.Outcome State Fault Refusal := onTuft t (ageingMeasure t percent) s
/-- TUFT_GATE (R487). -/
def execTuftGate (t : TuftNo) (s : State) : Host.Outcome State Fault Refusal := onTuft t (tuftGate t) s
/-- TUFT_WAKE_DONE (R487). -/
def execTuftWakeDone (t : TuftNo) (s : State) : Host.Outcome State Fault Refusal := onTuft t (tuftWake t) s
/-- TEMP_SAMPLE; a module held by a trip is sampled too (R492). -/
def execTempSample (d : DieNo) (temp laser : Byte) (sensors : Fin 5) (s : State) : Host.Outcome State Fault Refusal :=
  happens s (tempSample d temp.toNat laser.toNat sensors s)
/-- THERMAL_TRIP (R493). -/
def execThermalTrip (d : DieNo) (temp : Byte) (s : State) : Host.Outcome State Fault Refusal := happens s (thermalTrip d temp.toNat s)
/-- INPUT_RANGE_TRIP (R493). -/
def execInputRangeTrip (s : State) : Host.Outcome State Fault Refusal := happens s (inputTrip s)

/-! ## Errors (R499–R516) -/

/-- TARGETED_TEST_DONE (R505). -/
def execTargetedTestDone (level : Fin 4) (unit : W16) (ok : Bool) (stuck : List (Bool × BitVec 7)) (katOk : Bool) (s : State) :
    Host.Outcome State Fault Refusal :=
  onPackage (targetedTest level unit.toNat ok (stuck.map (fun x => (x.1, x.2.toNat))) katOk) s
/-- SWARD_REMAP_DONE (R508). -/
def execSwardRemapDone (sw : SwardNo) (s : State) : Host.Outcome State Fault Refusal := onSward sw (remapDone sw) s

/-! ## Start-up and security (R517–R540) -/

/-- COLD_START (R527). -/
def execColdStart (i : StartIn) (s : State) : Host.Outcome State Fault Refusal := happens s (doStart typeCold i s)
/-- WARM_START (R527). -/
def execWarmStart (i : StartIn) (s : State) : Host.Outcome State Fault Refusal := happens s (doStart typeWarm i s)
/-- RECOVERY_START (R527). -/
def execRecoveryStart (i : StartIn) (s : State) : Host.Outcome State Fault Refusal := happens s (doStart typeRecovery i s)
/-- START_RECORD_TIME_WRITE (R504). -/
def execStartRecordTimeWrite (s : State) : Host.Outcome State Fault Refusal := onPackage recordTime s
/-- FLASH_WRITE_DONE (R544). -/
def execFlashWriteDone (ok : Bool) (s : State) : Host.Outcome State Fault Refusal := happens s (flashDone ok s)
/-- GET_VERSION (R534). -/
def execGetVersion (mctp : Bool) (s : State) : Host.Outcome State Fault Refusal := happens s (spdmGo mctp spdmVersion s)
/-- GET_CAPABILITIES (R534). -/
def execGetCapabilities (mctp : Bool) (s : State) : Host.Outcome State Fault Refusal := happens s (spdmGo mctp spdmCaps s)
/-- NEGOTIATE_ALGORITHMS (R534). -/
def execNegotiateAlgorithms (mctp : Bool) (s : State) : Host.Outcome State Fault Refusal := happens s (spdmGo mctp spdmAlgorithms s)
/-- GET_DIGESTS (R534). -/
def execGetDigests (mctp : Bool) (s : State) : Host.Outcome State Fault Refusal := happens s (spdmGo mctp spdmDigests s)
/-- GET_CERTIFICATE (R534). -/
def execGetCertificate (mctp : Bool) (slot : Fin 8) (off len : W16) (s : State) : Host.Outcome State Fault Refusal :=
  happens s (spdmGo mctp (spdmCertificate slot off.toNat len.toNat) s)
/-- CHALLENGE (R535). -/
def execChallenge (mctp : Bool) (slot : Fin 8) (nonce : W256) (s : State) : Host.Outcome State Fault Refusal :=
  happens s (spdmGo mctp (spdmChallenge slot nonce.toNat) s)
/-- GET_MEASUREMENTS (R534). -/
def execGetMeasurements (mctp : Bool) (block : Byte) (signed : Bool) (nonce : W256) (s : State) : Host.Outcome State Fault Refusal :=
  happens s (spdmGo mctp (spdmMeasurements block.toNat signed nonce.toNat) s)
/-- VENDOR_DEFINED_REQUEST (R535). -/
def execVendorDefinedRequest (mctp : Bool) (command : W16) (s : State) : Host.Outcome State Fault Refusal :=
  happens s (spdmGo mctp (spdmVendor command.toNat) s)

/-! ## Management and service (R541–R550) -/

/-- MCTP_CONTROL (R541). -/
def execMctpControl (command : Byte) (s : State) : Host.Outcome State Fault Refusal := happens s (mctpControl command.toNat s)
/-- PLDM_BASE_DISCOVERY (R541). -/
def execPldmBaseDiscovery (command : Byte) (s : State) : Host.Outcome State Fault Refusal := happens s (pldmBase command.toNat s)
/-- PLDM_SENSOR_READ (R541). -/
def execPldmSensorRead (id : W16) (s : State) : Host.Outcome State Fault Refusal := happens s (pldmSensor id.toNat s)
/-- PLDM_SET_MGMT_CAP (R490). -/
def execPldmSetMgmtCap (watts : W16) (s : State) : Host.Outcome State Fault Refusal := happens s (pldmCap watts.toNat s)
/-- PLDM_SET_LOCATE (R547). -/
def execPldmSetLocate (on : Bool) (s : State) : Host.Outcome State Fault Refusal := happens s (pldmLocate on s)
/-- PLDM_REMOVAL_REQUEST (R543). -/
def execPldmRemovalRequest (s : State) : Host.Outcome State Fault Refusal := happens s (pldmRemoval s)
/-- PLDM_START_REQUEST (R541). -/
def execPldmStartRequest (type : Fin 3) (s : State) : Host.Outcome State Fault Refusal := happens s (pldmStart type s)
/-- PLDM_FW_UPDATE_TRANSFER (R542). -/
def execPldmFwUpdateTransfer (comp : Fin 8) (bytes : List Byte) (s : State) : Host.Outcome State Fault Refusal :=
  happens s (pldmUpdate comp (bytes.map (·.toNat)) s)
/-- ACTIVATE_FIRMWARE (R542). -/
def execActivateFirmware (mask : BitVec 7) (s : State) : Host.Outcome State Fault Refusal := happens s (pldmActivate mask.toNat s)
/-- ATTN_BUTTON_PRESS (R543). -/
def execAttnButtonPress (s : State) : Host.Outcome State Fault Refusal := onPin buttonDown s
/-- BUTTON_SHORT_PRESS (R543). -/
def execButtonShortPress (s : State) : Host.Outcome State Fault Refusal := onPin buttonShort s
/-- BUTTON_HOLD (R543). -/
def execButtonHold (s : State) : Host.Outcome State Fault Refusal := onPin buttonHold s
/-- REMOVAL_REQUEST_LAPSE (R543). -/
def execRemovalRequestLapse (s : State) : Host.Outcome State Fault Refusal := happens s (requestLapse s)
/-- QUIESCE_LINK_DOWN (R544). -/
def execQuiesceLinkDown (s : State) : Host.Outcome State Fault Refusal := happens s (quiesceLinkDown s)
/-- LATCH_OPEN (R546). -/
def execLatchOpen (s : State) : Host.Outcome State Fault Refusal := onPin latchOpens s
/-- LATCH_CLOSE (R546). -/
def execLatchClose (s : State) : Host.Outcome State Fault Refusal := onPin latchCloses s
/-- PRESENT_N_BREAK (R565). -/
def execPresentNBreak (s : State) : Host.Outcome State Fault Refusal := onPin presentBreaks s

end Sys2Proof.Machine
end

