-- ==== Sys2Proof/Machine/Dispatch.lean ====
section
/-! DEFINITION. Sys2Proof/Machine/Dispatch.lean: the meaning of each command, one arm for each row of the opcode table. -/
namespace Sys2Proof.Machine

/-- What a command does to everything but the queue. -/
def exec (i : Instr) (s : State) : Host.Outcome State Fault Refusal :=
  match i with
  | .nop c => Sys2Proof.Machine.execNop c s
  | .sliceMissFill pa sector => Sys2Proof.Machine.execSliceMissFill pa sector s
  | .ctrlAgePromote h request => Sys2Proof.Machine.execCtrlAgePromote h request s
  | .hayWayCleanDone h => Sys2Proof.Machine.execHayWayCleanDone h s
  | .stackTempBandChange h band => Sys2Proof.Machine.execStackTempBandChange h band s
  | .thermHoldTimeout h => Sys2Proof.Machine.execThermHoldTimeout h s
  | .dramCorrectedError pa => Sys2Proof.Machine.execDramCorrectedError pa s
  | .memoryUncorrectable pa inSlice => Sys2Proof.Machine.execMemoryUncorrectable pa inSlice s
  | .patrolScrubRead h corrected uncorrectable => Sys2Proof.Machine.execPatrolScrubRead h corrected uncorrectable s
  | .dramRowTestDone pa passes badSectors corrected => Sys2Proof.Machine.execDramRowTestDone pa passes badSectors corrected s
  | .hayloftLocationTestDone pa way passes => Sys2Proof.Machine.execHayloftLocationTestDone pa way passes s
  | .hayWayPowerUpDone h => Sys2Proof.Machine.execHayWayPowerUpDone h s
  | .rds pa a => Sys2Proof.Machine.execRds pa a s
  | .rdx pa a => Sys2Proof.Machine.execRdx pa a s
  | .upg pa a => Sys2Proof.Machine.execUpg pa a s
  | .ncrd pa port sectors => Sys2Proof.Machine.execNcrd pa port sectors s
  | .ncwr pa port w => Sys2Proof.Machine.execNcwr pa port w s
  | .wbm pa a d dirty => Sys2Proof.Machine.execWbm pa a d dirty s
  | .wbc pa a => Sys2Proof.Machine.execWbc pa a s
  | .evs pa a => Sys2Proof.Machine.execEvs pa a s
  | .rsps pa a => Sys2Proof.Machine.execRsps pa a s
  | .rspi pa a wbp => Sys2Proof.Machine.execRspi pa a wbp s
  | .rspsd pa a d => Sys2Proof.Machine.execRspsd pa a d s
  | .rspid pa a d => Sys2Proof.Machine.execRspid pa a d s
  | .cmpack pa a => Sys2Proof.Machine.execCmpack pa a s
  | .sliceAccessDone pa => Sys2Proof.Machine.execSliceAccessDone pa s
  | .homeTimeout pa => Sys2Proof.Machine.execHomeTimeout pa s
  | .dirEccError h set way => Sys2Proof.Machine.execDirEccError h set way s
  | .snps a pa => Sys2Proof.Machine.execSnps a pa s
  | .snpi a pa => Sys2Proof.Machine.execSnpi a pa s
  | .datas a pa => Sys2Proof.Machine.execDatas a pa s
  | .datax a pa => Sys2Proof.Machine.execDatax a pa s
  | .gntx a pa => Sys2Proof.Machine.execGntx a pa s
  | .ncdata port pa => Sys2Proof.Machine.execNcdata port pa s
  | .ncack port pa => Sys2Proof.Machine.execNcack port pa s
  | .nack a pa => Sys2Proof.Machine.execNack a pa s
  | .nackResend a pa => Sys2Proof.Machine.execNackResend a pa s
  | .wback a pa => Sys2Proof.Machine.execWback a pa s
  | .cacheLoad a pa => Sys2Proof.Machine.execCacheLoad a pa s
  | .cacheStore a pa w => Sys2Proof.Machine.execCacheStore a pa w s
  | .cacheEvict a pa => Sys2Proof.Machine.execCacheEvict a pa s
  | .hostD2hResponse pa d => Sys2Proof.Machine.execHostD2hResponse pa d s
  | .cxlMemRead pa mayModify => Sys2Proof.Machine.execCxlMemRead pa mayModify s
  | .cxlMemWrite pa w => Sys2Proof.Machine.execCxlMemWrite pa w s
  | .hostCacheSnoop addr => Sys2Proof.Machine.execHostCacheSnoop addr s
  | .matrixIssue ins => Sys2Proof.Machine.execMatrixIssue ins s
  | .mxOpStart t quad => Sys2Proof.Machine.execMxOpStart t quad s
  | .shadowLoadDone t quad => Sys2Proof.Machine.execShadowLoadDone t quad s
  | .mxOpComplete t quad waited => Sys2Proof.Machine.execMxOpComplete t quad waited s
  | .mxModeChange t => Sys2Proof.Machine.execMxModeChange t s
  | .mxCheckFail t quad parity => Sys2Proof.Machine.execMxCheckFail t quad parity s
  | .footHandover t quad waited => Sys2Proof.Machine.execFootHandover t quad waited s
  | .chainIssue ins => Sys2Proof.Machine.execChainIssue ins s
  | .chainStart t => Sys2Proof.Machine.execChainStart t s
  | .chainComplete t inWait waited => Sys2Proof.Machine.execChainComplete t inWait waited s
  | .veCheckFail t lane => Sys2Proof.Machine.execVeCheckFail t lane s
  | .groupLaunch t => Sys2Proof.Machine.execGroupLaunch t s
  | .integerOp ins op wide => Sys2Proof.Machine.execIntegerOp ins op wide s
  | .fpOp ins op dbl rnd => Sys2Proof.Machine.execFpOp ins op dbl rnd s
  | .convertOp ins op => Sys2Proof.Machine.execConvertOp ins op s
  | .compareOp ins op => Sys2Proof.Machine.execCompareOp ins op s
  | .scalarOp ins op wide => Sys2Proof.Machine.execScalarOp ins op wide s
  | .branch ins op => Sys2Proof.Machine.execBranch ins op s
  | .threadExit ins => Sys2Proof.Machine.execThreadExit ins s
  | .join ins => Sys2Proof.Machine.execJoin ins s
  | .barW ins => Sys2Proof.Machine.execBarW ins s
  | .tuftStoreAccess ins m => Sys2Proof.Machine.execTuftStoreAccess ins m s
  | .globalAccess ins m => Sys2Proof.Machine.execGlobalAccess ins m s
  | .atomic ins m => Sys2Proof.Machine.execAtomic ins m s
  | .fence ins reserved => Sys2Proof.Machine.execFence ins reserved s
  | .barArrive ins sward idx => Sys2Proof.Machine.execBarArrive ins sward idx s
  | .barSync ins sward idx => Sys2Proof.Machine.execBarSync ins sward idx s
  | .arvSet ins => Sys2Proof.Machine.execArvSet ins s
  | .arvAdd ins => Sys2Proof.Machine.execArvAdd ins s
  | .arvRead ins => Sys2Proof.Machine.execArvRead ins s
  | .arvWait ins => Sys2Proof.Machine.execArvWait ins s
  | .acpyD ins => Sys2Proof.Machine.execAcpyD ins s
  | .acpyL ins size => Sys2Proof.Machine.execAcpyL ins size s
  | .acpyLComplete t nth => Sys2Proof.Machine.execAcpyLComplete t nth s
  | .routerIssue ins => Sys2Proof.Machine.execRouterIssue ins s
  | .ifetchLineFill t group => Sys2Proof.Machine.execIfetchLineFill t group s
  | .rfEccError t group reg lane corrected => Sys2Proof.Machine.execRfEccError t group reg lane corrected s
  | .inputPowerApplied => Sys2Proof.Machine.execInputPowerApplied s
  | .inputPowerLost => Sys2Proof.Machine.execInputPowerLost s
  | .railPowerGood => Sys2Proof.Machine.execRailPowerGood s
  | .railStartTimeout => Sys2Proof.Machine.execRailStartTimeout s
  | .regulatorOvervoltage r u => Sys2Proof.Machine.execRegulatorOvervoltage r u s
  | .regulatorFaultRestart => Sys2Proof.Machine.execRegulatorFaultRestart s
  | .coldStart ins => Sys2Proof.Machine.execColdStart ins s
  | .warmStart ins => Sys2Proof.Machine.execWarmStart ins s
  | .recoveryStart ins => Sys2Proof.Machine.execRecoveryStart ins s
  | .pllLockLost => Sys2Proof.Machine.execPllLockLost s
  | .timerSync d drift => Sys2Proof.Machine.execTimerSync d drift s
  | .stepRateWindow u steps expected budgetOk => Sys2Proof.Machine.execStepRateWindow u steps expected budgetOk s
  | .railBelowRetention u => Sys2Proof.Machine.execRailBelowRetention u s
  | .loamFrameReceive l ba frame src crcOk => Sys2Proof.Machine.execLoamFrameReceive l ba frame src crcOk s
  | .loamFrameAck l ba frame => Sys2Proof.Machine.execLoamFrameAck l ba frame s
  | .loamLaneError l ba lane => Sys2Proof.Machine.execLoamLaneError l ba lane s
  | .loamHandshakeTimeout l ba lane => Sys2Proof.Machine.execLoamHandshakeTimeout l ba lane s
  | .loamLaneTestDone l ba lane ok => Sys2Proof.Machine.execLoamLaneTestDone l ba lane ok s
  | .linkMoveComplete l => Sys2Proof.Machine.execLinkMoveComplete l s
  | .opticalChannelError r d ch => Sys2Proof.Machine.execOpticalChannelError r d ch s
  | .opticalChannelTestDone r d ch ok => Sys2Proof.Machine.execOpticalChannelTestDone r d ch ok s
  | .laserFail r => Sys2Proof.Machine.execLaserFail r s
  | .phyRefLost d => Sys2Proof.Machine.execPhyRefLost d s
  | .dieDownMessage dest d => Sys2Proof.Machine.execDieDownMessage dest d s
  | .westDieLost => Sys2Proof.Machine.execWestDieLost s
  | .tapInstruction tap op => Sys2Proof.Machine.execTapInstruction tap op s
  | .testResetAssert => Sys2Proof.Machine.execTestResetAssert s
  | .svcCableInsert => Sys2Proof.Machine.execSvcCableInsert s
  | .svcCableRemove => Sys2Proof.Machine.execSvcCableRemove s
  | .taskStart => Sys2Proof.Machine.execTaskStart s
  | .taskComplete t => Sys2Proof.Machine.execTaskComplete t s
  | .poolWatchdogExpire cmd id => Sys2Proof.Machine.execPoolWatchdogExpire cmd id s
  | .storeEccError t off pool corrected => Sys2Proof.Machine.execStoreEccError t off pool corrected s
  | .copy entry reply poisoned refuse => Sys2Proof.Machine.execCopy entry reply poisoned refuse s
  | .fill entry refuse => Sys2Proof.Machine.execFill entry refuse s
  | .dispatch entry fresh refuse => Sys2Proof.Machine.execDispatch entry fresh refuse s
  | .combine entry reply refuse => Sys2Proof.Machine.execCombine entry reply refuse s
  | .copyEntryComplete entry => Sys2Proof.Machine.execCopyEntryComplete entry s
  | .copyCheckFail entry => Sys2Proof.Machine.execCopyCheckFail entry s
  | .remoteBurstArrive u source burst va len val poisoned read => Sys2Proof.Machine.execRemoteBurstArrive u source burst va len val poisoned read s
  | .dispatchCountMessage rank meadow order buf round counts fresh last => Sys2Proof.Machine.execDispatchCountMessage rank meadow order buf round counts fresh last s
  | .dispatchSegmentAnswer entry expert start => Sys2Proof.Machine.execDispatchSegmentAnswer entry expert start s
  | .routerInvocationStart m => Sys2Proof.Machine.execRouterInvocationStart m s
  | .routerInvocationComplete m => Sys2Proof.Machine.execRouterInvocationComplete m s
  | .residencyHint sw region unit => Sys2Proof.Machine.execResidencyHint sw region unit s
  | .unitStageComplete sw region unit => Sys2Proof.Machine.execUnitStageComplete sw region unit s
  | .unitLiftStart sw region unit => Sys2Proof.Machine.execUnitLiftStart sw region unit s
  | .unitLiftComplete sw region unit => Sys2Proof.Machine.execUnitLiftComplete sw region unit s
  | .tableWalkDone u sward tuft agent va r w x prefetch => Sys2Proof.Machine.execTableWalkDone u sward tuft agent va r w x prefetch s
  | .faultWatchdogExpire u place fault nth => Sys2Proof.Machine.execFaultWatchdogExpire u place fault nth s
  | .invalUnitReport u => Sys2Proof.Machine.execInvalUnitReport u s
  | .map c => Sys2Proof.Machine.execMap c s
  | .invalidateUnmap c => Sys2Proof.Machine.execInvalidateUnmap c s
  | .invalidateProtect c => Sys2Proof.Machine.execInvalidateProtect c s
  | .invalidateRemap c => Sys2Proof.Machine.execInvalidateRemap c s
  | .resolveRetry c => Sys2Proof.Machine.execResolveRetry c s
  | .resolveFail c => Sys2Proof.Machine.execResolveFail c s
  | .prefetchToDevice c => Sys2Proof.Machine.execPrefetchToDevice c s
  | .prefetchToHost c => Sys2Proof.Machine.execPrefetchToHost c s
  | .advise c => Sys2Proof.Machine.execAdvise c s
  | .coreMemoryAccess h pa acc size data => Sys2Proof.Machine.execCoreMemoryAccess h pa acc size data s
  | .coreAmo h pa op dbl data => Sys2Proof.Machine.execCoreAmo h pa op dbl data s
  | .cboZero h pa => Sys2Proof.Machine.execCboZero h pa s
  | .cboClean h pa => Sys2Proof.Machine.execCboClean h pa s
  | .cboFlush h pa => Sys2Proof.Machine.execCboFlush h pa s
  | .cboInval h pa => Sys2Proof.Machine.execCboInval h pa s
  | .coreTimerInterrupt h supervisor cmp => Sys2Proof.Machine.execCoreTimerInterrupt h supervisor cmp s
  | .coreRuntimeWatchdog d => Sys2Proof.Machine.execCoreRuntimeWatchdog d s
  | .evRouteWrite c => Sys2Proof.Machine.execEvRouteWrite c s
  | .hostLinkUp speed width => Sys2Proof.Machine.execHostLinkUp speed width s
  | .hostLinkRetrain speed width => Sys2Proof.Machine.execHostLinkRetrain speed width s
  | .hostLinkLoss configReset => Sys2Proof.Machine.execHostLinkLoss configReset s
  | .doorbell q word => Sys2Proof.Machine.execDoorbell q word s
  | .sqEntryFetch host => Sys2Proof.Machine.execSqEntryFetch host s
  | .entryReread door host => Sys2Proof.Machine.execEntryReread door host s
  | .larkRequestWrite slot off words => Sys2Proof.Machine.execLarkRequestWrite slot off words s
  | .larkGo => Sys2Proof.Machine.execLarkGo s
  | .bar2Access off write len val poisoned => Sys2Proof.Machine.execBar2Access off write len val poisoned s
  | .ecamAccess bus fn off write reply => Sys2Proof.Machine.execEcamAccess bus fn off write reply s
  | .inboundDma addr write len val poisoned => Sys2Proof.Machine.execInboundDma addr write len val poisoned s
  | .outboundReadCompletion tag val refused => Sys2Proof.Machine.execOutboundReadCompletion tag val refused s
  | .completionTimeout tag => Sys2Proof.Machine.execCompletionTimeout tag s
  | .msixUnmask a => Sys2Proof.Machine.execMsixUnmask a s
  | .hlRpInwinWrite c => Sys2Proof.Machine.execHlRpInwinWrite c s
  | .registerWrite off len val => Sys2Proof.Machine.execRegisterWrite off len val s
  | .cqHeadWrite q head => Sys2Proof.Machine.execCqHeadWrite q head s
  | .eqHeadWrite head => Sys2Proof.Machine.execEqHeadWrite head s
  | .fqHeadWrite head => Sys2Proof.Machine.execFqHeadWrite head s
  | .hayCtrlWrite c => Sys2Proof.Machine.execHayCtrlWrite c s
  | .coCtrlWrite c => Sys2Proof.Machine.execCoCtrlWrite c s
  | .atCtrlWrite c => Sys2Proof.Machine.execAtCtrlWrite c s
  | .obCtrlWrite c => Sys2Proof.Machine.execObCtrlWrite c s
  | .mgCtrlWrite c => Sys2Proof.Machine.execMgCtrlWrite c s
  | .query c => Sys2Proof.Machine.execQuery c s
  | .sqConfig c => Sys2Proof.Machine.execSqConfig c s
  | .cqConfig c => Sys2Proof.Machine.execCqConfig c s
  | .eqConfig c => Sys2Proof.Machine.execEqConfig c s
  | .regRead c => Sys2Proof.Machine.execRegRead c s
  | .regWrite c => Sys2Proof.Machine.execRegWrite c s
  | .cfgRead c => Sys2Proof.Machine.execCfgRead c s
  | .cfgWrite c => Sys2Proof.Machine.execCfgWrite c s
  | .jobCreate c => Sys2Proof.Machine.execJobCreate c s
  | .jobDestroy c => Sys2Proof.Machine.execJobDestroy c s
  | .graphSubmit c => Sys2Proof.Machine.execGraphSubmit c s
  | .graphCancel c => Sys2Proof.Machine.execGraphCancel c s
  | .seqOpen c => Sys2Proof.Machine.execSeqOpen c s
  | .seqClose c => Sys2Proof.Machine.execSeqClose c s
  | .bufCreate c => Sys2Proof.Machine.execBufCreate c s
  | .bufFree c => Sys2Proof.Machine.execBufFree c s
  | .regionArm c => Sys2Proof.Machine.execRegionArm c s
  | .regionQuiesce c => Sys2Proof.Machine.execRegionQuiesce c s
  | .regionRelease c => Sys2Proof.Machine.execRegionRelease c s
  | .biasSetToHost c => Sys2Proof.Machine.execBiasSetToHost c s
  | .biasSetToDevice c => Sys2Proof.Machine.execBiasSetToDevice c s
  | .coresStart c => Sys2Proof.Machine.execCoresStart c s
  | .hostDieReset c => Sys2Proof.Machine.execHostDieReset c s
  | .dirRead c => Sys2Proof.Machine.execDirRead c s
  | .cpFault => Sys2Proof.Machine.execCpFault s
  | .cpWatchdogExpire => Sys2Proof.Machine.execCpWatchdogExpire s
  | .cpRestartDone => Sys2Proof.Machine.execCpRestartDone s
  | .tensorLinkTrained p ok n lanes => Sys2Proof.Machine.execTensorLinkTrained p ok n lanes s
  | .partCreate c => Sys2Proof.Machine.execPartCreate c s
  | .partitionBarrierMessage part plane y z => Sys2Proof.Machine.execPartitionBarrierMessage part plane y z s
  | .partBarrierTimeout => Sys2Proof.Machine.execPartBarrierTimeout s
  | .partDestroy c => Sys2Proof.Machine.execPartDestroy c s
  | .spareSwap c => Sys2Proof.Machine.execSpareSwap c s
  | .portCtrlRetrain c => Sys2Proof.Machine.execPortCtrlRetrain c s
  | .portCtrlDisable c => Sys2Proof.Machine.execPortCtrlDisable c s
  | .portCtrlEnable c => Sys2Proof.Machine.execPortCtrlEnable c s
  | .portCtrlLaneTest c => Sys2Proof.Machine.execPortCtrlLaneTest c s
  | .collAllReduce c => Sys2Proof.Machine.execCollAllReduce c s
  | .collReduceScatter c => Sys2Proof.Machine.execCollReduceScatter c s
  | .collAllGather c => Sys2Proof.Machine.execCollAllGather c s
  | .collBroadcast c => Sys2Proof.Machine.execCollBroadcast c s
  | .collBarrier c => Sys2Proof.Machine.execCollBarrier c s
  | .collFieldsMessage rank fields val poison => Sys2Proof.Machine.execCollFieldsMessage rank fields val poison s
  | .pattern c => Sys2Proof.Machine.execPattern c s
  | .patternDone p lane errors bits => Sys2Proof.Machine.execPatternDone p lane errors bits s
  | .fabricBurstArrive u rank burst va len val poisoned => Sys2Proof.Machine.execFabricBurstArrive u rank burst va len val poisoned s
  | .fabricBurstAck rank burst => Sys2Proof.Machine.execFabricBurstAck rank burst s
  | .fencedFlitArrive p => Sys2Proof.Machine.execFencedFlitArrive p s
  | .peerTimeout rank unreachable => Sys2Proof.Machine.execPeerTimeout rank unreachable s
  | .tensorLaneError p lane => Sys2Proof.Machine.execTensorLaneError p lane s
  | .tensorLaneTestDone p ok => Sys2Proof.Machine.execTensorLaneTestDone p ok s
  | .netConfig c => Sys2Proof.Machine.execNetConfig c s
  | .qpConfig c => Sys2Proof.Machine.execQpConfig c s
  | .netPostRdmaRead c => Sys2Proof.Machine.execNetPostRdmaRead c s
  | .netPostRdmaWrite c => Sys2Proof.Machine.execNetPostRdmaWrite c s
  | .netPostSend c => Sys2Proof.Machine.execNetPostSend c s
  | .netMessageArrive p qp m => Sys2Proof.Machine.execNetMessageArrive p qp m s
  | .ecnMarkReceived qp => Sys2Proof.Machine.execEcnMarkReceived qp s
  | .cnpReceived qp => Sys2Proof.Machine.execCnpReceived qp s
  | .ethPortDown p => Sys2Proof.Machine.execEthPortDown p s
  | .roceRetryExhausted qp => Sys2Proof.Machine.execRoceRetryExhausted qp s
  | .imageFetch c => Sys2Proof.Machine.execImageFetch c s
  | .manifestArrive bytes => Sys2Proof.Machine.execManifestArrive bytes s
  | .imageChunkArrive src chunk bytes => Sys2Proof.Machine.execImageChunkArrive src chunk bytes s
  | .chunkReadRequest node chunk => Sys2Proof.Machine.execChunkReadRequest node chunk s
  | .prefixMessage node count => Sys2Proof.Machine.execPrefixMessage node count s
  | .prefixSendTimer => Sys2Proof.Machine.execPrefixSendTimer s
  | .parentTimeout => Sys2Proof.Machine.execParentTimeout s
  | .childSilenceTimeout node => Sys2Proof.Machine.execChildSilenceTimeout node s
  | .xgroupOpen c => Sys2Proof.Machine.execXgroupOpen c s
  | .xgroupHello group member low high => Sys2Proof.Machine.execXgroupHello group member low high s
  | .xgroupOpenTimeout group => Sys2Proof.Machine.execXgroupOpenTimeout group s
  | .xcollAllReduce c => Sys2Proof.Machine.execXcollAllReduce c s
  | .xcollReduceScatter c => Sys2Proof.Machine.execXcollReduceScatter c s
  | .xcollAllGather c => Sys2Proof.Machine.execXcollAllGather c s
  | .xcollBroadcast c => Sys2Proof.Machine.execXcollBroadcast c s
  | .xcollBarrier c => Sys2Proof.Machine.execXcollBarrier c s
  | .xcollMemberTimeout group member => Sys2Proof.Machine.execXcollMemberTimeout group member s
  | .capLoop ins => Sys2Proof.Machine.execCapLoop ins s
  | .phaseWindow levels shares shift => Sys2Proof.Machine.execPhaseWindow levels shares shift s
  | .droopGuardFire sw => Sys2Proof.Machine.execDroopGuardFire sw s
  | .droopGuardRelease sw => Sys2Proof.Machine.execDroopGuardRelease sw s
  | .ageingMeasure t percent => Sys2Proof.Machine.execAgeingMeasure t percent s
  | .tuftGate t => Sys2Proof.Machine.execTuftGate t s
  | .tuftWakeDone t => Sys2Proof.Machine.execTuftWakeDone t s
  | .tempSample d temp laser sensors => Sys2Proof.Machine.execTempSample d temp laser sensors s
  | .thermalTrip d temp => Sys2Proof.Machine.execThermalTrip d temp s
  | .inputRangeTrip => Sys2Proof.Machine.execInputRangeTrip s
  | .capSet c => Sys2Proof.Machine.execCapSet c s
  | .phaseRead c => Sys2Proof.Machine.execPhaseRead c s
  | .phaseLoad c => Sys2Proof.Machine.execPhaseLoad c s
  | .pwRead c => Sys2Proof.Machine.execPwRead c s
  | .targetedTestDone level unit ok stuck katOk => Sys2Proof.Machine.execTargetedTestDone level unit ok stuck katOk s
  | .swardRemapDone sw => Sys2Proof.Machine.execSwardRemapDone sw s
  | .errLogRead c => Sys2Proof.Machine.execErrLogRead c s
  | .selfTest c => Sys2Proof.Machine.execSelfTest c s
  | .unitCtrlWithdraw c => Sys2Proof.Machine.execUnitCtrlWithdraw c s
  | .unitCtrlReturn c => Sys2Proof.Machine.execUnitCtrlReturn c s
  | .errInject c => Sys2Proof.Machine.execErrInject c s
  | .startRequestCold c => Sys2Proof.Machine.execStartRequestCold c s
  | .startRequestWarm c => Sys2Proof.Machine.execStartRequestWarm c s
  | .startRequestRecovery c => Sys2Proof.Machine.execStartRequestRecovery c s
  | .imageStage c => Sys2Proof.Machine.execImageStage c s
  | .imageActivate c => Sys2Proof.Machine.execImageActivate c s
  | .svnCommit c => Sys2Proof.Machine.execSvnCommit c s
  | .measureRead c => Sys2Proof.Machine.execMeasureRead c s
  | .attest c => Sys2Proof.Machine.execAttest c s
  | .debugUnlockNonce c => Sys2Proof.Machine.execDebugUnlockNonce c s
  | .debugUnlockSubmit c => Sys2Proof.Machine.execDebugUnlockSubmit c s
  | .flashWriteDone ok => Sys2Proof.Machine.execFlashWriteDone ok s
  | .getVersion mctp => Sys2Proof.Machine.execGetVersion mctp s
  | .getCapabilities mctp => Sys2Proof.Machine.execGetCapabilities mctp s
  | .negotiateAlgorithms mctp => Sys2Proof.Machine.execNegotiateAlgorithms mctp s
  | .getDigests mctp => Sys2Proof.Machine.execGetDigests mctp s
  | .getCertificate mctp slot off len => Sys2Proof.Machine.execGetCertificate mctp slot off len s
  | .challenge mctp slot nonce => Sys2Proof.Machine.execChallenge mctp slot nonce s
  | .getMeasurements mctp block signed nonce => Sys2Proof.Machine.execGetMeasurements mctp block signed nonce s
  | .vendorDefinedRequest mctp command => Sys2Proof.Machine.execVendorDefinedRequest mctp command s
  | .mctpControl command => Sys2Proof.Machine.execMctpControl command s
  | .pldmBaseDiscovery command => Sys2Proof.Machine.execPldmBaseDiscovery command s
  | .pldmSensorRead id => Sys2Proof.Machine.execPldmSensorRead id s
  | .pldmSetMgmtCap watts => Sys2Proof.Machine.execPldmSetMgmtCap watts s
  | .pldmSetLocate on => Sys2Proof.Machine.execPldmSetLocate on s
  | .pldmRemovalRequest => Sys2Proof.Machine.execPldmRemovalRequest s
  | .pldmStartRequest type => Sys2Proof.Machine.execPldmStartRequest type s
  | .pldmFwUpdateTransfer comp bytes => Sys2Proof.Machine.execPldmFwUpdateTransfer comp bytes s
  | .activateFirmware mask => Sys2Proof.Machine.execActivateFirmware mask s
  | .buttonShortPress => Sys2Proof.Machine.execButtonShortPress s
  | .buttonHold => Sys2Proof.Machine.execButtonHold s
  | .removalRequestLapse => Sys2Proof.Machine.execRemovalRequestLapse s
  | .quiesce c => Sys2Proof.Machine.execQuiesce c s
  | .quiesceDeny c => Sys2Proof.Machine.execQuiesceDeny c s
  | .quiesceLinkDown => Sys2Proof.Machine.execQuiesceLinkDown s
  | .latchOpen => Sys2Proof.Machine.execLatchOpen s
  | .latchClose => Sys2Proof.Machine.execLatchClose s
  | .presentNBreak => Sys2Proof.Machine.execPresentNBreak s
  | .tensorLinkDown p => Sys2Proof.Machine.execTensorLinkDown p s
  | .ethPortUp p => Sys2Proof.Machine.execEthPortUp p s
  | .directorySweepDone h => Sys2Proof.Machine.execDirectorySweepDone h s
  | .startRecordTimeWrite => Sys2Proof.Machine.execStartRecordTimeWrite s
  | .testResetRelease => Sys2Proof.Machine.execTestResetRelease s
  | .attnButtonPress => Sys2Proof.Machine.execAttnButtonPress s
  | .powerStateChange d3 => Sys2Proof.Machine.execPowerStateChange d3 s
  | .loamFrameReplay l ba frame => Sys2Proof.Machine.execLoamFrameReplay l ba frame s
  | .tensorFlitReplay p => Sys2Proof.Machine.execTensorFlitReplay p s

end Sys2Proof.Machine
end

