-- ==== Sys2Proof/WellFormed.lean ====
section
/-! DEFINITION. Sys2Proof/WellFormed.lean: checks that the operands of a command are what its wires can carry, beyond what their
types say. A meaning is given for every command; one that is not well formed is a message no sender can form. -/
namespace Sys2Proof

/-- A command has a header and at most the 31 words its LEN field counts (Table CF-2). -/
def Cmd.wf (c : Cmd) : Bool := decide (0 < c.words.length) && decide (c.words.length ≤ 31)

/-- A value of `len` bytes, at least one. -/
def bytesWf (len val : Nat) : Bool := decide (0 < len) && decide (val < 256 ^ len)

/-- A burst of a copy: at most 64 KiB (R247). -/
def burstWf (len val : Nat) : Bool := bytesWf len val && decide (len ≤ 65536)

/-- Poisoned pieces of 32 bytes of a burst of `len` bytes. -/
def piecesWf (len : Nat) (bad : List Nat) : Bool := bad.all (fun k => decide (32 * k < len))

/-- A host-link width (R357). -/
def widthWf (w : Nat) : Bool := [1, 2, 4, 8, 16].contains w

/-- A message on the ordinary network carries as many bytes as it says. -/
def NetMsg.wf : NetMsg → Bool
  | .write _ len val => bytesWf len val
  | .read _ len => decide (0 < len)
  | .send len val => bytesWf len val
  | .readData len val => bytesWf len val
  | .ack => true
  | .refused => true
  | .coll _ _ fields _ => decide (fields.length = 3)

/-- The command could be sent: its operands fit their wires. -/
def Instr.wf : Instr → Bool
  | .copy _ reply bad _ => decide (reply < 256 ^ 65536) && piecesWf 65536 bad
  | .combine _ reply _ => decide (reply.length ≤ 8) && reply.all (fun r => piecesWf 65536 r.2)
  | .remoteBurstArrive _ _ _ _ len val bad read =>
    if read then decide (0 < len) && decide (len ≤ 65536) else burstWf len val && piecesWf len bad
  | .fabricBurstArrive _ _ _ _ len val bad => burstWf len val && piecesWf len bad
  | .hostLinkUp speed width => decide (0 < speed.val) && widthWf width
  | .hostLinkRetrain speed width => decide (0 < speed.val) && widthWf width
  | .sqEntryFetch host => decide (host.length ≤ 256 * 40)
  | .larkRequestWrite _ off words => decide (0 < words.length) && decide (off.val + words.length ≤ 32)
  | .bar2Access _ write len val _ => if write then bytesWf len val else decide (0 < len)
  | .inboundDma _ write len val _ => if write then bytesWf len val else decide (0 < len)
  | .outboundReadCompletion _ _ _ => true
  | .registerWrite _ len _ => len == 4 || len == 8
  | .collFieldsMessage _ fields _ _ => decide (fields.length = 3)
  | .netMessageArrive _ _ m => m.wf
  | .imageChunkArrive _ _ bytes => decide (0 < bytes.length)
  | .patternDone _ _ errors bits => decide (errors ≤ bits)
  | .dispatchCountMessage rank meadow _ _ _ _ _ _ => decide (rank < 4096) && decide (meadow < 8)
  | .pldmFwUpdateTransfer _ bytes => decide (0 < bytes.length)
  | .nop c | .map c | .invalidateUnmap c | .invalidateProtect c | .invalidateRemap c | .resolveRetry c | .resolveFail c
  | .prefetchToDevice c | .prefetchToHost c | .advise c | .evRouteWrite c | .hlRpInwinWrite c | .hayCtrlWrite c
  | .coCtrlWrite c | .atCtrlWrite c | .obCtrlWrite c | .mgCtrlWrite c | .query c | .sqConfig c | .cqConfig c | .eqConfig c
  | .regRead c | .regWrite c | .cfgRead c | .cfgWrite c | .jobCreate c | .jobDestroy c | .graphSubmit c | .graphCancel c
  | .seqOpen c | .seqClose c | .bufCreate c | .bufFree c | .regionArm c | .regionQuiesce c | .regionRelease c
  | .biasSetToHost c | .biasSetToDevice c | .coresStart c | .hostDieReset c | .dirRead c | .partCreate c | .partDestroy c
  | .spareSwap c | .portCtrlRetrain c | .portCtrlDisable c | .portCtrlEnable c | .portCtrlLaneTest c | .collAllReduce c
  | .collReduceScatter c | .collAllGather c | .collBroadcast c | .collBarrier c | .pattern c | .netConfig c | .qpConfig c
  | .netPostRdmaRead c | .netPostRdmaWrite c | .netPostSend c | .imageFetch c | .xgroupOpen c | .xcollAllReduce c
  | .xcollReduceScatter c | .xcollAllGather c | .xcollBroadcast c | .xcollBarrier c | .capSet c | .phaseRead c
  | .phaseLoad c | .pwRead c | .errLogRead c | .selfTest c | .unitCtrlWithdraw c | .unitCtrlReturn c | .errInject c
  | .startRequestCold c | .startRequestWarm c | .startRequestRecovery c | .imageStage c | .imageActivate c | .svnCommit c
  | .measureRead c | .attest c | .debugUnlockNonce c | .debugUnlockSubmit c | .quiesce c | .quiesceDeny c => c.wf
  | .sliceMissFill .. | .ctrlAgePromote .. | .hayWayCleanDone .. | .stackTempBandChange .. | .thermHoldTimeout ..
  | .dramCorrectedError .. | .memoryUncorrectable .. | .patrolScrubRead .. | .dramRowTestDone ..
  | .hayloftLocationTestDone .. | .hayWayPowerUpDone .. | .rds .. | .rdx .. | .upg .. | .ncrd .. | .ncwr .. | .wbm ..
  | .wbc .. | .evs .. | .rsps .. | .rspi .. | .rspsd .. | .rspid .. | .cmpack .. | .sliceAccessDone ..
  | .homeTimeout .. | .dirEccError .. | .snps .. | .snpi .. | .datas .. | .datax .. | .gntx .. | .ncdata .. | .ncack ..
  | .nack .. | .nackResend .. | .wback .. | .cacheLoad .. | .cacheStore .. | .cacheEvict .. | .hostD2hResponse ..
  | .cxlMemRead .. | .cxlMemWrite .. | .hostCacheSnoop .. | .matrixIssue .. | .mxOpStart .. | .shadowLoadDone ..
  | .mxOpComplete .. | .mxModeChange .. | .mxCheckFail .. | .footHandover .. | .chainIssue .. | .chainStart ..
  | .chainComplete .. | .veCheckFail .. | .groupLaunch .. | .integerOp .. | .fpOp .. | .convertOp .. | .compareOp ..
  | .scalarOp .. | .branch .. | .threadExit .. | .join .. | .barW .. | .tuftStoreAccess .. | .globalAccess ..
  | .atomic .. | .fence .. | .barArrive .. | .barSync .. | .arvSet .. | .arvAdd .. | .arvRead .. | .arvWait ..
  | .acpyD .. | .acpyL .. | .acpyLComplete .. | .routerIssue .. | .ifetchLineFill .. | .rfEccError ..
  | .inputPowerApplied .. | .inputPowerLost .. | .railPowerGood .. | .railStartTimeout .. | .regulatorOvervoltage ..
  | .regulatorFaultRestart .. | .coldStart .. | .warmStart .. | .recoveryStart .. | .pllLockLost .. | .timerSync ..
  | .stepRateWindow .. | .railBelowRetention .. | .loamFrameReceive .. | .loamFrameAck .. | .loamLaneError ..
  | .loamHandshakeTimeout .. | .loamLaneTestDone .. | .linkMoveComplete .. | .opticalChannelError ..
  | .opticalChannelTestDone .. | .laserFail .. | .phyRefLost .. | .dieDownMessage .. | .westDieLost ..
  | .tapInstruction .. | .testResetAssert .. | .svcCableInsert .. | .svcCableRemove .. | .taskStart ..
  | .taskComplete .. | .poolWatchdogExpire .. | .storeEccError .. | .fill .. | .dispatch .. | .copyEntryComplete ..
  | .copyCheckFail .. | .dispatchSegmentAnswer .. | .routerInvocationStart .. | .routerInvocationComplete ..
  | .residencyHint .. | .unitStageComplete .. | .unitLiftStart .. | .unitLiftComplete .. | .tableWalkDone ..
  | .faultWatchdogExpire .. | .invalUnitReport .. | .coreMemoryAccess .. | .coreAmo .. | .cboZero .. | .cboClean ..
  | .cboFlush .. | .cboInval .. | .coreTimerInterrupt .. | .coreRuntimeWatchdog .. | .hostLinkLoss .. | .doorbell ..
  | .entryReread .. | .larkGo .. | .ecamAccess .. | .completionTimeout .. | .msixUnmask .. | .cqHeadWrite ..
  | .eqHeadWrite .. | .fqHeadWrite .. | .cpFault .. | .cpWatchdogExpire .. | .cpRestartDone .. | .tensorLinkTrained ..
  | .partitionBarrierMessage .. | .partBarrierTimeout .. | .fabricBurstAck .. | .fencedFlitArrive .. | .peerTimeout ..
  | .tensorLaneError .. | .tensorLaneTestDone .. | .ecnMarkReceived .. | .cnpReceived .. | .ethPortDown ..
  | .roceRetryExhausted .. | .manifestArrive .. | .chunkReadRequest .. | .prefixMessage .. | .prefixSendTimer ..
  | .parentTimeout .. | .childSilenceTimeout .. | .xgroupHello .. | .xgroupOpenTimeout .. | .xcollMemberTimeout ..
  | .capLoop .. | .phaseWindow .. | .droopGuardFire .. | .droopGuardRelease .. | .ageingMeasure .. | .tuftGate ..
  | .tuftWakeDone .. | .tempSample .. | .thermalTrip .. | .inputRangeTrip .. | .targetedTestDone ..
  | .swardRemapDone .. | .flashWriteDone .. | .getVersion .. | .getCapabilities .. | .negotiateAlgorithms ..
  | .getDigests .. | .getCertificate .. | .challenge .. | .getMeasurements .. | .vendorDefinedRequest ..
  | .mctpControl .. | .pldmBaseDiscovery .. | .pldmSensorRead .. | .pldmSetMgmtCap .. | .pldmSetLocate ..
  | .pldmRemovalRequest .. | .pldmStartRequest .. | .activateFirmware .. | .buttonShortPress .. | .buttonHold ..
  | .removalRequestLapse .. | .quiesceLinkDown .. | .latchOpen .. | .latchClose .. | .presentNBreak ..
  | .tensorLinkDown .. | .ethPortUp .. | .directorySweepDone .. | .startRecordTimeWrite .. | .testResetRelease ..
  | .attnButtonPress .. | .powerStateChange .. | .loamFrameReplay .. | .tensorFlitReplay .. => true

end Sys2Proof
end

