-- ==== Sys2Proof/Safety.lean ====
section
/-! DEFINITION. Sys2Proof/Safety.lean: what counts as a sound state between commands, in the terms the claims use. -/
namespace Sys2Proof

open Sys2Proof.Machine

/-- Device memory, stores and pools in canonical form, and no write of a command left over. -/
abbrev Sound (s : State) : Prop := memWf s.mem = true ∧ s.wq = []

/-- The commands that wait could have been sent. -/
def QueueWf (s : State) : Prop := ∀ c ∈ s.pending, Instr.wf c = true

/-! ## Where an effect happens -/

/-- The module has input power and is not held in test reset: handshakes run (R477). -/
abbrev Powered (s : State) : Prop := s.pins.testReset = false ∧ s.elec.input = true

/-- The dies take steps: no trip, no halt, not held safe to remove (R493, R523, R544). -/
abbrev Running (s : State) : Prop := Powered s ∧ moduleRuns s = true

/-- A die takes steps. -/
abbrev DieRuns (s : State) (d : Nat) : Prop := Running s ∧ dieUp s d = true

/-- The Tuft's Meadow takes steps. -/
abbrev TuftRuns (s : State) (t : Nat) : Prop := DieRuns s (t / 128)

/-- The Hayloft die of a home takes steps. -/
abbrev HomeRuns (s : State) (h : Nat) : Prop := DieRuns s (8 + h)

/-- The host link's controller takes steps. -/
abbrev LinkRuns (s : State) : Prop := Powered s ∧ linksAlive s = true

/-- The responder hears a request: over management, or over the host link's endpoint while that link is up, with the west and
the security dies in service and no start in progress (R534). -/
abbrev SpdmHears (mctp : Bool) (s : State) : Prop :=
  Powered s ∧ dieUp s 26 = true ∧ gorseUp s = true ∧ ((s.start.due = none ∧ s.start.halted = false) ∨ flagSet s obStatusReady 0 = true) ∧
  (mctp = true ∨ (selfHosted s = false ∧ flagSet s hlStatusLinkUp 0 = true))

/-! ## What a command leaves -/

/-- The state a command leaves whose effect on `s` is `t`: its writes reach memory, the queue is the one it was given. -/
def leftBare (s t : State) : State := { t with pending := s.pending, mem := memCommit t.wq s.mem, wq := [] }

/-- The state that an event leaves: the same after what follows any effect, the scheduler's part, waiting commands, ceilings, the
quiesce sequence, the control processor's writes. -/
def leftEvent (s t : State) : State := leftBare s (settleAll t)

/-- The state that a command leaves: the same, or, where an access that it makes cannot be completed yet, what asking for it does. -/
def left (s t : State) : State := leftEvent s (heldBack s t)

/-- The state that an event at a pin or at the supply leaves: what follows an effect follows while the module has power and is
not held in test reset. -/
def leftPin (s t : State) : State := leftBare s (if t.pins.testReset || !t.elec.input then t else settleAll t)

/-- Nothing waits that an effect could set off: no graph, waiting buffer, closing region, drain, JOB_DESTROY, ceiling, quiesce,
no message for the network. -/
abbrev NothingWaits (s : State) : Prop :=
  s.work.graphs = [] ∧ s.work.bufWait = [] ∧ s.err.drains = [] ∧ s.ob.destroying = none ∧ s.pw.dueCeil = [] ∧
  getF s mgStatusPanel 0 ≠ 2 ∧ s.res.regions = [] ∧ s.net.queue = [] ∧ s.coh.cpWrites = [] ∧ s.coh.stuck = none

/-! ## Thread groups -/

/-- The instruction `i`, of class `cls`, comes to issue: its Tuft takes steps, its group is resident and has a running path,
the group's task runs, its lines are in the instruction cache, and its pipe's turn is its group's where it has not issued
before (R190, R191, R197); `c` is what it runs on. -/
abbrev Reaches (cls : Nat) (i : Issue) (c : ICtx) (s : State) : Prop :=
  TuftRuns s i.tuft.val ∧ cls < 15 ∧ iwClass (iw i) = cls ∧ c.t = i.tuft.val ∧ c.gi = i.group.toNat ∧
  groupGet s i.tuft.val i.group.toNat = some c.g ∧ curPath c.g = some { lanes := c.lanes, pc := c.pc, issued := c.again } ∧
  taskGet s c.g.task = some c.task ∧ c.task.phase = .running ∧ lineHeld (tuft s i.tuft.val) c.pc (iw i) = true ∧
  (c.again = true ∨ itsTurn i (tuft s i.tuft.val) = true) ∧ i.opReserved = false ∧
  c.act = c.lanes &&& guardMask c.g (iw i) ∧ c.next = c.pc + iwBytes (iw i)

/-- It comes to issue and its guard leaves a lane (R197). -/
abbrev Issues (cls : Nat) (i : Issue) (c : ICtx) (s : State) : Prop := Reaches cls i c s ∧ c.act ≠ 0

/-- It comes to issue and its guard leaves no lane (R197). -/
abbrev GuardedOff (cls : Nat) (i : Issue) (c : ICtx) (s : State) : Prop := Reaches cls i c s ∧ c.act = 0

/-- No check of an instruction or command fails. -/
abbrev NoneFails (checks : List (Option Nat)) : Prop := lowest checks = 0

/-! ## Obiolo commands -/

/-- The open command that an accepted command becomes; `want` is the records it reserves (R393). -/
def openOf (c : Cmd) (s : State) (want : List (Nat × Nat) := ownRecord c.door c.words) : OpenCmd := (takeCmd c.door c.words want s).1

/-- The state in which an accepted command has started: counted, its records reserved, listed among the open commands. -/
def startedAt (c : Cmd) (s : State) (want : List (Nat × Nat) := ownRecord c.door c.words) : State :=
  markStarted (openOf c s want) (takeCmd c.door c.words want s).2

/-- The control processor accepts a command and starts it at once (R389, R391, R393, R399): it is of opcode `op` and not one
accepted before, there is room for it and its records, no fence and no `gate` of its kind holds it, no earlier JOB_DESTROY
takes its job, and no common check fails. -/
abbrev Accepts (op : Nat) (c : Cmd) (s : State) (want : List (Nat × Nat) := ownRecord c.door c.words)
    (gate : OpenCmd → State → Bool := fun _ _ => true) : Prop :=
  Powered s ∧ cmdOpcode c.words = op ∧ flagSet s obStatusReady 0 = true ∧
  (s.ob.openCmds.find? (fun o => o.door == c.door && o.words == c.words && !o.started)) = none ∧
  s.ob.openCmds.length < 1024 ∧ recordsFit want s = true ∧
  mayStart (openOf c s want) (takeCmd c.door c.words want s).2 = true ∧
  afterDestroy (openOf c s want) (startedAt c s want) = false ∧ commonCode c.door c.words want (startedAt c s want) = 0 ∧
  gate (openOf c s want) (takeCmd c.door c.words want s).2 = true

/-- Words 1–3 of a REG_WRITE name register `r`, and its mask names only bits that a command may write (R406). -/
abbrev NamesReg (r : Reg) (c : Cmd) : Prop :=
  wordBits c.words 1 15 0 = regId r ∧ regOfWord c.words = some r ∧
  without (wordAt c.words 3 % 2 ^ min 64 (regWidth r)) (writable r) = 0

/-- The value a REG_WRITE leaves in register `r`: its value under its mask, every other bit as it was (R226, R406). -/
def writtenBy (r : Reg) (c : Cmd) (s : State) : Nat :=
  merged r (regRaw s r (wordBits c.words 1 31 16)) (wordAt c.words 2) (wordAt c.words 3 % 2 ^ min 64 (regWidth r))

end Sys2Proof
end

