-- ==== Sys2Proof/Certificates/Slice0/Obligations.lean ====
section
/-! DEFINITION. Sys2Proof/Certificates/Slice0/Obligations.lean: statements about the model, for the provers. -/

open Sys2Proof Sys2Proof.Machine

/-- R190–R198: what an arithmetic instruction leaves when it issues and no check fails: it is counted (ISSUED, DUAL, the order
of its pipe, the register caches), each active lane receives its result in the destination registers, with the poison of its
operands, the task's arithmetic flags are raised, and the path goes on. A result the spec leaves open (a shift by the width
or more) is a free value that the operands fix (log entry 1). -/
def Obligations.ThreadArithmetic : Prop :=
  ∀ (s : State) (i : Issue) (c : ICtx), 
    (∀ (op : IntOp) (wide : Bool),
     let n := if wide then 2 else 1
     let use : RegUse := { vd := n, va := if op == .mov then 0 else n, vb := n }
     let value := fun (l : Nat) => intResult (iwCode (iw i)) op (32 * n) (vregs c.g (iwA (iw i)) n l) (operandB i c n l)
     Issues 0 i c s →
     NoneFails (useChecks i c use ++ opReserved (op == .reserved)) →
     exec (.integerOp i op wide) s = .next (left s (writeLanes c (iwDst (iw i)) n
       ((lanesOf c.act).map (fun l => { lane := l, val := value l, bad := operandPoison i c use l })) (counted i c use s)))) ∧
    (∀ (code w a b : Nat),
     intResult code .add w a b = (a + b) % 2 ^ w ∧ intResult code .mul w a b = a * b % 2 ^ w ∧ intResult code .and w a b = a &&& b ∧ intResult code .mov w a b = b ∧ (b < w → intResult code .shl w a b = a <<< b % 2 ^ w)) ∧
    (∀ (op : FpOp) (dbl : Bool) (rnd : RndMod),
     let n := if dbl then 2 else 1
     let f : Fmt := if dbl then .fp64 else .fp32
     let use : RegUse := { vd := n, va := n, vb := if op == .sqrt || op == .rcp then 0 else n, vc := if op == .fma then n else 0 }
     let u := counted i c use s
     let a := tgArith (taskArith u c.task.d) rnd
     let x := fun (l : Nat) => decodeNum f a.subn (vregs c.g (iwA (iw i)) n l)
     let y := fun (l : Nat) => decodeNum f a.subn (operandB i c n l)
     let z := fun (l : Nat) => decodeNum f a.subn (operandC i c n l)
     let r := fun (l : Nat) => fpResult op f a (x l).1 (y l).1 (z l).1
     let flags := fun (l : Nat) => (r l).2 ||| (x l).2 ||| (if use.vb = 0 then 0 else (y l).2) ||| (if use.vc = 0 then 0 else (z l).2)
     Issues 1 i c s →
     NoneFails (useChecks i c use ++ opReserved (op == .reserved || (dbl && (op == .div || op == .sqrt || op == .rcp)))) →
     exec (.fpOp i op dbl rnd) s = .next (left s (writeLanes c (iwDst (iw i)) n
       ((lanesOf c.act).map (fun l => { lane := l, val := (r l).1, bad := operandPoison i c use l, flags := flags l })) u))) ∧
    (let all := fun (n : Nat) (f : Nat → Nat) => writeLanes c (iwDst (iw i)) n
       ((lanesOf c.act).map (fun l => { lane := l, val := f l, bad := operandPoison i c { vd := n } l })) (counted i c { vd := n } s)
     Issues 2 i c s →
     NoneFails (useChecks i c { vd := 1 }) →
     exec (.convertOp i .laneId) s = .next (left s (all 1 (fun l => l))) ∧
       exec (.convertOp i .groupId) s = .next (left s (all 1 (fun _ => c.g.idx))) ∧
       exec (.convertOp i .tuftInTask) s = .next (left s (all 1 (fun _ => c.t - c.task.tuft0))) ∧
       exec (.convertOp i .tuftNo) s = .next (left s (all 1 (fun _ => c.t)))) ∧
    (let u := counted i c { vd := 2 } s
     Issues 2 i c s →
     NoneFails (useChecks i c { vd := 2 }) →
     exec (.convertOp i .timer) s = .next (left s (writeLanes c (iwDst (iw i)) 2
       ((lanesOf c.act).map (fun l => { lane := l, val := timeOn u (meadowOfTuft c.t), bad := operandPoison i c { vd := 2 } l })) u))) ∧
    (∀ (src dst : CvtFmt) (rnd : RndMod),
     let draws := cvtDraws (taskArith s c.task.d) dst rnd
     let use : RegUse := { vd := cvtRegs dst, va := cvtRegs src, vc := bit draws, sb := draws }
     let u := counted i c use s
     let a := taskArith u c.task.d
     let key := scalarB i c.g
     let draw := fun (l : Nat) => srDraw u.ob.job.seed (key / 2 ^ 32 % 2 ^ 32) (key % 2 ^ 32) 0 0 (vreg c.g (iwC (iw i)) l)
     let r := fun (l : Nat) => cvtResult src dst a (modeOf a rnd) (draw l) (vregs c.g (iwA (iw i)) (cvtRegs src) l)
     Issues 2 i c s →
     NoneFails (useChecks i c use) →
     cvtDraws a dst rnd = draws →
     exec (.convertOp i (.convert src dst rnd)) s = .next (left s (writeLanes c (iwDst (iw i)) (cvtRegs dst)
       ((lanesOf c.act).map (fun l => { lane := l, val := (r l).1, bad := operandPoison i c use l, flags := (r l).2 })) u))) ∧
    (∀ (rel : CmpRel) (ty : CmpTy),
     let n := if ty == .s64 || ty == .u64 || ty == .fp64 then 2 else 1
     let use : RegUse := { va := n, vb := n, pd := true }
     let u := counted i c use s
     let r := fun (l : Nat) => cmpResult rel ty (taskArith u c.task.d) (vregs c.g (iwA (iw i)) n l) (operandB i c n l)
     Issues 3 i c s →
     NoneFails (useChecks i c use) →
     exec (.compareOp i (.cmp rel ty)) s = .next (left s (writePred c (iwDst (iw i))
       ((lanesOf c.act).map (fun l => { lane := l, val := bit (r l).1, bad := operandPoison i c use l, flags := (r l).2 })) u))) ∧
    (let w := iw i
     let a := predReg c.g (iwA w)
     let b := predReg c.g (iwB w)
     let use : RegUse := { pd := true, pa := true, pb := true }
     let bad := fun (l : Nat) => max (operandPoison i c {} l) (max (predPois c.g (iwA w) l) (predPois c.g (iwB w) l))
     let put := fun (bits : Nat) =>
       writePred c (iwDst w) ((lanesOf c.act).map (fun l => { lane := l, val := bits >>> l, bad := bad l })) (counted i c use s)
     Issues 3 i c s →
     NoneFails (useChecks i c use) →
     exec (.compareOp i .and) s = .next (left s (put (a &&& b))) ∧
       exec (.compareOp i .or) s = .next (left s (put (a ||| b))) ∧
       exec (.compareOp i .xor) s = .next (left s (put (a ^^^ b))) ∧
       exec (.compareOp i .andn) s = .next (left s (put (a &&& (0xFFFFFFFF - b))))) ∧
    (∀ (op : IntOp) (wide : Bool),
     let n := if wide then 64 else 32
     let use : RegUse := { sd := true, sa := op != .mov, sb := true }
     let value := intResult (iwCode (iw i)) op n (sreg c.g (iwA (iw i)) % 2 ^ n) (scalarB i c.g % 2 ^ n)
     Issues 14 i c s →
     NoneFails (useChecks i c use ++ opReserved (op == .reserved)) →
     exec (.scalarOp i op wide) s = .next (left s (advance c (groupMod c.t c.gi (setSreg (iwDst (iw i)) value) (counted i c use s)))))

/-- R203, R208, R212–R216: what the control instructions of thread groups leave when they issue and no check fails. A branch
sends the lanes its guard leaves to the target; JOIN and BAR.W park them; EXIT of all lanes of a group's only path ends
the group; a barrier counts the group and releases all at its count; an arrival counter is set, added to, read, waited for.
R191, R197: where the guard leaves no lane, the instruction is counted and the path goes on. -/
def Obligations.ThreadControl : Prop :=
  ∀ (s : State) (i : Issue) (c : ICtx), 
    (∀ (op : IntOp) (wide : Bool) (rel : CmpRel) (ty : CmpTy) (target : VA),
     let n := if wide then 2 else 1
     let arith : RegUse := { vd := n, va := if op == .mov then 0 else n, vb := n }
     let k := if ty == .s64 || ty == .u64 || ty == .fp64 then 2 else 1
     let cmp : RegUse := { va := k, vb := k, pd := true }
     (GuardedOff 0 i c s → NoneFails (useChecks i c arith ++ opReserved (op == .reserved)) →
       exec (.integerOp i op wide) s = .next (left s (advance c (counted i c arith s)))) ∧
       (GuardedOff 3 i c s → NoneFails (useChecks i c cmp) →
       exec (.compareOp i (.cmp rel ty)) s = .next (left s (advance c (counted i c cmp s)))) ∧
       (GuardedOff 4 i c s → NoneFails (useChecks i c {}) →
       exec (.branch i (.jump target)) s = .next (left s (advance c (counted i c {} s))) ∧
       exec (.threadExit i) s = .next (left s (advance c (counted i c {} s))) ∧
       exec (.join i) s = .next (left s (advance c (counted i c {} s))) ∧
       exec (.barW i) s = .next (left s (advance c (counted i c {} s))))) ∧
    (∀ (target : VA),
     let u := splitPath c c.act target.toNat c.next (counted i c {} s)
     Issues 4 i c s →
     NoneFails (useChecks i c {}) →
     exec (.branch i (.jump target)) s = .next (left s (if target.toNat ≤ c.pc then yieldFrom c c.act u else u))) ∧
    (∀ (target : VA),
     let use : RegUse := { sd := true }
     let u := splitPath c c.act target.toNat c.next (groupMod c.t c.gi (setSreg (iwDst (iw i)) c.next) (counted i c use s))
     Issues 4 i c s →
     NoneFails (useChecks i c use) →
     exec (.branch i (.call target)) s = .next (left s (if target.toNat ≤ c.pc then yieldFrom c c.act u else u))) ∧
    (let use : RegUse := { sa := true }
     let target := sreg c.g (iwA (iw i)) % 2 ^ 57
     let u := splitPath c c.act target c.next (counted i c use s)
     Issues 4 i c s →
     NoneFails (useChecks i c use) →
     exec (.branch i .ret) s = .next (left s (if target ≤ c.pc then yieldFrom c c.act u else u))) ∧
    (let rest := c.g.paths.filter (fun p => !(runnable p && lowLane p.lanes == c.g.cur))
     let stay := c.lanes - c.act
     let u := counted i c {} s
     let ends := fun (g : Group) => modCur (fun p => { p.goTo c.next with lanes := stay }) g
     Issues 4 i c s →
     NoneFails (useChecks i c {}) →
     exec (.threadExit i) s = .next (left s (
       if stay ≠ 0 then groupMod c.t c.gi (fun g => { ends g with paths := sortPaths (ends g).paths, cur := lowLane stay }) u
       else if rest = [] then groupExit c.t c.gi c.task u
       else scheduleGroup c.t c.gi (groupMod c.t c.gi (fun g => { g with paths := rest }) u)))) ∧
    (Issues 4 i c s →
     NoneFails (useChecks i c {}) →
     exec (.join i) s = .next (left s (scheduleGroup c.t c.gi (splitPath c c.act c.next c.next (counted i c {} s) .join))) ∧
       exec (.barW i) s = .next (left s (scheduleGroup c.t c.gi (splitPath c c.act c.next c.next (counted i c {} s) .barW)))) ∧
    (∀ (reserved : Bool),
     Issues 8 i c s →
     NoneFails (useChecks i c {} ++ (opReserved reserved ++ scopeChecks i)) →
     exec (.fence i reserved) s = .next (left s (advance c (counted i c {} s)))) ∧
    (∀ (sward : Bool) (idx : Fin 16) (b : Barrier),
     let use : RegUse := { sa := true }
     let n := sreg c.g (iwA (iw i))
     let most := if sward then tkGroups c.task.d else groupsOnTuft c.task c.t
     let u := counted i c use s
     Issues 8 i c s →
     NoneFails (useChecks i c use ++ [failIf (sward && decide (7 < idx.val)) 0x0460, failIf (c.act != 0 && (n == 0 || decide (most < n))) 0x0467]) →
     barGet u c.t sward idx = some b →
     b.task = c.task.id →
     (setAdd b.arrived c.gi).length < b.count →
     exec (.barArrive i sward idx) s = .next (left s (barPut c.t sward idx (some { b with arrived := setAdd b.arrived c.gi }) (advance c u)))) ∧
    (∀ (sward : Bool) (idx : Fin 16) (b : Barrier),
     let use : RegUse := { sa := true }
     let n := sreg c.g (iwA (iw i))
     let most := if sward then tkGroups c.task.d else groupsOnTuft c.task c.t
     let u := counted i c use s
     Issues 8 i c s →
     NoneFails (useChecks i c use ++ [failIf (sward && decide (7 < idx.val)) 0x0460, failIf (c.act != 0 && (n == 0 || decide (most < n))) 0x0467]) →
     barGet u c.t sward idx = some b →
     b.task = c.task.id →
     b.count ≤ (setAdd b.arrived c.gi).length →
     exec (.barSync i sward idx) s = .next (left s
       (barRelease c sward idx { b with arrived := setAdd b.arrived c.gi } (parkPath c c.next (.bar sward idx) u)))) ∧
    (let use : RegUse := { sa := true }
     let u := counted i c use s
     let target := sreg c.g (iwA (iw i)) % 2 ^ 32
     Issues 9 i c s →
     NoneFails (useChecks i c use) →
     exec (.arvSet i) s = .next (left s (arvPut c.t (iwCtr (iw i)) (sreg c.g (iwA (iw i))) (advance c u))) ∧
       exec (.arvAdd i) s = .next (left s (arvPut c.t (iwCtr (iw i)) (arvGet u c.t (iwCtr (iw i)) + sreg c.g (iwA (iw i))) (advance c u))) ∧
       exec (.arvWait i) s = .next (left s (if arvReached (arvGet u c.t (iwCtr (iw i))) target then advance c u
       else parkPath c c.next (.arv (iwCtr (iw i)) target) u))) ∧
    (let use : RegUse := { sd := true }
     let u := counted i c use s
     Issues 9 i c s →
     NoneFails (useChecks i c use) →
     exec (.arvRead i) s = .next (left s (advance c (groupMod c.t c.gi (setSreg (iwDst (iw i)) (arvGet u c.t (iwCtr (iw i)))) u))))

/-- R196, R199–R206, R211: what the memory instructions of thread groups leave when they issue and no check fails. Addresses come
from SRC_A and operand B (log entry 20); the order of the lanes of a store, where it matters, is open (log entry 1). -/
def Obligations.ThreadMemory : Prop :=
  ∀ (s : State) (i : Issue) (c : ICtx), 
    (∀ (size : Fin 5) (signed : Bool),
     let m : MemMod := { store := false, size := size, signed := signed }
     let n := 2 ^ size.val
     let as := laneAddrs i c false
     let u := counted i c (memUse m 1) s
     let value := fun (a : Nat × Nat) => ({
       lane := a.1, val := extendLoad m (storeNum u c.t a.2 n)
       bad := max (bit (storePoison u c.t a.2 n)) (operandPoison i c (memUse m 1) a.1) } : LaneVal)
     Issues 5 i c s →
     NoneFails (useChecks i c (memUse m 1) ++ (scopeChecks i ++
       [failIf (as.any (fun a => a.2 % n != 0)) 0x0462, failIf (as.any (fun a => decide (tkLimit c.task.d < a.2 + n))) 0x0463])) →
     exec (.tuftStoreAccess i m) s = .next (left s (writeLanes c (iwDst (iw i)) (memRegs n) (as.map value) u))) ∧
    (∀ (size : Fin 5) (signed : Bool),
     let m : MemMod := { store := true, size := size, signed := signed }
     let n := 2 ^ size.val
     let r := iwDst (iw i)
     let as := laneAddrs i c false
     let one := fun (u : State) (l : Nat) => noteRf c (storedBad i c m 1 l)
       (storeWrite c.t (laneAddr i c false l) n (vregs c.g r (memRegs n) l) (storedBad i c m 1 l != 0) u)
     Issues 5 i c s →
     NoneFails (useChecks i c (memUse m 1) ++ (scopeChecks i ++
       [failIf (as.any (fun a => a.2 % n != 0)) 0x0462, failIf (as.any (fun a => decide (tkLimit c.task.d < a.2 + n))) 0x0463])) →
     exec (.tuftStoreAccess i m) s = .next (left s (advance c ((laneOrder as n).foldl one (counted i c (memUse m 1) s))))) ∧
    (∀ (size : Fin 5) (signed : Bool) (ls : Table Nat) (t : State),
     let m : MemMod := { store := false, size := size, signed := signed }
     let n := 2 ^ size.val
     let as := laneAddrs i c true
     let u := hostTouch c false ls (ls.foldl (fun u e => lineTouch c.t false e.2 u) t)
     let read := fun (a : Nat × Nat) => globalRead u (paOf ls a.2) n a.1
     let value := fun (a : Nat × Nat) => ({
       lane := a.1, val := extendLoad m (read a).1
       bad := max (bit (read a).2) (operandPoison i c (memUse m 2) a.1) } : LaneVal)
     Issues 6 i c s →
     NoneFails (useChecks i c (memUse m 2) ++ (scopeChecks i ++ [failIf (as.any (fun a => a.2 % n != 0)) 0x0462])) →
     guardCode (counted i c (memUse m 2) s) as n false = 0 →
     xlatLines { pathAccess c.t c.gi (lowLane c.lanes) 0 0 c.task with r := true, w := false } (as.map (·.2)) [] (counted i c (memUse m 2) s) = .ok ls t →
     ls.any (fun e => isHostWin e.2 128) = false →
     exec (.globalAccess i m) s = .next (left s (writeLanes c (iwDst (iw i)) (memRegs n) (as.map value)
       (drawnN 32 (fateReport c.task.id (as.map (fun a => (paOf ls a.2, n))) u))))) ∧
    (∀ (size : Fin 5) (signed : Bool) (ls : Table Nat) (t : State),
     let m : MemMod := { store := true, size := size, signed := signed }
     let n := 2 ^ size.val
     let r := iwDst (iw i)
     let as := laneAddrs i c true
     let u := hostTouch c true ls (ls.foldl (fun u e => lineTouch c.t true e.2 u) t)
     let one := fun (u : State) (l : Nat) => noteRf c (storedBad i c m 2 l)
       (globalWrite (paOf ls (laneAddr i c true l)) n (vregs c.g r (memRegs n) l) (storedBad i c m 2 l != 0) u)
     Issues 6 i c s →
     NoneFails (useChecks i c (memUse m 2) ++ (scopeChecks i ++ [failIf (as.any (fun a => a.2 % n != 0)) 0x0462])) →
     guardCode (counted i c (memUse m 2) s) as n true = 0 →
     xlatLines { pathAccess c.t c.gi (lowLane c.lanes) 0 0 c.task with r := false, w := true } (as.map (·.2)) [] (counted i c (memUse m 2) s) = .ok ls t →
     ls.any (fun e => isHostWin e.2 128) = false →
     exec (.globalAccess i m) s = .next (left s (advance c ((laneOrder as n).foldl one u)))) ∧
    (∀ (op : AtomOp) (ty : AtomTy) (ret : Bool),
     let m : AtomMod := { global := false, op := op, ty := ty, ret := ret }
     let n := atomBits ty / 8
     let k := n / 4
     let use := atomUse i m 1 k
     let as := (lanesOf c.act).map (fun l => (l, vregs c.g (iwA (iw i)) 1 l))
     let lanes := as.map (fun a => ({
       lane := a.1, key := a.2, val := operandB i c k a.1
       cmp := if use.vc = 0 then 0 else operandC i c k a.1, bad := operandPoison i c use a.1 } : AtomLane))
     let r := atomLanes c m (fun u a => (storeNum u c.t a n, storePoison u c.t a n)) (fun a v bad u => storeWrite c.t a n v bad u) lanes (counted i c use s)
     Issues 7 i c s →
     NoneFails (useChecks i c use ++ (scopeChecks i ++ [failIf (!atomListed op ty) 0x0464, failIf (as.any (fun a => a.2 % n != 0)) 0x0462,
       failIf (as.any (fun a => decide (tkLimit c.task.d < a.2 + n))) 0x0463])) →
     exec (.atomic i m) s = .next (left s (atomDone i c m k lanes r.1 r.2))) ∧
    (∀ (op : AtomOp) (ty : AtomTy) (ret : Bool) (ls : Table Nat) (t : State),
     let m : AtomMod := { global := true, op := op, ty := ty, ret := ret }
     let n := atomBits ty / 8
     let k := n / 4
     let use := atomUse i m 2 k
     let as := (lanesOf c.act).map (fun l => (l, vregs c.g (iwA (iw i)) 2 l))
     let lanes := fun (key : Nat → Nat) => as.map (fun a => ({
       lane := a.1, key := key a.2, val := operandB i c k a.1
       cmp := if use.vc = 0 then 0 else operandC i c k a.1, bad := operandPoison i c use a.1 } : AtomLane))
     let write := fun (a v : Nat) (bad : Bool) (u : State) => globalWrite a n v bad (if isDevMem a n then u else drawn u)
     let r := atomLanes c m (fun u a => globalRead u a n 0) write (lanes (paOf ls)) (hostTouch c false ls (ls.foldl (fun u e => lineTouch c.t true e.2 u) t))
     Issues 7 i c s →
     NoneFails (useChecks i c use ++ (scopeChecks i ++ [failIf (!atomListed op ty) 0x0464, failIf (as.any (fun a => a.2 % n != 0)) 0x0462,
       failIf false 0x0463])) →
     guardCode (counted i c use s) as n true = 0 →
     xlatLines { pathAccess c.t c.gi (lowLane c.lanes) 0 0 c.task with r := true, w := true } (as.map (·.2)) [] (counted i c use s) = .ok ls t →
     ls.any (fun e => isHostWin e.2 128) = false →
     exec (.atomic i m) s = .next (left s (atomDone i c m k (lanes id) r.1 r.2))) ∧
    (∀ (size : Fin 5) (ls : Table Nat) (t : State),
     let n := 2 ^ size.val
     let use : RegUse := { va := 2, vb := 1 }
     let as := (lanesOf c.act).map (fun l => (l, vregs c.g (iwA (iw i)) 2 l))
     let dst := (lanesOf c.act).map (fun l => operandB i c 1 l)
     let u := hostTouch c false ls (ls.foldl (fun u e => lineTouch c.t false e.2 u) t)
     let copy : LaneCopy := { ctr := iwCtr (iw i), task := c.task.id, epoch := getF u hlStatusLinkEpoch 0, moves := as.map (fun a =>
       { src := paOf ls a.2, va := a.2, dst := operandB i c 1 a.1, len := n, bad := operandPoison i c use a.1 }) }
     Issues 10 i c s →
     NoneFails (useChecks i c use ++ (opReserved (decide (n < 4)) ++
       [failIf (as.any (fun a => a.2 % n != 0) || dst.any (fun a => a % n != 0)) 0x0462, failIf (dst.any (fun a => decide (tkLimit c.task.d < a + n))) 0x0463])) →
     guardCode (counted i c use s) as n false = 0 →
     xlatLines { pathAccess c.t c.gi (lowLane c.lanes) 0 0 c.task with r := true, w := false } (as.map (·.2)) [] (counted i c use s) = .ok ls t →
     ls.any (fun e => isHostWin e.2 128) = false →
     exec (.acpyL i size) s = .next (left s (advance c (modTuft c.t (fun y => { y with laneCopies := y.laneCopies ++ [copy] }) u)))) ∧
    (∀ (t : TuftNo) (nth : Fin 64) (lc : LaneCopy),
     let write := fun (u : State) (m : LaneMove) =>
       let v := globalRead u m.src m.len 0
       let gone := isHostWin m.src m.len && hostCode (some lc.epoch) [(0, m.src, m.len)] u == 0x0830
       let u := if m.bad = 2 then taskReport lc.task 0x0468 u else u
       let u := if gone then taskReport lc.task 0x0830 u else fateReport lc.task [(m.src, m.len)] u
       storeWrite t.val m.dst m.len v.1 (v.2 || gone || m.bad != 0) (if isDevMem m.src m.len then u else drawn u)
     TuftRuns s t.val →
     (tuft s t.val).laneCopies[nth.val]? = some lc →
     exec (.acpyLComplete t nth) s = .next (left s (arrive t.val lc.ctr
       (modTuft t.val (fun y => { y with laneCopies := y.laneCopies.eraseIdx nth.val }) (lc.moves.foldl write s)))))

/-- R92–R117, R177: the matrix array. An issue queues its descriptor, or parks its path while the queue is full; the oldest
operation of a quadrant with nothing to wait for and no failing check starts; a load, once done, becomes the active set; a
completed operation writes its results, raises its flags, is counted and arrives on its counter; an empty engine takes the
mode of the oldest operation; a failed check poisons the results, opens a record and aborts the task; a block leaves the
foot for the vector engine. -/
def Obligations.MatrixEngine : Prop :=
  ∀ (s : State), 
    (∀ (i : Issue) (c : ICtx),
     let u := counted i c { sa := true } s
     let d := descAt i c 64 u
     Issues 11 i c s →
     NoneFails (useChecks i c { sa := true } ++ descChecks i c 64) →
     mxRoom u c.t d = true →
     exec (.matrixIssue i) s = .next (left s (mxEnqueue c.t c.task.id (BitVec.ofNat 512 d) (advance c u)))) ∧
    (∀ (i : Issue) (c : ICtx),
     let u := counted i c { sa := true } s
     Issues 11 i c s →
     NoneFails (useChecks i c { sa := true } ++ descChecks i c 64) →
     mxRoom u c.t (descAt i c 64 u) = false →
     exec (.matrixIssue i) s = .next (left s (parkPath c c.pc .queue u))) ∧
    (∀ (t : TuftNo) (quad : Fin 4) (o : MxOp) (r : TaskRec),
     let m := mxGet s t.val
     TuftRuns s t.val →
     m.queue.find? (fun o => mxKey o.d == quad.val) = some o →
     mxMustWait m o = false →
     mxModeOn s t.val o = true →
     tget m.loading quad.val = none →
     mxTask s o = some r →
     r.phase = .running →
     lowestCode (mxChecks o.d (tkLimit r.d) (tkJoin r.d) (t.val % 4 == 0)) = none →
     exec (.mxOpStart t quad) s = .next (left s (mxGo t.val o s))) ∧
    (∀ (t : TuftNo) (quad : Fin 4) (o : MxOp) (st : Nat),
     let m := mxGet s t.val
     let w := mxLoaded s t.val o.d
     let o' := { o with loads := 0, wset := some w }
     let loaded := fun (m : MxTuft) => { m with
       active := tput m.active quad.val w
       shadow := tput m.shadow quad.val (tgetD (mxGet s t.val).active quad.val {})
       running := m.running.map (fun e => if e.stamp == st then o' else e)
       loading := tdel m.loading quad.val
       loadQ := m.loadQ.drop 1 }
     TuftRuns s t.val →
     tget m.loading quad.val = some st →
     m.running.find? (fun o => some st == some o.stamp) = some o →
     m.loadQ.head? = some quad.val →
     mxMetaOk s t.val o.d = true →
     oneSet o.d = true →
     o.loads = 1 →
     exec (.shadowLoadDone t quad) s = .next (left s (mxSet t.val loaded (bump mxCountsLoads t.val 1 s)))) ∧
    (∀ (t : TuftNo) (quad : Fin 4) (waited : W32) (o : MxOp),
     let u := bump tsCountsStoreWait t.val waited.toNat s
     let lead := mxLead t.val o.d
     let res := mxWrites o.d (mxArith u o) u.ob.job.seed (mxMem u lead o)
     let bad := mxPoison u t.val o
     let wrote := applyWrites lead res.1 bad u
     let flagged := if bad then wrote else (mxTufts t.val o.d).foldl (fun v x => taskFlags o.task x res.2 v) wrote
     TuftRuns s t.val →
     (mxGet u t.val).running.find? (fun o => mxKey o.d == quad.val) = some o →
     o.loads = 0 →
     mxHanded o = true →
     mxOutVe o.d = false →
     exec (.mxOpComplete t quad waited) s = .next (left s (finishAborted o.task
       (arrive lead (mxArrive o.d) (bump mxCountsOps t.val 1 (mxLeave t.val o.stamp flagged)))))) ∧
    (∀ (t : TuftNo) (o : MxOp) (rest : List MxOp),
     let idle := fun (x : Nat) => (mxGet s x).running.isEmpty && (x == t.val || (mxGet s x).queue.isEmpty)
     let enters := fun (m : MxTuft) => { m with mode := mxMode o.d, active := [], shadow := [], loading := [], loadQ := [] }
     mxHeadCode s t.val o = some none →
     TuftRuns s t.val →
     (mxGet s t.val).queue = o :: rest →
     mxModeOn s t.val o = false →
     (mxTufts t.val o.d).all idle = true →
     exec (.mxModeChange t) s = .next (left s ((mxTufts t.val o.d).foldl (fun u x => mxSet x enters u) s))) ∧
    (∀ (t : TuftNo) (quad : Fin 4) (parity : Bool) (o : MxOp),
     let code := if parity then 0x0431 else 0x0430
     let place := fun (j : Nat) (r : Nat × Nat) => storeKey (mxLead t.val o.d + j) r.1
     let bad := (List.range (mxTufts t.val o.d).length).foldl (fun u j => (regionsCOn o.d j).foldl (fun u r => poisonRange (place j r) r.2 u) u) s
     let told := pendErr { level := lvTuft, unit := t.val, reason := code, cls := 0x01 }
       (bumpSat mxCountsCheckErrs t.val 1 (setF mxStatusCheckErr (4 * t.val + quad.val) 1 bad))
     TuftRuns s t.val →
     (mxGet s t.val).running.find? (fun o => mxKey o.d == quad.val) = some o →
     o.ords = [] →
     mxOutVe o.d = false →
     exec (.mxCheckFail t quad parity) s = .next (left s (finishAborted o.task (abortTask o.task code (mxLeave t.val o.stamp told))))) ∧
    (∀ (t : TuftNo) (quad : Fin 4) (waited : W32) (o : MxOp) (r : TaskRec) (c : VeChain),
     let ord := tgetD o.ords t.val 0
     let b := mxBlock t.val o.d (tgetD o.handed t.val 0)
     let res := mxRows o.d (mxArith s o) s.ob.job.seed (mxMem s (mxLead t.val o.d) o) b.1 b.2.1 b.2.2.1 b.2.2.2
     let given := modTuft t.val (fun y => { y with ve := { y.ve with buf := some (ord, mxFmtC o.d, res.1, mxPoison s t.val o) } })
       (bump veCountsFootWait t.val waited.toNat s)
     let handed := fun (e : MxOp) => { e with handed := tput e.handed t.val (tgetD e.handed t.val 0 + 1), flags := if mxPoison s t.val o then e.flags else e.flags ||| res.2 }
     TuftRuns s t.val →
     (tuft s t.val).ve.buf = none →
     (mxGet s t.val).running.find? (fun o => mxOutVe o.d && mxKey o.d == quad.val && o.loads == 0 && (tget o.ords t.val).isSome && tgetD o.handed t.val 0 < mxBlockCount o.d) = some o →
     taskGet s o.task = some r →
     chainByOrd s t.val ord = some c →
     (veM c.desc.toNat, veN c.desc.toNat) = mxShape t.val o.d →
     ordBefore s t.val ord = false →
     exec (.footHandover t quad waited) s = .next (left s
       (mxSet t.val (fun m => { m with running := m.running.map (fun e => if e.stamp == o.stamp then handed e else e) }) given)))

/-- R164, R175, R182, R184: the vector engine. An issue queues its descriptor, or parks its path while four wait; the oldest
chain with no hazard and no failing check starts; a completed chain writes its results, raises its flags, is counted and
arrives on its counter; a failed residue check poisons its outputs, raises CHECK_ERR, opens a record and aborts the task. -/
def Obligations.VectorEngine : Prop :=
  ∀ (s : State), 
    (∀ (i : Issue) (c : ICtx),
     let u := counted i c { sa := true } s
     Issues 12 i c s →
     NoneFails (useChecks i c { sa := true } ++ descChecks i c 128) →
     (tuft u c.t).ve.queue.length < 4 →
     exec (.chainIssue i) s = .next (left s
       (veEnqueue c.t c.task.id (BitVec.ofNat 1024 (descAt i c 128 u)) (advance c u)))) ∧
    (∀ (i : Issue) (c : ICtx),
     let u := counted i c { sa := true } s
     Issues 12 i c s →
     NoneFails (useChecks i c { sa := true } ++ descChecks i c 128) →
     4 ≤ (tuft u c.t).ve.queue.length →
     exec (.chainIssue i) s = .next (left s (parkPath c c.pc .queue u))) ∧
    (∀ (t : TuftNo) (c : VeChain) (rest : List VeChain) (r : TaskRec),
     TuftRuns s t.val →
     (tuft s t.val).ve.running = none →
     (tuft s t.val).ve.queue = c :: rest →
     veHazard s t.val c = false →
     taskGet s c.task = some r →
     r.phase = .running →
     lowestCode (veAllChecks s t.val (tkLimit r.d) c) = none →
     exec (.chainStart t) s = .next (left s (wakePaths t.val (fun p => p == .queue)
       (veSet t.val (fun v => { v with running := some c, queue := rest }) s)))) ∧
    (∀ (t : TuftNo) (inWait waited : W32) (c : VeChain) (r : TaskRec),
     let a := taskArith s r.d
     let res := chainWrites c.d a s.ob.job.seed (chainInputs s t.val c.d a c.srcFmt c.rows)
     let bad := chainPoison s t.val c
     let flagged := taskFlags c.task t.val (if bad then 0 else res.2) (applyWrites t.val res.1 bad s)
     let counted := bump veCountsChains t.val 1 (bump veCountsInWait t.val inWait.toNat (bump tsCountsStoreWait t.val waited.toNat flagged))
     TuftRuns s t.val →
     (tuft s t.val).ve.buf = none →
     (tuft s t.val).ve.running = some c →
     veSrcMx c.d = false →
     taskGet s c.task = some r →
     exec (.chainComplete t inWait waited) s = .next (left s (finishAborted c.task
       (arrive t.val (veArrive c.d) (veSet t.val (fun v => { v with running := none }) counted))))) ∧
    (∀ (t : TuftNo) (lane : Fin 64) (c : VeChain),
     let bad := (veOuts c.d).foldl (fun u r => poisonRange (storeKey t.val r.1) r.2 u) s
     let told := pendErr { level := lvTuft, unit := t.val, subunit := lane.val, reason := 0x0458, cls := 0x01 } (raise flVeStatusCheckErr t.val bad)
     TuftRuns s t.val →
     (tuft s t.val).ve.running = some c →
     exec (.veCheckFail t lane) s = .next (left s (finishAborted c.task
       (abortTask c.task 0x0458 (veSet t.val (fun v => { v with running := none, buf := none }) told)))))

/-- R130, R188, R196, R197, R242: a waiting group becomes resident when its Tuft has room; a line of program words that
translates enters the instruction cache; a corrected register error is counted, an uncorrected one poisons the lane's word,
raises ECC_ERR and opens a record; a router descriptor is queued on the Meadow; a copy descriptor, checked and translated,
is submitted to the Sward's engine. -/
def Obligations.GroupsAndFetch : Prop :=
  ∀ (s : State), 
    (∀ (t : TuftNo) (gi : Nat) (rest : List Nat) (r : TaskRec),
     let g : Group := { idx := gi, task := r.id, paths := [{ lanes := 0xFFFFFFFF, pc := tkEntry r.d }], sregs := launchRegs s r t.val gi }
     TuftRuns s t.val →
     (tuft s t.val).waiting = gi :: rest →
     taskOn s t.val = some r →
     r.phase = .running →
     (taskTufts r).all (fun u => getF s tuftCeilState u != 2) = true →
     (tuft s t.val).groups.length < residency r.d →
     exec (.groupLaunch t) s = .next (left s (setTuft t.val { tuft s t.val with
       waiting := rest, groups := tput (tuft s t.val).groups gi g } s))) ∧
    (∀ (t : TuftNo) (group : W16) (g : Group) (p : TPath) (r : TaskRec) (pa len : Nat) (u : State),
     let line := if (tuft s t.val).icache.contains (p.pc / 128) then (p.pc + 15) / 128 else p.pc / 128
     let got := rangeAccess .rds (meadowOfTuft t.val) pa 128 u
     TuftRuns s t.val →
     groupGet s t.val group.toNat = some g →
     curPath g = some p →
     taskGet s g.task = some r →
     r.phase = .running →
     regionGuard s (line * 128) 128 false = 0 →
     translate { pathAccess t.val group.toNat (lowLane p.lanes) 1 (line * 128) r with x := true } s = (.ok pa len, u) →
     physPoison got pa 128 = false →
     exec (.ifetchLineFill t group) s = .next (left s
       (modTuft t.val (fun y => { y with icache := (line :: y.icache.filter (· != line)).take 256 }) got))) ∧
    (∀ (t : TuftNo) (group : W16) (reg : Fin 256) (lane : Fin 32),
     TuftRuns s t.val →
     exec (.rfEccError t group reg lane true) s = .next (left s (bumpSat tgCountsRfCorrected t.val 1 s))) ∧
    (∀ (t : TuftNo) (group : W16) (reg : Fin 256) (lane : Fin 32),
     let poison := fun (g : Group) => { g with vpoison := tput g.vpoison (reg.val * 32 + lane.val) 2 }
     TuftRuns s t.val →
     reg.val ≠ 255 →
     exec (.rfEccError t group reg lane false) s = .next (left s
       (pendErr { level := lvTuft, unit := t.val, subunit := lane.val, reason := 0x0468, cls := 0x02 }
       (raise flTgStatusEccErr t.val (groupMod t.val group.toNat poison s))))) ∧
    (∀ (i : Issue) (c : ICtx),
     let u := counted i c { sa := true } s
     Issues 13 i c s →
     NoneFails (useChecks i c { sa := true } ++ descChecks i c 64) →
     invWaiting u (meadowOfTuft c.t) < 8 →
     exec (.routerIssue i) s = .next (left s (enqueueInv (meadowOfTuft c.t) (BitVec.ofNat 512 (descAt i c 64 u))
       (.task c.task.id c.t (iwCtr (iw i))) (advance c u)))) ∧
    (∀ (i : Issue) (c : ICtx),
     let u := counted i c { sa := true } s
     let d := descAt i c 64 u
     let r := submitCopy (c.t / 8) (.tuft c.t) (.task c.task.id) (BitVec.ofNat 512 d) u
     let queued := match copyGet r.2.2 r.1 with | some x => x.translated && x.rest.isEmpty | none => true
     Issues 10 i c s →
     NoneFails (useChecks i c { sa := true } ++ descChecks i c 64) →
     NoneFails (copyChecks u { task := some c.task, sward := c.t / 8 } d) →
     r.2.1 = none →
     exec (.acpyD i) s = .next (left s (if queued then advance c r.2.2 else parkPath c c.next (.credit r.1) r.2.2)))

/-- R227, R232, R236, R238: the first task in the order of R128 that finds a place and pool space starts; a task whose groups,
operations and copies have ended completes; a wait for pool space that expires fails with 0x0572; a corrected store or pool
error is counted, another poisons its byte and opens a record. -/
def Obligations.TasksAndStores : Prop :=
  ∀ (s : State), 
    (∀ (r : TaskRec) (rest : List TaskRec) (t0 : Nat) (allocs : List (Nat × Nat)) (t : State),
     Running s →
     startOrder s = r :: rest →
     taskGet s r.id = some r →
     r.phase = .waiting →
     seqAllows s r = true →
     placeTask s r = .at t0 →
     barriersCode r.d = 0 →
     poolCode s (t0 / 8) r.d = 0 →
     poolServeAll r.id (t0 / 8) (tkReqs r.d) s = some (allocs, t) →
     exec .taskStart s = .next (left s (beginTask r t0 allocs t))) ∧
    (∀ (t : TuftNo) (id : Nat) (r : TaskRec),
     TuftRuns s t.val →
     (tuft s t.val).task = some id →
     taskGet s id = some r →
     r.phase = .running →
     taskIdle s r = true →
     exec (.taskComplete t) s = .next (left s (finishTask r (if taskReason s r = 0 then 0 else 2) (taskReason s r) s))) ∧
    (∀ (id : Nat) (r : TaskRec),
     Running s →
     taskGet s id = some r →
     r.phase = .waiting →
     r.poolWait.isSome = true →
     exec (.poolWatchdogExpire false id) s = .next (left s (failWaiting r 0x0572 s))) ∧
    (∀ (id : Nat),
     let rest := s.work.bufWait.filter (fun e => e.1 != id)
     Running s →
     s.work.bufWait.any (fun e => e.1 == id) = true →
     exec (.poolWatchdogExpire true id) s = .next (left s (endById id (endFailed 0x0572 0) { s with work.bufWait := rest }))) ∧
    (∀ (t : TuftNo) (off : W32) (pool : Bool),
     TuftRuns s t.val →
     exec (.storeEccError t off pool true) s = .next (left s
       (if pool then bumpSat tsCountsPoolCorrected (8 * (t.val / 8)) 1 s else bumpSat tsCountsStoreCorrected t.val 1 s))) ∧
    (∀ (t : TuftNo) (off : W32),
     let at' := off.toNat % 0x80000
     TuftRuns s t.val →
     exec (.storeEccError t off false false) s = .next (left s
       (pendErr { level := lvTuft, unit := t.val, reason := 0x0574, cls := 0x02, detail := at' / 32 * 32 } (poisonRange (storeKey t.val at') 1 s))))

/-- R239, R244, R252, R255: an entry of a copy or fill that moves, or may start, moves its next burst of at most 64 KiB; an
entry whose bursts have landed leaves the queue, and the last completes its copy; a failed check poisons what the entry
wrote, raises CHECK_ERR, opens a record and ends the copy with 0x0576; a burst of another module is written or read. -/
def Obligations.CopyEngine : Prop :=
  ∀ (s : State), 
    (∀ (entry reply : Nat) (poisoned : List Nat) (e : CopyEnt) (c : CopyRec) (p : Piece) (rest : List Piece),
     let d := c.desc.toNat
     let moving := entMod entry (fun e => { e with moving := true }) s
     DieRuns s (c.sward / 16) →
     entGet s entry = some e →
     copyGet s e.copy = some c →
     cpOp d = 0 →
     e.stalled = false ∧ e.stale = false ∧ e.pieces = p :: rest →
     e.moving = true ∨ entMayStart s e = true →
     (copyRemote d = true → rankCode moving (cpRank d) = 0) →
     (s.link.dState = 3 → burstToHost d p = false) →
     (readsHost d p = true → readsFull s = false) →
     exec (.copy entry reply poisoned false) s = .next (left s
       (entMod entry (fun e => { e with pieces := afterBurst d (p :: rest) }) (moveBurst c p (reply, poisoned) moving)))) ∧
    (∀ (entry : Nat) (e : CopyEnt) (c : CopyRec) (p : Piece) (rest : List Piece),
     let d := c.desc.toNat
     let moving := entMod entry (fun e => { e with moving := true }) s
     DieRuns s (c.sward / 16) →
     entGet s entry = some e →
     copyGet s e.copy = some c →
     cpOp d = 1 →
     e.stalled = false ∧ e.stale = false ∧ e.pieces = p :: rest →
     e.moving = true ∨ entMayStart s e = true →
     (copyRemote d = true → rankCode moving (cpRank d) = 0) →
     (s.link.dState = 3 → burstToHost d p = false) →
     (readsHost d p = true → readsFull s = false) →
     exec (.fill entry false) s = .next (left s
       (entMod entry (fun e => { e with pieces := afterBurst d (p :: rest) }) (moveBurst c p (0, []) moving)))) ∧
    (∀ (entry : Nat) (e : CopyEnt) (c c' : CopyRec),
     let others := s.copies.ents.filter (fun x => x.id != entry)
     let t := creditFree c.sward c.sub { s with copies.ents := others }
     DieRuns s (c.sward / 16) →
     entGet s entry = some e →
     copyGet s e.copy = some c →
     entOver c e = true →
     s.link.reads.any (fun r => r.2.1 == c.id) = false ∧ burstsOut s c = false →
     copyGet t e.copy = some c' →
     c'.rest = [] →
     t.copies.ents.any (fun x => x.copy == c'.id) = false →
     exec (.copyEntryComplete entry) s = .next (left s (completeCopy c' t))) ∧
    (∀ (entry : Nat) (e : CopyEnt) (c c' : CopyRec),
     let bad := e.whole.foldl (fun t p => poisonRange (poolKey c.sward p.dst) p.len t) s
     let told := pendErr { level := lvSward, unit := c.sward, reason := 0x0576, cls := 0x01 } (raise flLmStatusCheckErr c.sward bad)
     let t := creditFree c.sward c.sub (releaseSubmitter c.id (copyStops c 0x0576 told))
     DieRuns s (c.sward / 16) →
     entGet s entry = some e →
     copyGet s e.copy = some c →
     cpDstSpace c.desc.toNat = 1 ∧ isExchange c.desc.toNat = false →
     copyGet t c.id = some c' →
     exec (.copyCheckFail entry) s = .next (left s (completeCopy c' t))) ∧
    (∀ (u : UnitNo) (source burst : Nat) (va : VA) (len val : Nat) (poisoned : List Nat) (rs : List (Nat × Nat × Nat)) (t : State),
     let wrote := vput u rs val poisoned t
     DieRuns s (dieOfXunit u) ∧ 8 ≤ u.val →
     vruns { unit := u, agent := 5, va := va.toNat } va.toNat len s = (.runs rs, t) →
     exec (.remoteBurstArrive u source burst va len val poisoned false) s = .next (left s { wrote with fabOut := .ack source burst :: wrote.fabOut })) ∧
    (∀ (u : UnitNo) (source burst : Nat) (va : VA) (len : Nat) (v : Nat) (bad : List Nat) (t : State),
     DieRuns s (dieOfXunit u) ∧ 8 ≤ u.val →
     vreads { unit := u, agent := 5, va := va.toNat } [(va.toNat, len)] s = .ok [v] [bad] t →
     exec (.remoteBurstArrive u source burst va len 0 [] true) s = .next (left s (sendBurst source va.toNat len v bad t)))

/-- R142, R250, R251: a dispatch entry with its segment starts moves its next row to the expert's module; a combine entry
writes its next token; counts of a source are recorded by expert; a segment start is written to the segment table. -/
def Obligations.ExchangeSteps : Prop :=
  ∀ (s : State), 
    (∀ (entry : Nat) (e : CopyEnt) (c : CopyRec) (x n m o d start : Nat) (vs row : List Nat) (bad0 bad1 : List (List Nat)) (t u : State),
     let b := c.block
     let a := exAccess s c
     let bad := allPieces (c.listBad || anyBad bad0) (exRowBytes b) ++ bad1.getD 0 []
     let told := if bad.isEmpty then u else raise flLmStatusPoison c.sward (copyMod c.id (fun c => { c with poison := true }) u)
     let dst := exBuf b + x * exBufStride b + (start + (e.next - c.offs.getD x 0)) * exRowBytes b
     let last := decide (c.offs.getD (c.offs.length - 1) 0 ≤ e.next + 1)
     DieRuns s (c.sward / 16) →
     entGet s entry = some e →
     copyGet s e.copy = some c →
     cpOp c.desc.toNat = 2 ∧ e.stalled = false ∧ e.spent = false ∧ e.moving = true →
     segmentsIn c = true →
     exInvocation s (exList b) = some (m, o, d) →
     (roundCounts c.offs).find? (fun p => c.offs.getD p.1 0 ≤ e.next && e.next < c.offs.getD p.1 0 + p.2) = some (x, n) →
     tget c.starts x = some start →
     vreads a [(exList b + 128 + exRound b * roundBytes d + offsBytes d + 8 * e.next, 8)] s = .ok vs bad0 t →
     vreads a [(exRows b + vs.getD 0 0 % 65536 * exRowStride b, exRowBytes b)] t = .ok row bad1 u →
     tgetD c.ranks x 0 ≠ ownRank told →
     exec (.dispatch entry false false) s = .next (left s
       (entMod e.id (fun e => { e with next := e.next + 1, spent := last }) (sendOf c.id (tgetD c.ranks x 0) dst (exRowBytes b) (row.getD 0 0) bad told)))) ∧
    (∀ (entry : Nat) (e : CopyEnt) (c : CopyRec) (reply : List (Nat × List Nat)) (m o d : Nat) (vs : List Nat) (bad0 : List (List Nat)) (rows : List (Nat × Nat × List Nat)) (rs : List (Nat × Nat × Nat)) (t u w : State),
     let b := c.block
     let a := exAccess s c
     let words := (List.range (rtK d)).map (fun i => (i, (vs.getD 0 0 >>> (128 * i)) % 2 ^ 128))
     let fetched := combineRows a c d reply words t
     let fin := (fmtOfCode (exFmtIn b)).getD .fp32
     let fout := (fmtOfCode (exFmtOut b)).getD .fp32
     let n := exRowBytes b / (fmtBits fin / 8)
     let v := joinWords (fmtBits fout / 8) ((List.range n).map (combineElem fin fout rows))
     let bad := ((List.range n).filter (fun i => anyBad bad0 || c.listBad || rows.any (fun r => r.2.2.contains (i * (fmtBits fin / 8) / 32)))).map (fun i => i * (fmtBits fout / 8) / 32)
     let put := vput a.unit rs v bad w
     let told := if bad.isEmpty then put else raise flLmStatusPoison c.sward (copyMod c.id (fun c => { c with poison := true }) put)
     DieRuns s (c.sward / 16) →
     entGet s entry = some e →
     copyGet s e.copy = some c →
     cpOp c.desc.toNat = 3 ∧ e.stalled = false ∧ e.spent = false ∧ e.moving = true →
     exInvocation s (exList b) = some (m, o, d) →
     vreads a [(exList b + combineOff d + e.next * rtK d * 16, rtK d * 16)] s = .ok vs bad0 t →
     fetched.1.toOption = some rows ∧ fetched.2 = u →
     vruns a (exRows b + e.next * exRowStride b) (n * (fmtBits fout / 8)) u = (.runs rs, w) →
     exec (.combine entry reply false) s = .next (left s
       (entMod e.id (fun e => { e with next := e.next + 1, spent := decide (rtTokens d ≤ e.next + 1) }) told))) ∧
    (∀ (rank meadow order buf round : Nat) (counts : List (Nat × Nat)),
     Running s →
     exec (.dispatchCountMessage rank meadow order buf round counts false false) s = .next (left s
       (counts.foldl (fun t p => recordCount ⟨buf, round, p.1, sourceKey rank meadow order, p.2⟩ t) s))) ∧
    (∀ (entry expert start : Nat) (e : CopyEnt) (c : CopyRec) (m o d rank : Nat) (rs : List (Nat × Nat × Nat)) (t : State),
     let b := c.block
     let slot := exSegTab b + (exRound b * rtExperts d + expert) * 4
     DieRuns s (c.sward / 16) →
     entGet s entry = some e →
     copyGet s e.copy = some c →
     cpOp c.desc.toNat = 2 ∧ e.moving = true →
     tget c.ranks expert = some rank ∧ rank ≠ ownRank s →
     tget c.starts expert = none →
     exInvocation s (exList b) = some (m, o, d) →
     vruns (exAccess s c) slot 4 s = (.runs rs, t) →
     exec (.dispatchSegmentAnswer entry expert start) s = .next (left s
       (copyMod c.id (fun c => { c with starts := tput c.starts expert (start % 2 ^ 32) }) (vput (exAccess s c).unit rs (start % 2 ^ 32) (allPieces c.listBad 4) t))))

/-- R130–R141, R149, R151, R152, R158: the oldest invocation of a Meadow whose checks pass and whose data translates starts
with its decision, together with those it is merged with; one that a merge has decided keeps that decision; a running one
writes its lists and ends; a hint or a waiting task asks for its unit; a unit that arrived in the staging area is STAGED,
one that arrived in a pool POOLED and counted. -/
def Obligations.RouterAndResidency : Prop :=
  ∀ (s : State), 
    (∀ (m : MeadowNo) (i : Invocation) (rest : List Invocation) (vs : List Nat) (bad : List (List Nat)) (out : List (Nat × Nat × Nat)) (t u : State),
     let d := i.desc.toNat
     let a := stileAccess s m.val i
     let rows := (List.range (rtTokens d)).map (fun t => (rtLogits d + t * rtStride d, rtExperts d * rtLogitBytes d))
     let tags := vs.getD (rtTokens d + 1) 0
     let r := routeAll d (vs.take (rtTokens d)) (vs.getD (rtTokens d) 0) tags
     let begun := fun (i : Invocation) => { i with started := true, stalled := false, res := { r with bad := anyBad bad, outRuns := out, cntRuns := [] } }
     DieRuns s m.val →
     invQueue s m.val = i :: rest →
     i.started = false →
     NoneFails (routerChecks d) →
     rtCount d = 0 ∧ rtBias d = 0 →
     i.res.parts = [] ∧ mergeable u m.val i = [] →
     vreads a (rows ++ [(rtSeq d, 0)] ++ [(rtSeq d, 2 * rtTokens d)]) (pfSubmission a (rtLogits d) s) = .ok vs bad t →
     vruns a (rtOut d) (outBytes d) t = (.runs out, u) →
     (List.range (rtTokens d)).any (fun k => (tags >>> (16 * k)) % 65536 &&& 0x7E00 != 0) = false →
     exec (.routerInvocationStart m) s = .next (left s (wakeMeadowQueues m.val (invMod m.val i.id begun u)))) ∧
    (∀ (m : MeadowNo) (i : Invocation) (rest : List Invocation) (vs : List Nat) (bad : List (List Nat)) (out : List (Nat × Nat × Nat)) (t u : State),
     let d := i.desc.toNat
     let a := stileAccess s m.val i
     let rows := (List.range (rtTokens d)).map (fun t => (rtLogits d + t * rtStride d, rtExperts d * rtLogitBytes d))
     let tags := vs.getD (rtTokens d + 1) 0
     let r := decideInv m.val i vs (anyBad bad) u
     let begun := fun (i : Invocation) => { i with started := true, stalled := false, res := { r.1 with outRuns := out, cntRuns := [] } }
     DieRuns s m.val →
     invQueue s m.val = i :: rest →
     i.started = false →
     NoneFails (routerChecks d) →
     rtCount d = 0 ∧ rtBias d = 0 →
     i.res.parts = [] →
     vreads a (rows ++ [(rtSeq d, 0)] ++ [(rtSeq d, 2 * rtTokens d)]) (pfSubmission a (rtLogits d) s) = .ok vs bad t →
     vruns a (rtOut d) (outBytes d) t = (.runs out, u) →
     (List.range (rtTokens d)).any (fun k => (tags >>> (16 * k)) % 65536 &&& 0x7E00 != 0) = false →
     exec (.routerInvocationStart m) s = .next (left s (wakeMeadowQueues m.val (invMod m.val i.id begun r.2)))) ∧
    (∀ (m : MeadowNo) (i : Invocation) (rest : List Invocation) (out : List (Nat × Nat × Nat)) (u : State),
     let d := i.desc.toNat
     let begun := fun (j : Invocation) => { j with started := true, stalled := false, res := { i.res with outRuns := out, cntRuns := [] } }
     DieRuns s m.val →
     invQueue s m.val = i :: rest →
     i.started = false ∧ i.res.parts.isEmpty = false →
     NoneFails (routerChecks d) →
     rtCount d = 0 →
     vruns (stileAccess s m.val i) (rtOut d) (outBytes d) s = (.runs out, u) →
     exec (.routerInvocationStart m) s = .next (left s (wakeMeadowQueues m.val (invMod m.val i.id begun u)))) ∧
    (∀ (m : MeadowNo) (i : Invocation) (rest : List Invocation),
     let r := i.res
     let d := i.desc.toNat
     let wrote := stileFlags m.val r (r.parts.foldl (fun t p => vput m.val (subRuns p.1 p.2.1 r.outRuns) p.2.2 (allPieces r.bad p.2.1) t) s)
     let hinted := sendHints (rtLayer d) r.experts (scoreLayer m.val (rtLayer d) r.experts wrote)
     let lists := (rtOut d, m.val, i.id, i.desc) :: hinted.stile.lists.filter (fun l => l.1 != rtOut d)
     DieRuns s m.val →
     invQueue s m.val = i :: rest →
     i.started = true ∧ i.stalled = false ∧ i.stale = false →
     r.cntRuns = [] →
     exec (.routerInvocationComplete m) s = .next (left s
       (finishInv m.val i (if r.totals.getD 3 0 != 0 then 0x0152 else 0) { hinted with stile.lists := lists }))) ∧
    (∀ (sw : SwardNo) (region : Fin 16) (unit : Fin 4096),
     let k := unitKey region unit
     let hints := setDel s.res.hints k
     let wanted := setAdd s.res.wanted k
     DieRuns s (sw.val / 16) →
     s.res.hints.contains k = true →
     exec (.residencyHint sw region unit) s = .next (left s (demand sw region unit { s with res.hints := hints, res.wanted := wanted }))) ∧
    (∀ (sw : SwardNo) (region : Fin 16) (unit : Fin 4096) (c : CopyRec),
     let u := { unitGet s region unit with pkg := .staged, poisoned := false }
     DieRuns s (sw.val / 16) →
     unitCopyDone s sw region unit false = some c →
     c.poison = false ∧ c.code = 0 →
     exec (.unitStageComplete sw region unit) s = .next (left s (unitPut region unit u (dropCopies (fun x => x.id == c.id) s)))) ∧
    (∀ (sw : SwardNo) (region : Fin 16) (unit : Fin 4096),
     DieRuns s (sw.val / 16) →
     s.work.tasks.any (waitsFor s sw region unit) = true ∨ s.res.wanted.contains (unitKey region unit) = true →
     exec (.unitLiftStart sw region unit) s = .next (left s (demand sw region unit s))) ∧
    (∀ (sw : SwardNo) (region : Fin 16) (unit : Fin 4096) (c : CopyRec) (p : Replica),
     let landed := dropCopies (fun x => x.id == c.id) s
     let pooled := repPut sw region unit { p with st := .pooled, poisoned := false, stamp := landed.work.clock } landed
     let counted := bump resCountsLifts (sw.val / 16) 1 pooled
     let wanted := setDel pooled.res.wanted (unitKey region unit)
     DieRuns s (sw.val / 16) →
     unitCopyDone s sw region unit true = some c →
     repGet s sw region unit = some p →
     c.poison = false ∧ c.code = 0 →
     exec (.unitLiftComplete sw region unit) s = .next (left s { counted with res.wanted := wanted, work.clock := pooled.work.clock + 1 }))

/-- R320, R322, R331, R332: a walk that finds a leaf with the rights asked for fills the buffers of its unit; an access that waits
for a slot and whose watchdog expires ends with 0x0205; a unit's report is taken off the invalidation in progress. -/
def Obligations.TranslationEvents : Prop :=
  ∀ (s : State), 
    (∀ (u : UnitNo) (sward : Fin 16) (tuft : TuftNo) (agent : Fin 7) (va : VA) (r w x : Bool) (l e : Nat) (t : State),
     let a : XAcc := { unit := u, sward := sward, tuft := tuft, agent := agent, va := va.toNat, r := r, w := w, x := x }
     let b := leafBuf va.toNat l e false
     DieRuns s (dieOfXunit u) →
     walk u va.toNat (bump atCountsWalks u 1 s) = (.leaf l e, t) →
     rightsCode a b.r b.w b.x = 0 →
     exec (.tableWalkDone u sward tuft agent va r w x false) s = .next (left s (setXunit u (bufFill u sward b (xunit t u)) t))) ∧
    (∀ (u : UnitNo) (fault nth code : Nat) (a : XAcc),
     let rest := (xunit s u).noSlot.eraseIdx nth
     DieRuns s (dieOfXunit u) →
     (xunit s u).noSlot[nth]? = some (a, code) →
     exec (.faultWatchdogExpire u 1 fault nth) s = .next (left s (resume 0x0205 (setXunit u { xunit s u with noSlot := rest } s) a))) ∧
    (∀ (u : UnitNo) (fault nth : Nat) (f : FaultSlot) (a : XAcc),
     let accs := f.accs.eraseIdx nth
     let slots := ((xunit s u).slots.map (fun g => if g.id == fault then { g with accs := accs } else g)).filter (fun g => !g.accs.isEmpty)
     DieRuns s (dieOfXunit u) →
     (xunit s u).slots.find? (fun f => f.id == fault) = some f →
     f.accs[nth]? = some a →
     exec (.faultWatchdogExpire u 0 fault nth) s = .next (left s (refill u (resume 0x0205 (setXunit u { xunit s u with slots := slots } s) a)))) ∧
    (∀ (u : UnitNo) (r : InvalRun),
     DieRuns s (dieOfXunit u) →
     s.xl.inval = some r →
     r.await.testBit u = true →
     unitBusy s u r.lo r.hi = false →
     r.await - 2 ^ u.val ≠ 0 →
     exec (.invalUnitReport u) s = .next (left s { s with xl.inval := some { r with await := r.await - 2 ^ u.val } })) ∧
    (∀ (u : UnitNo) (r : InvalRun) (id n : Nat),
     DieRuns s (dieOfXunit u) →
     s.xl.inval = some r →
     r.await = 2 ^ u.val →
     unitBusy s u r.lo r.hi = false →
     r.cmd = some (id, n) →
     exec (.invalUnitReport u) s = .next (left s (endById id (endDone n 0) (setF atStatusInvalBusy 0 0 { s with xl.inval := none }))))

/-- R341, R344, R346, R350, R355: what a hart in service does. It stores to and loads from device memory through its die's
caches; an AMO returns the old value, sign-extended, and writes the new one; LR takes a reservation that SC uses; CBO.ZERO
zeroes a 64-byte block; CBO.CLEAN leaves a clean copy; CBO.FLUSH and CBO.INVAL drop the copy; a comparator raises its
timer interrupt when the local copy of the package timer has reached it; an expired watchdog resets the host die. -/
def Obligations.CoreCommands : Prop :=
  ∀ (s : State) (h : HartNo) (pa : PA), Powered s → coreUp s h = true → 
    (∀ (size : Fin 4) (data : W64),
     let n := 2 ^ size.val
     coreMem s pa.toNat n = true →
     exec (.coreMemoryAccess h pa .store size data) s = .next (left s (retires h (hartGets h 0 (coreWrite h pa.toNat n (data.toNat % 256 ^ n) s))))) ∧
    (∀ (size : Fin 4) (data : W64),
     let n := 2 ^ size.val
     let t := rangeAccess .rds (hartPort h) pa.toNat n s
     coreMem s pa.toNat n = true →
     physPoison t pa.toNat n = false →
     exec (.coreMemoryAccess h pa .load size data) s = .next (left s (retires h (hartGets h (readNum t pa.toNat n) t)))) ∧
    (∀ (size : Fin 4) (data : W64),
     coreMem s pa.toNat (2 ^ size.val) = false →
     exec (.coreMemoryAccess h pa .fetch size data) s = .next (left s (coreBarred h 1 pa.toNat (2 ^ size.val) s))) ∧
    (∀ (op : CoreAmo) (dbl : Bool) (data : W64),
     let n := if dbl then 8 else 4
     let t := rangeAccess .rdx (hartPort h) pa.toNat n s
     let old := readNum t pa.toNat n
     op ≠ .lr ∧ op ≠ .sc →
     coreMem s pa.toNat n = true ∧ pa.toNat % n = 0 →
     physPoison t pa.toNat n = false →
     exec (.coreAmo h pa op dbl data) s = .next (left s
       (retires h (hartGets h (signExt n old) (coreWrite h pa.toNat n (amoNew op n old data.toNat) t))))) ∧
    (∀ (dbl : Bool) (data : W64),
     let n := if dbl then 8 else 4
     let t := rangeAccess .rdx (hartPort h) pa.toNat n s
     let resv := tput t.cores.resv h (pa.toNat / 128)
     coreMem s pa.toNat n = true ∧ pa.toNat % n = 0 →
     physPoison t pa.toNat n = false →
     exec (.coreAmo h pa .lr dbl data) s = .next (left s (retires h (hartGets h (signExt n (readNum t pa.toNat n)) { t with cores.resv := resv })))) ∧
    (∀ (dbl : Bool) (data : W64),
     let n := if dbl then 8 else 4
     let free := tdel s.cores.resv h
     coreMem s pa.toNat n = true ∧ pa.toNat % n = 0 →
     tget s.cores.resv h = some (pa.toNat / 128) →
     exec (.coreAmo h pa .sc dbl data) s = .next (left s
       (retires h (hartGets h 0 (coreWrite h pa.toNat n (amoNew .sc n 0 data.toNat) { s with cores.resv := free }))))) ∧
    (∀ (dbl : Bool) (data : W64),
     let n := if dbl then 8 else 4
     let free := tdel s.cores.resv h
     coreMem s pa.toNat n = true ∧ pa.toNat % n = 0 →
     tget s.cores.resv h ≠ some (pa.toNat / 128) →
     exec (.coreAmo h pa .sc dbl data) s = .next (left s (retires h (hartGets h 1 { s with cores.resv := free })))) ∧
    (let a := pa.toNat / 64 * 64
     coreMem s a 64 = true →
     exec (.cboZero h pa) s = .next (left s (retires h (hartGets h 0 (dropResv h (a / 128) (devWrite a 64 0 (rangeAccess .rdx (hartPort h) a 64 s))))))) ∧
    (let line := pa.toNat / 128
     coreMem s pa.toNat 1 = true →
     exec (.cboClean h pa) s = .next (left s (retires h (hartGets h 0 (agentCleans (hartPort h) line s))))) ∧
    (let line := pa.toNat / 128
     let c := cacheLine s (hartPort h) line
     coreMem s pa.toNat 1 = true →
     c.st = .m ∧ lineOpen s line = false ∧ lineStep line s = none →
     exec (.cboClean h pa) s = .next (left s
       (retires h (hartGets h 0
       (setCacheLine (hartPort h) line { c with st := .e } (sliceWhole (slicePut line (hartPort h) 15) s)))))) ∧
    (let line := pa.toNat / 128
     coreMem s pa.toNat 1 = true →
     exec (.cboFlush h pa) s = .next (left s (retires h (hartGets h 0 (agentGivesUp (hartPort h) line s))))) ∧
    (let line := pa.toNat / 128
     coreMem s pa.toNat 1 = true →
     exec (.cboInval h pa) s = .next (left s (retires h (hartGets h 0 (agentGivesUp (hartPort h) line s))))) ∧
    (∀ (cmp : W64),
     let due := decide (cmp.toNat ≤ localTime s (hartDie h))
     exec (.coreTimerInterrupt h false cmp) s = .next (left s (setHart h { hart s h with mtimecmp := cmp.toNat, mtip := due } s))) ∧
    (∀ (cmp : W64),
     let due := decide (cmp.toNat ≤ localTime s (hartDie h))
     exec (.coreTimerInterrupt h true cmp) s = .next (left s (setHart h { hart s h with stimecmp := cmp.toNat, stip := due } s))) ∧
    (∀ (d : Fin 2),
     DieRuns s (24 + d) →
     exec (.coreRuntimeWatchdog d) s = .next (left s (leaveDie (24 + d) 0x02 s)))

/-- R395, R398, R406, R407, R409: what accepted commands do that configure queues and read or write registers and
configuration items; each completes with STATUS 0, CFG_WRITE once its write has ended. -/
def Obligations.QueueAndRegisterCommands : Prop :=
  ∀ (s : State) (c : Cmd), 
    let t := startedAt c s
    let oc := openOf c s
    (Accepts 0x00 c s →
     exec (.nop c) s = .next (left s (endCmd oc (endDone 0 0) t))) ∧
    (Accepts 0x01 c s →
     exec (.query c) s = .next (left s (endCmd oc (endDone (regRead t .obId 0) (cpTime t)) t))) ∧
    (let q := wordBits c.words 2 7 0
     let d := wordBits c.words 2 11 8
     let x : SubQ := { base := wordAt c.words 1 }
     let u := { t with ob.sq := tput t.ob.sq q x }
     let v := setF sqStateTail q (wordBits c.words 3 15 0) (setF sqStateHead q (wordBits c.words 3 15 0) (setF sqStateDepthLog2 q d (setF sqStatePrio q (wordBits c.words 2 13 12) u)))
     let w := setF sqStateState q 1 v
     Accepts 0x02 c s →
     wordBits c.words 2 16 16 = 1 →
     getF t sqStateState q = 0 ∧ NoneFails (ringCodes t 0 q (wordAt c.words 1) d 64) →
     exec (.sqConfig c) s = .next (left s (endCmd oc (endDone (regRead w .sqState q) 0) w))) ∧
    (let q := wordBits c.words 2 5 0
     let d := wordBits c.words 2 11 8
     let w := cqStart q (wordAt c.words 1) d t
     Accepts 0x03 c s →
     wordBits c.words 2 16 16 = 1 →
     flagSet t cqStateEn q = false ∧ NoneFails (ringCodes t 1 q (wordAt c.words 1) d 32) →
     exec (.cqConfig c) s = .next (left s (endCmd oc (endDone (regRead w .cqState q) 0) w))) ∧
    (let d := wordBits c.words 2 11 8
     let w := eqStart (wordAt c.words 1) d t
     Accepts 0x04 c s →
     wordBits c.words 2 16 16 = 1 →
     flagSet t eqStateEn 0 = false ∧ NoneFails (ringCodes t 2 0 (wordAt c.words 1) d 64) →
     exec (.eqConfig c) s = .next (left s (endCmd oc (endDone (regRead w .eqState 0) 0) w))) ∧
    (∀ (r : Reg),
     Accepts 0x08 c s →
     regOfWord c.words = some r →
     exec (.regRead c) s = .next (left s (endCmd oc (endReg t r (wordBits c.words 1 31 16)) (readClears r (wordBits c.words 1 31 16) t)))) ∧
    (∀ (r : Reg),
     let n := wordBits c.words 1 31 16
     let m := wordAt c.words 3 % 2 ^ min 64 (regWidth r)
     let w := regApply r n (wordAt c.words 2) m t
     Accepts 0x09 c s →
     NamesReg r c →
     NoneFails (writeCodes t r n (regRaw t r n) (writtenBy r c t) (wordAt c.words 2) m) →
     exec (.regWrite c) s = .next (left s (endCmd oc (endReg w r n) w))) ∧
    (let n := wordBits c.words 1 31 16
     let v := writtenBy .evRoute c t
     let w := retryHeld (setRegRaw .evRoute n v t)
     Accepts 0x09 c s →
     NamesReg .evRoute c →
     evRouteCode t (regRaw t .evRoute n) v = none →
     exec (.evRouteWrite c) s = .next (left s (endCmd oc (endReg w .evRoute n) w))) ∧
    (let n := wordBits c.words 1 31 16
     let v := writtenBy .hayCtrl c t
     let w := hayCtrlApply n v t
     Accepts 0x09 c s →
     NamesReg .hayCtrl c →
     hayCtrlCheck n v t = none →
     wordAt c.words 3 % 2 ^ 32 &&& fieldMask .hayCtrl requestable ≠ 0 →
     exec (.hayCtrlWrite c) s = .next (left s (endCmd oc (endReg w .hayCtrl n) w))) ∧
    (let n := wordBits c.words 1 31 16
     let v := writtenBy .coCtrl c t
     let w := setRegRaw .coCtrl n v t
     Accepts 0x09 c s →
     NamesReg .coCtrl c →
     bitsOf v 15 8 ≠ 0 →
     ((wordAt c.words 3 % 2 ^ min 64 (regWidth .coCtrl)).testBit 0 && (wordAt c.words 2).testBit 0 != (regRaw t .coCtrl n).testBit 0) = false →
     exec (.coCtrlWrite c) s = .next (left s (endCmd oc (endReg w .coCtrl n) w))) ∧
    (let n := wordBits c.words 1 31 16
     let v := writtenBy .atCtrl c t
     let w := setRegRaw .atCtrl n v t
     Accepts 0x09 c s →
     NamesReg .atCtrl c →
     bitsOf v 11 2 ≠ 0 →
     exec (.atCtrlWrite c) s = .next (left s (endCmd oc (endReg w .atCtrl n) w))) ∧
    (let n := wordBits c.words 1 31 16
     let v := writtenBy .obCtrl c t
     let w := setRegRaw .obCtrl n v t
     Accepts 0x09 c s →
     NamesReg .obCtrl c →
     bitsOf v 15 0 ≠ 0 →
     exec (.obCtrlWrite c) s = .next (left s (endCmd oc (endReg w .obCtrl n) w))) ∧
    (let n := wordBits c.words 1 31 16
     let v := writtenBy .mgCtrl c t
     let w := setRegRaw .mgCtrl n v t
     Accepts 0x09 c s →
     NamesReg .mgCtrl c →
     bitsOf v 15 8 ≠ 0 →
     exec (.mgCtrlWrite c) s = .next (left s (endCmd oc (endReg w .mgCtrl n) w))) ∧
    (let n := wordBits c.words 1 31 16
     let v := writtenBy .hlRpInwin c t
     let w := setRegRaw .hlRpInwin n v t
     Accepts 0x09 c s →
     NamesReg .hlRpInwin c →
     inwinCode (regRaw t .hlRpInwin n) v = none →
     exec (.hlRpInwinWrite c) s = .next (left s (endCmd oc (endReg w .hlRpInwin n) w))) ∧
    (∀ (v : Nat),
     Accepts 0x0A c s →
     cfgValue t (wordBits c.words 1 15 0) = some v →
     exec (.cfgRead c) s = .next (left s (endCmd oc (endDone v 0) t))) ∧
    (let k := wordBits c.words 1 15 0
     let v := wordAt c.words 2
     Accepts 0x0B c s →
     (cfgValue t k).isSome = true ∧ cfgCode k v = none ∧ t.sec.writing = none →
     exec (.cfgWrite c) s = .next (left s { t with sec.writing := some (.config oc.id k v) }))

/-- R145, R154, R156, R400–R404: what accepted commands do to the job, its graphs, sequences, pool buffers and expert
regions. JOB_DESTROY, GRAPH_SUBMIT, REGION_QUIESCE and REGION_RELEASE run on; the others complete with STATUS 0. -/
def Obligations.JobCommands : Prop :=
  ∀ (s : State) (c : Cmd), 
    let t := startedAt c s
    let oc := openOf c s
    (Accepts 0x10 c s →
     NoneFails (jobCodes c.words t) →
     exec (.jobCreate c) s = .next (left s (endCmd oc (endDone (jobMade c.words t).1 0) (jobMade c.words t).2))) ∧
    (Accepts 0x11 c s →
     t.ob.destroying = none →
     exec (.jobDestroy c) s = .next (left s (jobStop { t with ob.destroying := some oc.id }))) ∧
    (let want := graphResv c s
     let gt := startedAt c s want
     let go := openOf c s want
     let r := readGraph go.epoch (wordAt c.words 1) gt
     let g := r.1
     let u := r.2
     let x : GraphRec := { id := go.id, sq := doorSq go.door, token := cmdToken c.words, epoch := go.epoch, prio := g.prio, cq := g.cq, nodes := g.nodes }
     Accepts 0x18 c s want →
     graphsFull c s = false →
     g.code = 0 →
     exec (.graphSubmit c) s = .next (left s { u with work.graphs := u.work.graphs ++ [x] })) ∧
    (let hits := t.work.graphs.filter (fun x => x.token == wordBits c.words 1 31 0 && x.sq == wordBits c.words 1 39 32 && x.cancelled == 0)
     Accepts 0x19 c s →
     exec (.graphCancel c) s = .next (left s (endCmd oc (endDone hits.length 0) ((hits.map (·.id)).foldl (cancelGraph 0x010E) t)))) ∧
    (∀ (i : Nat),
     let e : SeqEnt := { kv := wordAt c.words 1, prio := wordBits c.words 2 7 0, cq := wordBits c.words 2 13 8, stamp := t.work.clock }
     let u := { t with work.seqs := tput t.work.seqs i e, work.clock := t.work.clock + 1 }
     Accepts 0x1C c s →
     flagSet t cqStateEn (wordBits c.words 2 13 8) = true →
     (List.range 512).find? (fun i => (seqGet t i).isNone) = some i →
     exec (.seqOpen c) s = .next (left s (endCmd oc (endDone i 0) u))) ∧
    (∀ (e : SeqEnt),
     let i := wordBits c.words 1 8 0
     let r := seqCancel i t
     let u := if seqRuns i r.2 then { r.2 with work.seqs := tput r.2.work.seqs i { e with st := 6 } } else { r.2 with work.seqs := tdel r.2.work.seqs i }
     Accepts 0x1D c s →
     seqGet t i = some e →
     e.st ≠ 6 →
     exec (.seqClose c) s = .next (left s (endCmd oc (endDone r.1 0) u))) ∧
    (∀ (sw o : Nat),
     let name := wordBits c.words 1 31 0
     let n := wordBits c.words 2 10 0 + 1
     let p : PoolAlloc := { sward := sw, off := o, blocks := n, name := some name }
     Accepts 0x20 c s →
     name ≠ 0 ∧ bufNamed t name = none →
     n ≤ poolMax t →
     namedCount t < 4096 →
     bufSward t (bufPlace c.words) = some sw →
     meadowUp t (sw / 16) = true ∧ swardUp t sw = true →
     poolFit t sw n = some o →
     exec (.bufCreate c) s = .next (left s (endById oc.id (endDone (sw + o * 256) 0) { t with work.pool := t.work.pool ++ [p] }))) ∧
    (let name := wordBits c.words 1 31 0
     Accepts 0x21 c s →
     bufNamed t name ≠ none →
     exec (.bufFree c) s = .next (left s (endCmd oc (endDone 0 0) (poolRelease name t)))) ∧
    (∀ (d m o : Nat),
     let va := wordAt c.words 1
     let r := cpRead oc.epoch va 64 0x0560 t
     let maps := if rgHomeMap d = 0 then (.ok 0, r.2) else cpRead oc.epoch (rgHomeMap d) (4 * rgUnits d) 0x0560 r.2
     let old := tget maps.2.res.regions (rgNumber d)
     Accepts 0x24 c s →
     va % 64 = 0 →
     r.1.toOption = some d →
     maps.1.toOption = some m →
     old.all (fun r => r.closing.isNone) = true →
     NoneFails (armCodes d maps.1 maps.2) →
     sharePlace maps.2 (rgShare d) = some o →
     exec (.regionArm c) s = .next (left s (endCmd oc (endDone 0 0) (regionMade d o (mapRanks m (rgUnits d)) maps.2)))) ∧
    (∀ (r : ExpertRegion),
     let i := wordBits c.words 1 3 0
     Accepts 0x25 c s →
     tget t.res.regions i = some r →
     r.closing = none ∧ r.armed = true →
     exec (.regionQuiesce c) s = .next (left s { t with res.regions := tput t.res.regions i { r with closing := some (oc.id, false) } })) ∧
    (∀ (r : ExpertRegion),
     let i := wordBits c.words 1 3 0
     Accepts 0x26 c s →
     tget t.res.regions i = some r →
     r.closing = none →
     exec (.regionRelease c) s = .next (left s { t with res.regions := tput t.res.regions i { r with closing := some (oc.id, true) } }))

/-- R289, R309, R330, R332, R335, R337, R355: what accepted commands of the address space, of coherence and of the host
dies do. INVALIDATE completes once every unit has dropped the range; PREFETCH and BIAS_SET to device bias run on. -/
def Obligations.AddressSpaceCommands : Prop :=
  ∀ (s : State) (c : Cmd), 
    let t := startedAt c s
    let oc := openOf c s
    (∀ (pas : List Nat) (u : State),
     let va := wordAt c.words 1
     let n := wordAt c.words 2
     let w := wordAt c.words 4
     let steps := mapSteps c.words pas u
     Accepts 0x30 c s (ownRecord c.door c.words) tableGate →
     wordCode oc false t = 0 →
     commandPages n (wordAt c.words 3) w t = (pas, u) →
     NoneFails (mapCodes c.words pas u) →
     exec (.map c) s = .next (left s (endCmd oc (endDone ((steps.filter (fun x => x.2.write.isSome)).length) 0)
       (mapSettle va (va + n) (mapWrite (mwSize w) steps u))))) ∧
    (let va := wordAt c.words 1
     let n := wordAt c.words 2
     let w := wordAt c.words 4
     let leaves := (leavesIn (doSplits va (va + n) t) va (va + n)).length
     Accepts 0x31 c s (ownRecord c.door c.words) tableGate →
     wordChecks va n (wordAt c.words 3) w true = 0 →
     mwAction w = 0 →
     NoneFails (invalCodes c.words [] t) →
     exec (.invalidateUnmap c) s = .next (left s (sendRange va (va + n) (some (oc.id, leaves)) (invalWrite c.words [] t)))) ∧
    (let va := wordAt c.words 1
     let n := wordAt c.words 2
     let w := wordAt c.words 4
     let leaves := (leavesIn (doSplits va (va + n) t) va (va + n)).length
     Accepts 0x31 c s (ownRecord c.door c.words) tableGate →
     wordChecks va n (wordAt c.words 3) w true = 0 →
     mwAction w = 1 →
     NoneFails (invalCodes c.words [] t) →
     exec (.invalidateProtect c) s = .next (left s (sendRange va (va + n) (some (oc.id, leaves)) (invalWrite c.words [] t)))) ∧
    (∀ (pas : List Nat) (u : State),
     let va := wordAt c.words 1
     let n := wordAt c.words 2
     let w := wordAt c.words 4
     Accepts 0x31 c s (ownRecord c.door c.words) tableGate →
     wordCode oc true t = 0 →
     mwAction w = 2 →
     commandPages n (wordAt c.words 3) w t = (pas, u) →
     NoneFails (invalCodes c.words pas u) →
     exec (.invalidateRemap c) s = .next (left s (sendRange va (va + n) (some (oc.id, pas.length)) (invalWrite c.words pas u)))) ∧
    (∀ (u : Nat),
     let id := wordBits c.words 1 15 0
     Accepts 0x32 c s →
     wordBits c.words 1 16 16 = 0 →
     faultUnit t id = some u →
     exec (.resolveRetry c) s = .next (left s (endCmd oc (endDone 0 0) (closeFault u id 0 t)))) ∧
    (∀ (u : Nat),
     let id := wordBits c.words 1 15 0
     Accepts 0x32 c s →
     wordBits c.words 1 16 16 = 1 →
     faultUnit t id = some u →
     exec (.resolveFail c) s = .next (left s (endCmd oc (endDone 0 0) (closeFault u id 0x0204 t)))) ∧
    (∀ (dst : List Nat) (u : State),
     let va := wordAt c.words 1
     let n := wordAt c.words 2
     let found := leavesIn t va (va + n)
     let run : PrefetchRun := { cmd := oc.id, lo := va, hi := va + n, todo := (found.zip dst).map (fun x => (x.1.va, x.2, x.1.e)), toHost := false }
     Accepts 0x33 c s (ownRecord c.door c.words) tableGate →
     wordBits c.words 4 0 0 = 0 →
     NoneFails [failIf (wordAt c.words 3 % 8 != 0) 0x0113,
       failIf (va % 4096 != 0 || n % 4096 != 0 || n == 0 || decide (vaTop < va + n)) 0x0210,
       failIf (selfHosted t) 0x0216, failIf (getF t hlStatusLinkUp 0 == 0) 0x0830, listCode oc.epoch (wordAt c.words 3) found.length t] →
     readList (wordAt c.words 3) found.length t = (dst, u) →
     NoneFails (prefetchCodes c.words found dst u) →
     exec (.prefetchToDevice c) s = .next (left s (sendRange va (va + n) none { writeProtect found va (va + n) u with xl.prefetch := some run }))) ∧
    (∀ (dst : List Nat) (u : State),
     let va := wordAt c.words 1
     let n := wordAt c.words 2
     let found := leavesIn t va (va + n)
     let run : PrefetchRun := { cmd := oc.id, lo := va, hi := va + n, todo := (found.zip dst).map (fun x => (x.1.va, x.2, x.1.e)), toHost := true }
     Accepts 0x33 c s (ownRecord c.door c.words) tableGate →
     wordBits c.words 4 0 0 = 1 →
     NoneFails [failIf (wordAt c.words 3 % 8 != 0) 0x0113,
       failIf (va % 4096 != 0 || n % 4096 != 0 || n == 0 || decide (vaTop < va + n)) 0x0210,
       failIf (selfHosted t) 0x0216, failIf (getF t hlStatusLinkUp 0 == 0) 0x0830, listCode oc.epoch (wordAt c.words 3) found.length t] →
     readList (wordAt c.words 3) found.length t = (dst, u) →
     NoneFails (prefetchCodes c.words found dst u) →
     exec (.prefetchToHost c) s = .next (left s (sendRange va (va + n) none { writeProtect found va (va + n) u with xl.prefetch := some run }))) ∧
    (let va := wordAt c.words 1
     let hi := va + wordAt c.words 2
     let u := doSplits va hi t
     let found := leavesIn u va hi
     Accepts 0x34 c s (ownRecord c.door c.words) tableGate →
     va % 4096 = 0 ∧ wordAt c.words 2 % 4096 = 0 ∧ wordAt c.words 2 ≠ 0 ∧ hi ≤ vaTop →
     distinct (splitNeed t va hi) ≤ pagesFree t →
     exec (.advise c) s = .next (left s (endCmd oc (endDone found.length 0)
       (rewrite found va hi (fun e cut => leafWord (entPa e) (if cut then 0 else entRun e) (wordBits c.words 3 1 0) (entR e) (entW e) (entX e)) u)))) ∧
    (let pa := wordAt c.words 1
     let n := wordAt c.words 2
     Accepts 0x38 c s →
     wordBits c.words 3 0 0 = 1 →
     pa % 4096 = 0 ∧ n % 4096 = 0 ∧ isDevMem pa n = true ∧ biasOn t = true →
     exec (.biasSetToHost c) s = .next (left s (endCmd oc (endDone 0 0) ((span (pa / 4096) (n / 4096)).foldl (fun t p => setBias p true t) t)))) ∧
    (let pa := wordAt c.words 1
     let n := wordAt c.words 2
     let pages := (span (pa / 4096) (n / 4096)).filter (hostBias t)
     let lines := if flagSet t hlStatusLinkUp 0 then pages.flatMap (fun p => span (p * 32) 32) else []
     let flips := t.coh.flips ++ [{ cmd := oc.id, pages := pages, todo := lines }]
     Accepts 0x38 c s →
     wordBits c.words 3 0 0 = 0 →
     pa % 4096 = 0 ∧ n % 4096 = 0 ∧ isDevMem pa n = true ∧ biasOn t = true →
     pages ≠ [] →
     exec (.biasSetToDevice c) s = .next (left s (flipCheck oc.id (flipSend oc.id { t with coh.flips := flips })))) ∧
    (let d := 24 + wordBits c.words 1 0 0
     let b := leaveEnds d t
     let harts := (span (48 * wordBits c.words 1 0 0) 48).foldl (fun hs h => tput hs h { mode := 1, running := true, pc := wordAt c.words 2, a0 := wordAt c.words 3 }) b.cores.harts
     let u := setF ddDieStatusRefOk d 1 (setF ddDieStatusState d 0 { b with cores.harts := harts })
     let back := fun (t : State) (l : Nat) => if dieUp t (linkEnds l).1 && dieUp t (linkEnds l).2 && getF t ddLinkStatusState l == 2 then setF ddLinkStatusState l 0 t else t
     let e : ErrRec := { level := lvPackage, unit := d, reason := 0x0A41, cls := 0x07, verdict := vTransient }
     Accepts 0x40 c s →
     dieUp t d = false ∧ isDevMem (wordAt c.words 2) 1 = true →
     exec (.coresStart c) s = .next (left s (endCmd oc (endDone 0 0) (writeErr e none (deliverEvent 4 ((linksOf d).foldl back u)))))) ∧
    (Accepts 0x41 c s →
     exec (.hostDieReset c) s = .next (left s (endCmd oc (endDone 0 0) (leaveDie (24 + wordBits c.words 1 0 0) 0x01 t)))) ∧
    (let w := wordAt c.words 1
     let e := tget t.coh.dir (dirBase (bitsOf w 3 0) (bitsOf w 18 4) + bitsOf w 22 19)
     Accepts 0x48 c s →
     exec (.dirRead c) s = .next (left s (endCmd oc (endDone ((e.map encodeDir).getD 0) 0) t)))

/-- R267, R271, R273, R276, Table MS-5: what a slice and a stack do at their events. The sector that its channel's controller
reads next becomes valid in its line, the last outstanding one retires the miss, and requests held by the slice are tried
again; an aged request goes first, with the earlier requests of its sector before it; ways that have been cleaned lose power
after their dirty sectors are written back, and woken ones return empty; a temperature band sets the refresh rate, and above
105 °C the hold. Log entry 4: data is held in memory, so a fill moves no bytes. -/
def Obligations.HayloftEvents : Prop :=
  ∀ (s : State), Running s → 
    (∀ (pa : PA) (sector : BitVec 2) (r : CtrlReq) (w : Nat),
     let h := homeOf pa.toNat
     let chan := chanOf (localOf pa.toNat / 1024)
     let y := ctrlWrites (ctrlHolds s h) chan (hayGet s h).ctrlQueue.length (hayGet s h)
     let read := ctrlDo r y
     let line := r.addr / 128
     let k := r.addr / 32 % 4
     let loc := sliceSet r.addr * 16 + w
     let l := tgetD read.lines loc {}
     let dirty := if read.misses.any (fun m => m.line == line && m.after.testBit k) then 2 ^ k else 0
     let filled := { read with lines := tput read.lines loc { l with valid := l.valid ||| 2 ^ k, dirty := l.dirty ||| dirty } }
     ctrlPick (ctrlHolds s h) y chan = some r →
     r.write = false →
     r.addr = pa.toNat / 128 * 128 + 32 * sector.toNat →
     findWay read r.addr = some w →
     exec (.sliceMissFill pa sector) s = .next (leftBare s (hayPut h
       (sliceRetry h (missMod line (fun m => { m with todo := m.todo.filter (· != k) }) filled)) s))) ∧
    (∀ (h : HomeNo) (request : Nat) (q : CtrlReq),
     let queue := (hayGet s h).ctrlQueue.map (fun x => if x.addr == q.addr && decide (x.id ≤ q.id) then { x with first := true } else x)
     (hayGet s h).ctrlQueue.find? (fun q => q.id == request) = some q →
     (chanQueue (hayGet s h) q.chan).contains q = true →
     exec (.ctrlAgePromote h request) s = .next (leftBare s (hayPut h { hayGet s h with ctrlQueue := queue } s))) ∧
    (∀ (h : HomeNo),
     let y := hayGet s h
     let on := y.powered &&& (65535 ^^^ y.cleaning)
     let gone := y.lines.filter (fun e => y.cleaning.testBit (e.1 % 16))
     (hayGet s h).cleaning ≠ 0 →
     y.lines.any (fun e => y.cleaning.testBit (e.1 % 16) && locBusy y e.1) = false →
     exec (.hayWayCleanDone h) s = .next (leftBare s (setF hayStatusCleaning h 0 (setF hayStatusWaysPowered h (popCount on 16)
       (hayPut h (gone.foldl (fun y e => sliceEvict h e.1 y) { y with powered := on, cleaning := 0, cleanPos := 0 }) s))))) ∧
    (∀ (h : HomeNo),
     let y := hayGet s h
     let on := y.powered ||| y.waking
     let kept := y.lines.filter (fun e => !y.waking.testBit (e.1 % 16))
     (hayGet s h).waking ≠ 0 →
     exec (.hayWayPowerUpDone h) s = .next (leftBare s (setF hayStatusWaysPowered h (popCount on 16)
       (hayPut h { y with powered := on, waking := 0, lines := kept } s)))) ∧
    (∀ (h : HomeNo),
     (hayGet s h).band = .upTo85 ∨ (hayGet s h).band = .upTo95 →
     exec (.stackTempBandChange h .above105) s = .next (leftBare s (writeErr (hayRec h 0x0516 0x06 vPending 0) none
       (raise flHayStatusThermal h (setF hayStatusThermHold h 1 (setF hayStatusRefreshRate h 2 (hayPut h { hayGet s h with band := .above105 } s))))))) ∧
    (∀ (h : HomeNo),
     (hayGet s h).band = .upTo105 ∨ (hayGet s h).band = .above105 →
     exec (.stackTempBandChange h .upTo105) s = .next (leftBare s
       (setF hayStatusRefreshRate h 2 (hayPut h { hayGet s h with band := .upTo105 } s)))) ∧
    (∀ (h : HomeNo),
     (hayGet s h).band = .upTo85 ∨ (hayGet s h).band = .upTo95 →
     exec (.stackTempBandChange h .upTo85) s = .next (leftBare s (setF hayStatusThermHold h 0
       (setF hayStatusRefreshRate h 0 (hayPut h { hayGet s h with band := .upTo85 } s)))))

/-- R293, R299, Table CO-5: a request arrives at its home. Where the line is held exclusively by another agent, the home opens
a transaction in OS and snoops the owner, with SnpS for a read and SnpI for a request to write. -/
def Obligations.RequestSnoopsTheOwner : Prop :=
  ∀ (s : State) (pa : PA) (a : Fin 10) (port : Fin 12) (sectors : BitVec 4) (w : NcWrite) (key : Nat) (e : DirEnt), Running s → 
    let line := pa.toNat / 128
    let charged := fun (u : State) => loamStamp (loamStampOf u (portDie port)) (8 + homeOfLine line)
       { u with coh.credits := tput u.coh.credits (creditKey (homeOfLine line) port) (tgetD u.coh.credits (creditKey (homeOfLine line) port) 0 + 1) }
    let begun := fun (r : HomeReq) (u : State) =>
       let own := (List.range 10).find? (fun x => e.sharers.testBit x)
       beginTxn key { e with resv := none } { req := r, phase := .os, await := e.sharers, owner := own } u
    let meets := fun (u : State) (p : Nat) (caching : Bool) =>
       dirFind u line = some (key, e) ∧ e.st = 2 ∧ entryTxn u key e = none ∧ e.resv = none ∧ u.lostHomes.contains (homeOfLine line) = false ∧
       tget u.coh.sweeping (homeOfLine line) = none ∧ hostBias u (pageOf (line * 128)) = false ∧
       (caching = true → p < 10 ∧ e.sharers.testBit p = false)
    (hasHome pa.toNat = true →
     msgBehind .rds a line false s = false ∧ receiverUp s a line false = true →
     inBiasTable (recvMsg .rds a line false s) (line * 128) 128 = false →
     meets (arbiterTakes line a (recvMsg .rds a line false s)) a true →
     exec (.rds pa a) s = .next (leftBare s (settle (snoopMask .snps e.sharers line
       (begun { kind := .rds, port := a, line := line, first := pa.toNat / 32 % 4 } (arbiterTakes line a (recvMsg .rds a line false s))))))) ∧
    (hasHome pa.toNat = true →
     msgBehind .rdx a line false s = false ∧ receiverUp s a line false = true →
     inBiasTable (recvMsg .rdx a line false s) (line * 128) 128 = false →
     meets (arbiterTakes line a (recvMsg .rdx a line false s)) a true →
     exec (.rdx pa a) s = .next (leftBare s (settle (snoopMask .snpi e.sharers line
       (begun { kind := .rdx, port := a, line := line, first := pa.toNat / 32 % 4 } (arbiterTakes line a (recvMsg .rdx a line false s))))))) ∧
    (hasHome pa.toNat = true →
     msgBehind .upg a line false s = false ∧ receiverUp s a line false = true →
     inBiasTable (recvMsg .upg a line false s) (line * 128) 128 = false →
     meets (arbiterTakes line a (recvMsg .upg a line false s)) a true →
     exec (.upg pa a) s = .next (leftBare s (settle (snoopMask .snpi e.sharers line
       (begun { kind := .upg, port := a, line := line, first := pa.toNat / 32 % 4 } (arbiterTakes line a (recvMsg .upg a line false s))))))) ∧
    (hasHome pa.toNat = true →
     tgetD s.coh.credits (creditKey (homeOfLine line) port) 0 < portCredits port →
     inBiasTable (charged s) (line * 128) 128 = false →
     meets (arbiterTakes line port (charged s)) port false →
     exec (.ncrd pa port sectors) s = .next (leftBare s (settle (snoopMask .snps e.sharers line
       (begun { kind := .ncrd, port := port, line := line, sectors := sectors.toNat } (arbiterTakes line port (charged s))))))) ∧
    (hasHome pa.toNat = true →
     tgetD s.coh.credits (creditKey (homeOfLine line) port) 0 < portCredits port →
     inBiasTable (charged s) (line * 128) 128 = false →
     meets (arbiterTakes line port (charged s)) port false →
     exec (.ncwr pa port w) s = .next (leftBare s (settle (snoopMask .snpi e.sharers line
       (begun { kind := .ncwr, port := port, line := line, write := some w } (arbiterTakes line port (charged s)))))))

/-- R296, R299, R300, Tables CO-5 to CO-7: what a home does with an agent's other messages. A writeback from the owner leaves
the line in U and is answered with WbAck; an eviction leaves the sharer set; a snoop response of an awaited agent, while
others are awaited, is recorded, with its data written to memory; CmpAck closes the transaction; the slice's data lets
the grant go. -/
def Obligations.HomeMessages : Prop :=
  ∀ (s : State) (pa : PA) (a : Fin 10) (d : LineData) (dirty : BitVec 4) (wbp : Bool) (key : Nat) (e : DirEnt) (t : Txn), Running s → 
    let line := pa.toNat / 128
    let got := fun (k : CohMsgKind) => recvMsg k a line false s
    let owned := fun (u : State) => dirFind u line = some (key, e) ∧ openTxn u line = none ∧ e.st = 2 ∧ e.sharers = 2 ^ a.val
    let awaited := fun (u : State) => openTxn u line = some (key, e, t) ∧ t.phase = .os ∧ t.await.testBit a = true ∧
       withBits t.await a a 0 ≠ 0
    (msgBehind .wbm a line false s = false ∧ receiverUp s a line false = true →
     owned (got .wbm) →
     exec (.wbm pa a d dirty) s = .next (leftBare s (settle (closeTxn key { e with st := 0, sharers := 0 }
       (sendMsg .wback a line true (applyLineData line d dirty.toNat (sliceAccess (slicePut line a dirty.toNat) (got .wbm)))))))) ∧
    (msgBehind .wbc a line false s = false ∧ receiverUp s a line false = true →
     owned (got .wbc) →
     exec (.wbc pa a) s = .next (leftBare s (settle (closeTxn key { e with st := 0, sharers := 0 } (sendMsg .wback a line true (got .wbc)))))) ∧
    (msgBehind .evs a line false s = false ∧ receiverUp s a line false = true →
     dirFind (got .evs) line = some (key, e) →
     e.st = 1 →
     openTxn (got .evs) line = none →
     e.sharers.testBit a = true →
     withBits e.sharers a a 0 ≠ 0 →
     exec (.evs pa a) s = .next (leftBare s (settle (dirPut key { e with sharers := withBits e.sharers a a 0, st := 1 }
       (sendMsg .wback a line true (got .evs)))))) ∧
    (let after := { t with await := withBits t.await a a 0, ownerKeepsS := t.ownerKeepsS || t.owner == some a.val }
     msgBehind .rsps a line false s = false ∧ receiverUp s a line false = true →
     awaited (got .rsps) →
     exec (.rsps pa a) s = .next (leftBare s (settle (txnPut key e after (got .rsps))))) ∧
    (let after := { t with await := withBits t.await a a 0, wbp := t.wbp || (t.owner == some a.val && wbp) }
     msgBehind .rspi a line false s = false ∧ receiverUp s a line false = true →
     awaited (got .rspi) →
     exec (.rspi pa a wbp) s = .next (leftBare s (settle (txnPut key e after (got .rspi))))) ∧
    (let after := { t with await := withBits t.await a a 0, ownerKeepsS := t.ownerKeepsS || t.owner == some a.val, dirty := t.dirty + 1 }
     msgBehind .rspsd a line false s = false ∧ receiverUp s a line false = true →
     awaited (got .rspsd) →
     exec (.rspsd pa a d) s = .next (leftBare s (settle (txnPut key e after (applyLineData line d 15 (sliceAccess (slicePut line a 15) (got .rspsd))))))) ∧
    (let after := { t with await := withBits t.await a a 0, dirty := t.dirty + 1 }
     msgBehind .rspid a line false s = false ∧ receiverUp s a line false = true →
     awaited (got .rspid) →
     exec (.rspid pa a d) s = .next (leftBare s (settle (txnPut key e after (applyLineData line d 15 (sliceAccess (slicePut line a 15) (got .rspid))))))) ∧
    (msgBehind .cmpack a line false s = false ∧ receiverUp s a line false = true →
     openTxn (got .cmpack) line = some (key, e, t) →
     transientMode (got .cmpack) = false →
     t.phase = .oa →
     t.req.port = a.val →
     exec (.cmpack pa a) s = .next (leftBare s (settle (closeTxn key e (got .cmpack))))) ∧
    (openTxn s line = some (key, e, t) →
     t.phase = .om →
     sliceReady (reqSlice t.req) s = true →
     exec (.sliceAccessDone pa) s = .next (leftBare s (settle (sendGrant key e t s)))) ∧
    (msgBehind .wbm a line false s = false ∧ receiverUp s a line false = false →
     exec (.wbm pa a d dirty) s = .next (leftBare s (got .wbm)))

/-- R295–R298, Tables CO-3 and CO-4: what a caching agent does with a home's message. A snoop takes or shares its copy and is
answered, with data from M; a grant installs the copy it asked for and is acknowledged in retry mode; a Nack is remembered;
WbAck ends state W. A core's reservation on a line goes with the copy (R346). -/
def Obligations.AgentAnswersHome : Prop :=
  ∀ (s : State) (pa : PA) (a : Fin 10) (port : Fin 12), Running s → 
    let line := pa.toNat / 128
    let got := fun (k : CohMsgKind) => recvMsg k a line true s
    let copyAt := fun (k : CohMsgKind) => cacheLine (got k) a line
    (msgBehind .snps a line true s = false ∧ receiverUp s a line true = true →
     (copyAt .snps).st = .m →
     exec (.snps a pa) s = .next (leftBare s (sendMsg .rspsd a line false (setCacheLine a line { copyAt .snps with st := .s } (got .snps))))) ∧
    (msgBehind .snps a line true s = false ∧ receiverUp s a line true = true →
     (copyAt .snps).st = .e →
     exec (.snps a pa) s = .next (leftBare s (sendMsg .rsps a line false (setCacheLine a line { copyAt .snps with st := .s } (got .snps))))) ∧
    (let t := sendMsg .rspid a line false (setCacheLine a line { copyAt .snpi with st := .i } (got .snpi))
     let kept := t.cores.resv.filter (fun e => !(8 + e.1 / 48 == a.val && e.2 == line))
     msgBehind .snpi a line true s = false ∧ receiverUp s a line true = true →
     (copyAt .snpi).st = .m →
     exec (.snpi a pa) s = .next (leftBare s { t with cores.resv := kept })) ∧
    (let t := sendMsg .rspi a line false (setCacheLine a line { copyAt .snpi with st := .i } (got .snpi))
     let kept := t.cores.resv.filter (fun e => !(8 + e.1 / 48 == a.val && e.2 == line))
     msgBehind .snpi a line true s = false ∧ receiverUp s a line true = true →
     (copyAt .snpi).st = .s →
     exec (.snpi a pa) s = .next (leftBare s { t with cores.resv := kept })) ∧
    (msgBehind .datas a line true s = false ∧ receiverUp s a line true = true →
     msgFlag .datas a line s = false →
     (copyAt .datas).st = .i →
     (copyAt .datas).req = some .rds →
     exec (.datas a pa) s = .next (leftBare s (creditReturn (homeOfLine line) a
       (ackGrant a line (installLine a line .s (cacheRoom a line (got .datas))))))) ∧
    (msgBehind .datax a line true s = false ∧ receiverUp s a line true = true →
     (copyAt .datax).st = .i →
     (copyAt .datax).req = some .rds →
     exec (.datax a pa) s = .next (leftBare s (creditReturn (homeOfLine line) a
       (ackGrant a line (installLine a line .e (cacheRoom a line (got .datax))))))) ∧
    (msgBehind .datax a line true s = false ∧ receiverUp s a line true = true →
     (copyAt .datax).st = .i →
     (copyAt .datax).req = some .rdx ∨ (copyAt .datax).req = some .upg →
     exec (.datax a pa) s = .next (leftBare s (creditReturn (homeOfLine line) a
       (ackGrant a line (installLine a line .m (cacheRoom a line (got .datax))))))) ∧
    (msgBehind .gntx a line true s = false ∧ receiverUp s a line true = true →
     (copyAt .gntx).st = .s →
     (copyAt .gntx).req = some .upg →
     exec (.gntx a pa) s = .next (leftBare s (creditReturn (homeOfLine line) a
       (ackGrant a line (installLine a line .m (cacheRoom a line (got .gntx))))))) ∧
    (∀ (m : CohMsg),
     let t := recvMsg .ncdata port line true s
     msgBehind .ncdata port line true s = false ∧ receiverUp s port line true = true →
     msgFind .ncdata port line true s = some m →
     m.answer.by_ = .row →
     exec (.ncdata port pa) s = .next (leftBare s (creditReturn (homeOfLine line) port
       { t with coh.answers := (port, line, m.answer) :: t.coh.answers }))) ∧
    (∀ (m : CohMsg),
     let t := recvMsg .ncack port line true s
     msgBehind .ncack port line true s = false ∧ receiverUp s port line true = true →
     msgFind .ncack port line true s = some m →
     m.answer.by_ = .row →
     exec (.ncack port pa) s = .next (leftBare s (creditReturn (homeOfLine line) port
       { t with coh.answers := (port, line, m.answer) :: t.coh.answers }))) ∧
    (∀ (m : CohMsg),
     msgBehind .nack a line true s = false ∧ receiverUp s a line true = true →
     msgFind .nack a line true s = some m →
     m.flag = false →
     transientMode (got .nack) = false →
     (copyAt .nack).req.isSome = true →
     exec (.nack (a.castLE (by decide)) pa) s = .next (leftBare s (creditReturn (homeOfLine line) a
       (setCacheLine a line { copyAt .nack with nacked := true } (got .nack))))) ∧
    (∀ (m : CohMsg),
     msgBehind .nack port line true s = false ∧ receiverUp s port line true = true →
     msgFind .nack port line true s = some m →
     m.flag = true →
     exec (.nack port pa) s = .next (leftBare s (creditReturn (homeOfLine line) port (recvMsg .nack port line true s)))) ∧
    (msgBehind .wback a line true s = false ∧ receiverUp s a line true = true →
     (copyAt .wback).st = .w →
     (copyAt .wback).stores = [] →
     (copyAt .wback).loads = 0 →
     exec (.wback a pa) s = .next (leftBare s (setCacheLine a line { copyAt .wback with st := .i, loads := 0, first := 0 } (got .wback)))) ∧
    (msgBehind .snpi a line true s = false ∧ receiverUp s a line true = false →
     exec (.snpi a pa) s = .next (leftBare s (got .snpi)))

/-- R294–R298, Table CO-3: what a caching agent does of itself. A load of a line it holds changes nothing; of a line it does
not hold it asks with RdS; a store in M or E is done at once, from S it asks with Upg and from I with RdX; an eviction
sends EvS, WbC or WbM and waits in W; a nacked request goes again, an Upg as RdX once the line is lost. -/
def Obligations.AgentActs : Prop :=
  ∀ (s : State) (pa : PA) (a : Fin 10) (w : LineWrite), Running s → dieUp s (portDie a) = true → 
    let line := pa.toNat / 128
    let c := cacheLine s a line
    (hasHome pa.toNat = true →
     c.st = .s ∨ c.st = .e ∨ c.st = .m →
     exec (.cacheLoad a pa) s = .next (leftBare s s)) ∧
    (hasHome pa.toNat = true →
     c.st = .i →
     c.req = none →
     exec (.cacheLoad a pa) s = .next (leftBare s (agentRequest a line .rds (setCacheLine a line { c with loads := c.loads + 1, first := pa.toNat / 32 % 4 } s)))) ∧
    (hasHome pa.toNat = true →
     c.st = .m →
     exec (.cacheStore a pa w) s = .next (leftBare s (applyLineWrite line w s))) ∧
    (hasHome pa.toNat = true →
     c.st = .e →
     exec (.cacheStore a pa w) s = .next (leftBare s (setCacheLine a line { c with st := .m } (applyLineWrite line w s)))) ∧
    (hasHome pa.toNat = true →
     c.st = .s →
     c.req = none →
     exec (.cacheStore a pa w) s = .next (leftBare s (agentRequest a line .upg (setCacheLine a line { c with stores := c.stores ++ [w] } s)))) ∧
    (hasHome pa.toNat = true →
     c.st = .i →
     c.req = none →
     exec (.cacheStore a pa w) s = .next (leftBare s (agentRequest a line .rdx (setCacheLine a line { c with stores := c.stores ++ [w] } s)))) ∧
    (hasHome pa.toNat = true →
     c.req = none →
     s.lostHomes.contains (homeOfLine line) = false →
     c.st = .s →
     exec (.cacheEvict a pa) s = .next (leftBare s (resvLost a line (sendMsg .evs a line false (setCacheLine a line { c with st := .w } s))))) ∧
    (hasHome pa.toNat = true →
     c.req = none →
     s.lostHomes.contains (homeOfLine line) = false →
     c.st = .e →
     exec (.cacheEvict a pa) s = .next (leftBare s (resvLost a line (sendMsg .wbc a line false (setCacheLine a line { c with st := .w } s))))) ∧
    (hasHome pa.toNat = true →
     c.req = none →
     s.lostHomes.contains (homeOfLine line) = false →
     c.st = .m →
     exec (.cacheEvict a pa) s = .next (leftBare s (resvLost a line (sendMsg .wbm a line false (setCacheLine a line { c with st := .w } s))))) ∧
    (∀ (k : ReqKind),
     c.req = some k →
     c.nacked = true →
     exec (.nackResend (a.castLE (by decide)) pa) s = .next (leftBare s (agentRequest a line (if k = .upg ∧ c.st = .i then .rdx else k) s))) ∧
    (∀ (r : HomeReq),
     c.nacked = false →
     s.coh.ncNacked.find? (fun r => r.port == a.val && r.line == line) = some r →
     msgFind .nack a line true s = none →
     exec (.nackResend (a.castLE (by decide)) pa) s = .next (leftBare s (ncRequest r { s with coh.ncNacked := s.coh.ncNacked.erase r })))

/-- R276, R278–R280, R282: errors of a stack and its slice, and their tests. A corrected error is counted and its time kept
for a day; the sixteenth in a day raises CE_THRESH and opens a row record; an uncorrectable error poisons its 32-byte
sector, raises UE and opens a record for the row or the slice's location; a scrub read moves on, or waits while its bank is held; a stack held above
105 °C for 100 ms trips the module with 0x0630. -/
def Obligations.MemoryErrorEvents : Prop :=
  ∀ (s : State), 
    (∀ (h : HomeNo),
     HomeRuns s h →
     flagSet s hayStatusThermHold h = true →
     exec (.thermHoldTimeout h) s = .next (leftEvent s (trip (8 + h) (getF s dieTempTemp (8 + h)) 0x0630 s))) ∧
    (∀ (pa : PA),
     let h := homeOf pa.toNat
     let y := hayGet s h
     let times := (cpTime s :: tgetD y.ceTimes (rowKey pa.toNat) []).filter (fun x => cpTime s - x < dayNs)
     HomeRuns s h →
     rowPending s pa.toNat = none →
     times.length < 16 →
     exec (.dramCorrectedError pa) s = .next (leftEvent s
       (hayPut h { y with ceTimes := tput y.ceTimes (rowKey pa.toNat) times } (bump hayCountsCeCount h 1 s)))) ∧
    (∀ (pa : PA),
     let h := homeOf pa.toNat
     let y := hayGet s h
     let times := (cpTime s :: tgetD y.ceTimes (rowKey pa.toNat) []).filter (fun x => cpTime s - x < dayNs)
     HomeRuns s h →
     rowPending s pa.toNat = none →
     times.length = 16 →
     exec (.dramCorrectedError pa) s = .next (leftEvent s (rowRecord pa.toNat 0x0510 0x03 (raise flHayStatusCeThresh h
       (hayPut h { y with ceTimes := tput y.ceTimes (rowKey pa.toNat) [] } (bump hayCountsCeCount h 1 s)))))) ∧
    (∀ (pa : PA),
     HomeRuns s (homeOf pa.toNat) →
     exec (.memoryUncorrectable pa false) s = .next (leftEvent s (rowRecord pa.toNat 0x0511 0x02
       (raise flHayStatusUe (homeOf pa.toNat) (poisonRange (pa.toNat / 32 * 32) 32 s))))) ∧
    (∀ (pa : PA),
     let h := homeOf pa.toNat
     HomeRuns s h →
     exec (.memoryUncorrectable pa true) s = .next (leftEvent s
       (pendAs (fun p => p.level == lvPackage && p.unit == 8 + h && p.reason == 0x0514 && p.detail == locWord pa.toNat)
       (hayRec h 0x0514 0x02 vPending (locWord pa.toNat)) (raise flHayStatusUe h (poisonRange (pa.toNat / 32 * 32) 32 s))))) ∧
    (∀ (h : HomeNo),
     let y := hayGet s h
     let addr := physLine h (y.scrubPos / 4) * 128 + y.scrubPos % 4 * 32
     HomeRuns s h →
     ctrlHolds s h (bankOfRow (rowKey addr)) = false →
     exec (.patrolScrubRead h false false) s = .next (leftEvent s (hayPut h { y with scrubPos := (y.scrubPos + 1) % 0xC0000000 } s))) ∧
    (∀ (h : HomeNo) (corrected uncorrectable : Bool),
     let y := hayGet s h
     let addr := physLine h (y.scrubPos / 4) * 128 + y.scrubPos % 4 * 32
     HomeRuns s h →
     ctrlHolds s h (bankOfRow (rowKey addr)) = true →
     exec (.patrolScrubRead h corrected uncorrectable) s = .next (leftEvent s s)) ∧
    (∀ (pa : PA) (badSectors corrected : W64) (p : ErrRec),
     let t := bump hayCountsCeCount (homeOf pa.toNat) (popCount corrected.toNat 64) s
     HomeRuns s (homeOf pa.toNat) →
     rowPending s pa.toNat = some p →
     badSectors = 0 →
     (passes p (rowKey pa.toNat + 1) t).1 = true →
     exec (.dramRowTestDone pa true badSectors corrected) s = .next (leftEvent s (passes p (rowKey pa.toNat + 1) t).2)) ∧
    (∀ (pa : PA) (badSectors corrected : W64) (p : ErrRec),
     let t := bump hayCountsCeCount (homeOf pa.toNat) (popCount corrected.toNat 64) s
     HomeRuns s (homeOf pa.toNat) →
     rowPending s pa.toNat = some p →
     badSectors = 0 →
     exec (.dramRowTestDone pa false badSectors corrected) s = .next (leftEvent s (repairRow pa.toNat p false (bump reCountsTests 0 1 t)))) ∧
    (∀ (pa : PA) (way : Fin 16) (p : ErrRec),
     let h := homeOf pa.toNat
     let loc := sliceSet pa.toNat * 16 + way.val
     HomeRuns s h →
     s.err.pend.find? (fun p => p.level == lvPackage && p.unit == 8 + h && p.reason == 0x0514 && p.detail == locWord pa.toNat) = some p →
     exec (.hayloftLocationTestDone pa way false) s = .next (leftEvent s
       (lasting p 0x0515 p.detail true false (retireLoc h loc (bump reCountsTests 0 1 s))))) ∧
    (∀ (pa : PA) (way : Fin 16) (p : ErrRec),
     let h := homeOf pa.toNat
     let loc := sliceSet pa.toNat * 16 + way.val
     HomeRuns s h →
     s.err.pend.find? (fun p => p.level == lvPackage && p.unit == 8 + h && p.reason == 0x0514 && p.detail == locWord pa.toNat) = some p →
     (passes p (loc + 2 ^ 40) s).1 = true →
     exec (.hayloftLocationTestDone pa way true) s = .next (leftEvent s (passes p (loc + 2 ^ 40) s).2))

/-- R292, R302, R303: a request in OS whose answers are late: each late agent is reported with 0x0520 and leaves the sharer
set, the line is poisoned and the request goes on; each late agent's die leaves service. A directory error raises DIR_ERR,
snoops every agent and opens a record. A sweep that ends writes a lasting 0x0521 for each agent it swept for. -/
def Obligations.HomeFailures : Prop :=
  ∀ (s : State), 
    (∀ (pa : PA) (key : Nat) (e : DirEnt) (t : Txn),
     let line := pa.toNat / 128
     let h := homeOfLine line
     let late := agentsOf t.await
     let e' := { e with sharers := late.foldl (fun m a => withBits m a a 0) e.sharers }
     let report := fun (u : State) (a : Nat) => writeErr { level := lvPackage, unit := 8 + h, reason := 0x0520, cls := 0x04, verdict := vTransient, detail := timeoutDetail line a } none u
     let told := late.foldl report (raise flCoStatusTimeout h (poisonRange (line * 128) 128 (dirPut key e' s)))
     let done := settle (finishTxn key e' { t with await := 0, wbp := false } told)
     HomeRuns s (homeOf pa.toNat) →
     openTxn s line = some (key, e, t) →
     t.phase = .os →
     t.d2h = false →
     exec (.homeTimeout pa) s = .next (leftEvent s (late.foldl (fun u a => leaveDie (if a < 8 then a else a + 16) 7 u) done))) ∧
    (∀ (h : HomeNo) (set : Fin 32768) (way : Fin 16),
     HomeRuns s h →
     tget s.coh.dir (dirBase h set + way) = none →
     exec (.dirEccError h set way) s = .next (leftEvent s
       (pendErr { level := lvPackage, unit := 8 + h, reason := 0x0522, cls := 0x02, detail := set * 16 + way } (raise flCoStatusDirErr h s)))) ∧
    (∀ (h : HomeNo) (set : Fin 32768) (way : Fin 16) (e : DirEnt),
     let key := dirBase h set + way
     let line := lineOfEntry key e
     let swept := snoopMask .snpi 1023 line
       (beginTxn key e { req := { kind := .eccSweep, port := 99, line := line }, phase := .os, await := 1023, owner := none } s)
     HomeRuns s h →
     tget s.coh.dir (dirBase h set + way) = some e →
     entryTxn s (dirBase h set + way) e = none →
     e.st = 1 →
     exec (.dirEccError h set way) s = .next (leftEvent s
       (pendErr { level := lvPackage, unit := 8 + h, reason := 0x0522, cls := 0x02, detail := set * 16 + way } (raise flCoStatusDirErr h swept)))) ∧
    (∀ (h : HomeNo) (a : Nat),
     let r := sweepAgent h a s
     let t := writeErr { level := lvPackage, unit := 8 + h, subunit := a, reason := 0x0521, cls := 0x07, verdict := vLasting, out := true, detail := r.1 } none
       (raise flCoStatusAgentLost h r.2)
     HomeRuns s h →
     tget s.coh.sweeping h = some (2 ^ a) →
     agentsOf (2 ^ a) = [a] →
     exec (.directorySweepDone h) s = .next (leftEvent s (settle (setF coStatusSweep h 0 { t with coh.sweeping := tdel t.coh.sweeping h }))))

/-- R306–R309, R360–R362: what the outside host does to device memory. A read or write while the link is up and memory
active goes to its home on port 10, after the page went to host bias; before Memory Active it completes with poison and
is counted; beyond device memory it completes with poison; the host's answer to a device-to-host request lets the request go on; a snoop finds no copy of host memory; the bias table is
not open to the host. -/
def Obligations.HostMemoryRequests : Prop :=
  ∀ (s : State), 
    (∀ (pa : PA),
     LinkRuns s →
     selfHosted s = false →
     flagSet s hlStatusLinkUp 0 = true →
     getF s hlStatusMemActive 0 = 0 →
     exec (.cxlMemRead pa false) s = .next (left s
       (let t := bump hlCountsMemEarly 0 1 s; { t with hostOut := .completion 64 0 true :: s.hostOut }))) ∧
    (∀ (pa : PA) (mayModify : Bool),
     LinkRuns s →
     selfHosted s = false →
     flagSet s hlStatusLinkUp 0 = true →
     getF s hlStatusMemActive 0 ≠ 0 ∧ isDevMem pa.toNat 64 = true ∧ inBiasTable s pa.toNat 64 = false →
     exec (.cxlMemRead pa mayModify) s = .next (left s (ncRequest
       { kind := if mayModify then .hostOwn else .ncrd, port := 10, line := pa.toNat / 128, sectors := if pa.toNat / 64 % 2 = 0 then 3 else 12, by_ := .cxl }
       (autoFlip pa.toNat s)))) ∧
    (∀ (pa : PA) (w : LineWrite),
     LinkRuns s →
     selfHosted s = false →
     flagSet s hlStatusLinkUp 0 = true →
     getF s hlStatusMemActive 0 ≠ 0 ∧ isDevMem pa.toNat 64 = true ∧ inBiasTable s pa.toNat 64 = false →
     s.coh.flips = [] →
     exec (.cxlMemWrite pa w) s = .next (left s (ncRequest
       { kind := .ncwr, port := 10, line := pa.toNat / 128, write := some (.bytes w), by_ := .cxl } (autoFlip pa.toNat s)))) ∧
    (∀ (pa : PA) (mayModify : Bool) (w : LineWrite),
     let t := tableRefused pa.toNat s
     LinkRuns s →
     selfHosted s = false →
     flagSet s hlStatusLinkUp 0 = true →
     getF s hlStatusMemActive 0 ≠ 0 ∧ isDevMem pa.toNat 64 = true →
     inBiasTable s pa.toNat 64 = true →
     exec (.cxlMemRead pa mayModify) s = .next (left s { t with hostOut := .completion 64 0 true :: t.hostOut }) ∧
       exec (.cxlMemWrite pa w) s = .next (left s { t with hostOut := .completion 0 0 true :: t.hostOut })) ∧
    (∀ (pa : PA) (mayModify : Bool) (w : LineWrite),
     LinkRuns s →
     selfHosted s = false →
     flagSet s hlStatusLinkUp 0 = true →
     getF s hlStatusMemActive 0 ≠ 0 ∧ isDevMem pa.toNat 64 = false →
     exec (.cxlMemRead pa mayModify) s = .next (left s { s with hostOut := .completion 64 0 true :: s.hostOut }) ∧
       exec (.cxlMemWrite pa w) s = .next (left s { s with hostOut := .completion 0 0 true :: s.hostOut })) ∧
    (∀ (addr : W64),
     Running s →
     selfHosted s = false →
     flagSet s hlStatusLinkUp 0 = true →
     exec (.hostCacheSnoop addr) s = .next (leftBare s { s with hostOut := .snoopAnswer :: s.hostOut })) ∧
    (∀ (pa : PA) (key : Nat) (e : DirEnt) (t : Txn),
     HomeRuns s (homeOf pa.toNat) →
     openTxn s (pa.toNat / 128) = some (key, e, t) →
     t.d2h = true →
     exec (.hostD2hResponse pa none) s = .next (leftEvent s (settle (decideStable t.req key e s)))) ∧
    (∀ (pa : PA) (d : LineData) (key : Nat) (e : DirEnt) (t : Txn),
     HomeRuns s (homeOf pa.toNat) →
     openTxn s (pa.toNat / 128) = some (key, e, t) →
     t.d2h = true →
     exec (.hostD2hResponse pa (some d)) s = .next (leftEvent s (settle (decideStable t.req key e
       (applyLineData (pa.toNat / 128) d 15 (sliceAccess (slicePut (pa.toNat / 128) 10 15) s))))))

/-- R524, R533, R535, R536, R538: what accepted commands of start-up and security do. Signatures are checked and made by
what the spec leaves open, so the statements hold whichever they are; an image or a token that fails a check is refused. -/
def Obligations.StartAndSecurityCommands : Prop :=
  ∀ (s : State) (c : Cmd), 
    let t := startedAt c s
    let oc := openOf c s
    (let u := { t with start.due := some (0, 1), start.waits := t.sec.writing.isSome }
     Accepts 0x60 c s →
     wordBits c.words 1 1 0 = 0 →
     t.start.due = none →
     exec (.startRequestCold c) s = .next (left s (endCmd oc (endDone 0 0) u))) ∧
    (let u := { t with start.due := some (1, 2), start.waits := t.sec.writing.isSome }
     Accepts 0x60 c s →
     wordBits c.words 1 1 0 = 1 →
     t.start.due = none →
     exec (.startRequestWarm c) s = .next (left s (endCmd oc (endDone 0 0) u))) ∧
    (let u := { t with start.due := some (2, 9), start.waits := t.sec.writing.isSome }
     Accepts 0x60 c s →
     wordBits c.words 1 1 0 = 2 →
     t.start.due = none →
     exec (.startRequestRecovery c) s = .next (left s (endCmd oc (endDone 0 0) u))) ∧
    (let pa := wordAt c.words 1
     let n := wordAt c.words 2
     let r := cpReadPa pa n t
     let code := if r.2.1 then 0x0706 else imageCode r.2.2 r.1 n
     Accepts 0x61 c s →
     gorseUp t = true ∧ t.sec.writing = none →
     imgHead ≤ n ∧ n ≤ imgMax ∧ cpReach pa n = true →
     (cpReadCode oc pa n t).1 = 0 →
     exec (.imageStage c) s = .next (left s (if code ≠ 0 then endCmd oc (endRefused code) (raise flSbStatusVerifyFail 0 r.2.2) else stageImage (some oc.id) r.1 n r.2.2))) ∧
    (let mask := wordBits c.words 1 6 0
     let u := { t with sec.active := t.sec.active ^^^ (mask % 128) }
     Accepts 0x62 c s →
     t.sec.writing = none ∧ stagingFailed t mask = false →
     exec (.imageActivate c) s = .next (left s (endCmd oc (endDone u.sec.active 0) u))) ∧
    (let v := wordBits c.words 1 6 0
     let u := { t with sec.svnMin := max t.sec.svnMin v }
     Accepts 0x63 c s →
     gorseUp t = true ∧ v ≤ bankSvn t recoveryKey →
     (∀ i ∈ List.range 7, v ≤ bankSvn t (bankKey i (activeB t i))) →
     exec (.svnCommit c) s = .next (left s (endCmd oc (endDone u.sec.svnMin 0) u))) ∧
    (let pa := wordAt c.words 1
     Accepts 0x64 c s →
     gorseUp t = true ∧ cpReach pa 384 = true ∧ cpWriteCode oc pa 384 t = 0 →
     exec (.measureRead c) s = .next (left s (endCmd oc (endDone 0 0) (cpWritePa pa 384 (slotBytes t) t)))) ∧
    (let pa := wordAt c.words 1
     let b := reportBody t (wordAt c.words 2) (wordAt c.words 3)
     let v := packBits [(b, 0), (Config.rsaSign t.freeCtr b % 2 ^ 3072, 8 * 424), (Config.slhSign t.freeCtr b % 2 ^ (8 * 16224), 8 * 808)]
     Accepts 0x65 c s →
     gorseUp t = true ∧ cpReach pa 17032 = true ∧ cpWriteCode oc pa 17032 t = 0 →
     exec (.attest c) s = .next (left s (endCmd oc (endDone 0 0) (cpWritePa pa 17032 v (drawn t))))) ∧
    (let n := freshVal t % 2 ^ 256
     Accepts 0x66 c s →
     wordBits c.words 1 0 0 = 0 →
     gorseUp t = true ∧ jobExists t = false →
     exec (.debugUnlockNonce c) s = .next (left s (endCmd oc (endDone (bitsOf n 63 0) (bitsOf n 127 64)) { drawn t with sec.nonce := some n }))) ∧
    (let pa := wordAt c.words 2
     let r := cpReadPa pa tokenBytes t
     let u := r.2.2
     let slot := Config.extendSlot (u.sec.slots.getD 7 0) (sha384 (leBytes tokenBytes r.1))
     let open_ := { u with sec.nonce := none, sec.slots := u.sec.slots.set 7 slot }
     Accepts 0x66 c s →
     wordBits c.words 1 0 0 = 1 →
     gorseUp t = true ∧ jobExists t = false ∧ cpReach pa tokenBytes = true →
     (cpReadCode oc pa tokenBytes t).1 = 0 →
     r.2.1 = false →
     exec (.debugUnlockSubmit c) s = .next (left s (if tokenOk u r.1 then endCmd oc (endDone 0 0) (setF ddStatusDebugLocked 0 0 open_) else endCmd oc (endRefused 0x0714) u)))

/-- R423, R424, R430–R432, R434, R435, R437: what accepted commands of the tensor fabric do. PART_CREATE, SPARE_SWAP, COLL
and PATTERN run until the other members have answered; PORT_CTRL runs until the port has trained or tested its lane. -/
def Obligations.FabricCommands : Prop :=
  ∀ (s : State) (c : Cmd), 
    let t := startedAt c s
    let oc := openOf c s
    (let p := askedPart c.words t
     let u := setFences (setPos (some p) { t with fab.part := some p })
     Accepts 0x70 c s →
     partBad c.words t = false ∧ flagSet t tfPosStrapValid 0 = true →
     exec (.partCreate c) s = .next (left s (enterBarrier oc.id p.id (membersOf p (some (sparePlane t))) u))) ∧
    (Accepts 0x71 c s →
     exec (.partDestroy c) s = .next (left s (endCmd oc (endDone 0 0) (partDestroy t)))) ∧
    (∀ (p : Partition),
     let f := wordBits c.words 1 3 0
     Accepts 0x72 c s →
     t.fab.part = some p →
     p.whole = true ∧ f ≠ sparePlane t ∧ p.planeOf.contains f = true ∧ flagSet t tfPosPartUp 0 = true ∧ t.fab.barrier = none →
     ownPlane t ≠ f →
     exec (.spareSwap c) s = .next (left s (enterBarrier oc.id p.id (membersOf (swappedPart f p t) none) (swapPlanes f p t)))) ∧
    (∀ (p : Partition),
     let f := wordBits c.words 1 3 0
     Accepts 0x72 c s →
     t.fab.part = some p →
     p.whole = true ∧ f ≠ sparePlane t ∧ p.planeOf.contains f = true ∧ flagSet t tfPosPartUp 0 = true ∧ t.fab.barrier = none →
     ownPlane t = f →
     exec (.spareSwap c) s = .next (left s (endCmd oc (endDone 0 0) (fenceAll (swapPlanes f p t))))) ∧
    (∀ (p : Partition),
     let f := wordBits c.words 1 3 0
     Accepts 0x72 c s →
     t.fab.part = some p →
     p.whole = true ∧ f ≠ sparePlane t ∧ p.planeOf.contains f = true ∧ flagSet t tfPosPartUp 0 = true ∧ t.fab.barrier ≠ none →
     exec (.spareSwap c) s = .next (left s (notYet oc.id t))) ∧
    (let p := wordBits c.words 1 3 0
     Accepts 0x73 c s →
     wordBits c.words 1 5 4 = 0 ∧ (fabPort t p).cmd = none →
     flagSet t tfPortStatusDisabled p = false →
     exec (.portCtrlRetrain c) s = .next (left s (fabPortMod p (fun x => { x with cmd := some oc.id }) (portFalls p t)))) ∧
    (let p := wordBits c.words 1 3 0
     Accepts 0x73 c s →
     wordBits c.words 1 5 4 = 1 ∧ (fabPort t p).cmd = none →
     exec (.portCtrlDisable c) s = .next (left s (endCmd oc (endDone 0 0) (setF tfPortStatusFenced p 1 (setF tfPortStatusDisabled p 1 (portFalls p t)))))) ∧
    (let p := wordBits c.words 1 3 0
     Accepts 0x73 c s →
     wordBits c.words 1 5 4 = 2 ∧ (fabPort t p).cmd = none →
     exec (.portCtrlEnable c) s = .next (left s (fabPortMod p (fun x => { x with cmd := some oc.id, bad := 0 }) (setF tfPortStatusDisabled p 0 t)))) ∧
    (let p := wordBits c.words 1 3 0
     Accepts 0x73 c s →
     wordBits c.words 1 5 4 = 3 ∧ (fabPort t p).cmd = none →
     portUp t p = true →
     exec (.portCtrlLaneTest c) s = .next (left s ((List.range 10).foldl (fun u l => laneError p l u) (fabPortMod p (fun x => { x with cmd := some oc.id }) t)))) ∧
    (∀ (i : Instr),
     let p := wordBits c.words 1 3 0
     (wordBits c.words 1 5 4, i) ∈ [(0, Instr.portCtrlRetrain c), (1, .portCtrlDisable c), (2, .portCtrlEnable c), (3, .portCtrlLaneTest c)] →
     Accepts 0x73 c s →
     (fabPort t p).cmd.isSome = true →
     exec i s = .next (left s (notYet oc.id t))) ∧
    (∀ (i : Instr) (src dst : List (Nat × Nat × Nat)) (u v : State),
     let w := wordAt c.words 4
     let r := getF t tfPosRank 0
     let g := groupRanks w ((t.fab.part.map (·.planes)).getD 1) r
     let sizes := collSizes w (wordAt c.words 3) g.length r
     let a : XAcc := { unit := 8, agent := 2, va := wordAt c.words 1, r := true, who := .cmd oc.id }
     (clOp w, i) ∈ [(0, Instr.collAllReduce c), (1, .collReduceScatter c), (2, .collAllGather c), (3, .collBroadcast c), (4, .collBarrier c)] →
     Accepts 0x74 c s (ownRecord c.door c.words) collGate →
     collBad c.words t = false ∧ rankOk t r = true →
     readOrCode (some oc.epoch) (translateRange a sizes.1 t) = (.runs src, u) →
     runsOrCode (some oc.epoch) (translateRange { a with va := wordAt c.words 2, r := false, w := true } sizes.2 u) = (.runs dst, v) →
     exec i s = .next (left s (collEnter oc src dst v))) ∧
    (let p := wordBits c.words 1 3 0
     Accepts 0x75 c s →
     flagSet t tfPortStatusFenced p = true ∧ portInPart t p = false ∧ (fabPort t p).pattern = none →
     exec (.pattern c) s = .next (left s (fabPortMod p (fun x => { x with pattern := some oc.id }) t))) ∧
    (let p := wordBits c.words 1 3 0
     Accepts 0x75 c s →
     portInPart t p = false ∧ (fabPort t p).pattern.isSome = true →
     exec (.pattern c) s = .next (left s (notYet oc.id t)))

/-- R442, R446, R448, R452–R454: what accepted commands of the ordinary network do. NET_POST, IMAGE_FETCH, XGROUP_OPEN and
XCOLL run until the other side has answered. -/
def Obligations.NetworkCommands : Prop :=
  ∀ (s : State) (c : Cmd), 
    let t := startedAt c s
    let oc := openOf c s
    (let mtu := wordBits c.words 5 13 0
     let p : EthPort := { ip := wordAt c.words 2 + wordAt c.words 3 * 2 ^ 64, ip4 := wordBits c.words 4 31 0, mtu := mtu }
     Accepts 0x78 c s →
     mtu ≠ 0 ∧ mtu ≤ 9216 →
     exec (.netConfig c) s = .next (left s (endCmd oc (endDone 0 0) { t with net.ports := tput t.net.ports (wordBits c.words 1 1 0) p }))) ∧
    (let w := wordAt c.words 1
     let p := bitsOf w 13 12
     let q : QPair := { port := p, now := p, hostClass := w.testBit 14, failover := w.testBit 15, en := w.testBit 16, peer := wordAt c.words 2 + wordAt c.words 3 * 2 ^ 64, peerQp := wordBits c.words 4 23 0, key := wordBits c.words 4 63 32 }
     Accepts 0x79 c s →
     w.testBit 16 = false ∨ (ethPort t p).mtu ≠ 0 →
     exec (.qpConfig c) s = .next (left s (endCmd oc (endDone 0 0) (failoverBits { t with net.qps := tput t.net.qps (bitsOf w 11 0) q })))) ∧
    (∀ (p : Nat),
     let q := wordBits c.words 1 11 0
     let len := wordAt c.words 4
     let u := failoverBits (qpMod q (fun x => { x with now := p }) t)
     let post : NetPost := { cmd := oc.id, qp := q, kind := 0, va := wordAt c.words 2, len := len }
     let m := netSend (.rdmaRead q (wordAt c.words 3) len) u
     Accepts 0x7A c s →
     wordBits c.words 1 17 16 = 0 →
     (qpGet t q).en = true →
     qpPath t q = some p →
     exec (.netPostRdmaRead c) s = .next (left s { m with net.posts := m.net.posts ++ [post] })) ∧
    (∀ (p : Nat) (rs : List (Nat × Nat × Nat)) (u : State),
     let q := wordBits c.words 1 11 0
     let len := wordAt c.words 4
     let on := failoverBits (qpMod q (fun x => { x with now := p }) t)
     let a : XAcc := { unit := unitOfEth p, agent := 6, va := wordAt c.words 2, r := true }
     let d := ioRead (unitOfEth p) rs u
     let post : NetPost := { cmd := oc.id, qp := q, kind := 1, va := wordAt c.words 2, len := len }
     let m := netSend (.rdmaWrite q (wordAt c.words 3) len d.1) d.2.2
     Accepts 0x7A c s →
     wordBits c.words 1 17 16 = 1 →
     (qpGet t q).en = true →
     qpPath t q = some p →
     readOrCode (some oc.epoch) (translateRange a len on) = (.runs rs, u) →
     d.2.1 = false →
     exec (.netPostRdmaWrite c) s = .next (left s { m with net.posts := m.net.posts ++ [post] })) ∧
    (∀ (p : Nat) (rs : List (Nat × Nat × Nat)) (u : State),
     let q := wordBits c.words 1 11 0
     let len := wordAt c.words 4
     let on := failoverBits (qpMod q (fun x => { x with now := p }) t)
     let a : XAcc := { unit := unitOfEth p, agent := 6, va := wordAt c.words 2, r := true }
     let d := ioRead (unitOfEth p) rs u
     let post : NetPost := { cmd := oc.id, qp := q, kind := 2, va := wordAt c.words 2, len := len }
     let m := netSend (.send q len d.1) d.2.2
     Accepts 0x7A c s →
     wordBits c.words 1 17 16 = 2 →
     (qpGet t q).en = true →
     qpPath t q = some p →
     readOrCode (some oc.epoch) (translateRange a len on) = (.runs rs, u) →
     d.2.1 = false →
     exec (.netPostSend c) s = .next (left s { m with net.posts := m.net.posts ++ [post] })) ∧
    (Accepts 0x7B c s →
     wordBits c.words 1 1 0 = 1 →
     t.net.fetch = none →
     exec (.imageFetch c) s = .next (left s (netSend (manifestRead c.words) { t with net.fetch := some { cmd := oc.id, words := c.words } }))) ∧
    (∀ (rs : List (Nat × Nat × Nat)) (u : State),
     let len := wordAt c.words 2
     let d := ioRead 8 rs u
     let r := fetchGo (leBytes len d.1) oc d.2.2
     Accepts 0x7B c s →
     wordBits c.words 1 1 0 = 0 →
     t.net.fetch = none →
     readOrCode (some oc.epoch) (translateRange (cpAccess (wordAt c.words 4) true false) len t) = (.runs rs, u) →
     d.2.1 = false →
     exec (.imageFetch c) s = .next (left s (match r with | (some code, w) => endCmd oc (endRefused code) w | (none, w) => w))) ∧
    (∀ (rs : List (Nat × Nat × Nat)) (u : State),
     let n := wordBits c.words 2 6 0
     let d := ioRead 8 rs u
     Accepts 0x7C c s →
     n ≠ 0 ∧ n ≤ 64 ∧ wordBits c.words 2 13 8 < n →
     (tget t.net.groups (wordBits c.words 1 31 0)).any (fun x => x.cmd.isSome) = false →
     readOrCode (some oc.epoch) (translateRange (cpAccess (wordAt c.words 3) true false) (16 * n) t) = (.runs rs, u) →
     d.2.1 = false →
     exec (.xgroupOpen c) s = .next (left s (groupOpened oc d.1 d.2.2))) ∧
    (let n := wordBits c.words 2 6 0
     Accepts 0x7C c s →
     n ≠ 0 ∧ n ≤ 64 ∧ wordBits c.words 2 13 8 < n →
     (tget t.net.groups (wordBits c.words 1 31 0)).any (fun x => x.cmd.isSome) = true →
     exec (.xgroupOpen c) s = .next (left s (notYet oc.id t))) ∧
    (∀ (i : Instr) (x : NetGroup) (src dst : List (Nat × Nat × Nat)) (u v : State),
     let w := wordAt c.words 5
     let sizes := collSizes w (wordAt c.words 4) x.members.length x.own
     let a : XAcc := { unit := 8, agent := 6, va := wordAt c.words 2, r := true }
     (clOp w, i) ∈ [(0, Instr.xcollAllReduce c), (1, .xcollReduceScatter c), (2, .xcollAllGather c), (3, .xcollBroadcast c), (4, .xcollBarrier c)] →
     Accepts 0x7D c s →
     tget t.net.groups (wordBits c.words 1 31 0) = some x →
     xcollBad c.words x = false →
     readOrCode (some oc.epoch) (translateRange a sizes.1 t) = (.runs src, u) →
     runsOrCode (some oc.epoch) (translateRange { a with va := wordAt c.words 3, r := false, w := true } sizes.2 u) = (.runs dst, v) →
     runsPoison src v = [] →
     exec i s = .next (left s (xcollEnter oc x src dst v)))

/-- R490, R496, R501, R514, R544, R548: what accepted commands of power, errors and service do. SELF_TEST, a withdrawal and
QUIESCE run on; the others complete with STATUS 0. -/
def Obligations.ServiceCommands : Prop :=
  ∀ (s : State) (c : Cmd), 
    let t := startedAt c s
    let oc := openOf c s
    (let w := wordBits c.words 1 15 0
     let u := setF pwCtrlLearn 0 (wordBits c.words 1 24 24) (setF pwCtrlGateIdleUs 0 (wordBits c.words 1 23 16) (setF pwCtrlCapW 0 w t))
     Accepts 0x80 c s →
     1500 ≤ w ∧ w ≤ 4200 →
     exec (.capSet c) s = .next (left s (endCmd oc (endDone (regRead u .pwCtrl 0) 0) u))) ∧
    (∀ (rs : List (Nat × Nat × Nat)) (u : State),
     Accepts 0x81 c s →
     translateRange (cpAccess (wordAt c.words 1) false true) 1024 t = (.runs rs, u) →
     hostCode (some oc.epoch) rs u = 0 →
     exec (.phaseRead c) s = .next (left s (endCmd oc (endDone (phasesValid u) 0) (ioPut 8 rs (phaseTable u) false u)))) ∧
    (∀ (x : Nat),
     let r := cpRead oc.epoch (wordAt c.words 1) 1024 0x0602 t
     let entry := fun (n : Nat) => (x >>> (128 * n)) % 2 ^ 128
     let u := (List.range 64).foldl (fun u n => phasePut n (entry n) u) r.2
     Accepts 0x82 c s →
     r.1.toOption = some x →
     (List.range 64).any (fun n => phaseBad (entry n)) = false →
     exec (.phaseLoad c) s = .next (left s (endCmd oc (endDone (phasesValid u) 0) u))) ∧
    (Accepts 0x83 c s →
     exec (.pwRead c) s = .next (left s (endCmd oc (endDone (packBits [(getF t pwStatusInputW 0, 0), (t.pw.meadowsW % 65536, 16), (t.pw.hayloftW % 65536, 32), (t.pw.hostsW % 65536, 48)]) (cpTime t)) t))) ∧
    (let pa := wordAt c.words 1
     let rs := logPicked t (wordBits c.words 2 15 0) (wordBits c.words 2 31 16)
     let n := 32 * rs.length
     Accepts 0x88 c s →
     t.err.logCount ≠ 0 →
     (n ≠ 0 → cpReach pa n = true ∧ cpWriteCode oc pa n t = 0) →
     exec (.errLogRead c) s = .next (left s (endCmd oc (endDone rs.length ((t.err.logCount - 1) % 4096)) (logMarked rs (cpWritePa pa n (logBytes rs) t))))) ∧
    (let w := wordAt c.words 1
     let test := (oc.id, teLevel w, teUnit w, teSub w)
     Accepts 0x89 c s →
     unitExists (teLevel w) (teUnit w) = true ∧ unitOut t (teLevel w) (teUnit w) = false →
     teLevel w ≠ lvPackage →
     exec (.selfTest c) s = .next (left s { t with err.selfTests := t.err.selfTests ++ [test] })) ∧
    (let w := wordAt c.words 1
     let p := teUnit w - 0x180
     let test := (oc.id, lvPackage, teUnit w, teSub w)
     Accepts 0x89 c s →
     unitOut t lvPackage (teUnit w) = false →
     teLevel w = lvPackage ∧ 0x180 ≤ teUnit w ∧ teUnit w ≤ 0x18F ∧ flagSet t tfPortStatusFenced p = true →
     exec (.selfTest c) s = .next (left s { t with err.selfTests := t.err.selfTests ++ [test] })) ∧
    (let w := wordAt c.words 1
     Accepts 0x8A c s →
     wordBits c.words 1 2 2 = 0 ∧ w.testBit 2 = false →
     unitExists (teLevel w) (teUnit w) = true ∧ unitOut t (teLevel w) (teUnit w) = false →
     exec (.unitCtrlWithdraw c) s = .next (left s (drainCheck { t with err.drains := t.err.drains ++ [(oc.id, teLevel w, teUnit w)] }))) ∧
    (∀ (o : OutUnit),
     let w := wordAt c.words 1
     let mine := fun (o : OutUnit) => o.level == teLevel w && o.unit == teUnit w
     let u := { t with err.out := t.err.out.filter (fun o => !mine o) }
     Accepts 0x8A c s →
     wordBits c.words 1 2 2 = 1 ∧ w.testBit 2 = true →
     unitExists (teLevel w) (teUnit w) = true →
     t.err.out.find? mine = some o →
     o.software = true →
     exec (.unitCtrlReturn c) s = .next (left s (endCmd oc (endDone 0 0) (if teLevel w = lvTuft then setF tuftCeilState (teUnit w) 1 u else u)))) ∧
    (∀ (cls : Nat),
     let w := wordAt c.words 1
     let reason := wordBits c.words 2 15 0
     let e : ErrRec := { level := teLevel w, unit := teUnit w, subunit := teSub w, reason := reason, cls := cls, injected := true }
     Accepts 0x8B c s →
     injectable reason = some (teLevel w, cls) →
     flagSet t ddStatusDebugLocked 0 = false →
     unitExists (teLevel w) (teUnit w) = true ∧ unitOut t (teLevel w) (teUnit w) = false →
     injectUnitOk reason (teUnit w) (teSub w) = true →
     exec (.errInject c) s = .next (left s (endCmd oc (endDone t.err.nextId 0) (injectEffect reason (teUnit w) (teSub w) (pendErr e t))))) ∧
    (let u := quiesceBegins { t with mg.quiesce := some oc.id, mg.forced := false }
     Accepts 0x90 c s →
     wordBits c.words 1 0 0 = 0 →
     t.start.due = none →
     exec (.quiesce c) s = .next (left s u)) ∧
    (Accepts 0x90 c s →
     wordBits c.words 1 0 0 = 1 →
     getF t mgStatusPanel 0 = 1 →
     exec (.quiesceDeny c) s = .next (left s (endCmd oc (endDone 0 0) (setPanel 0 t))))

/-- R374, R376, R377, R389, R393, R511: a queue's head that passes its check becomes an open command and the head moves on; a
request of a Lark slot is taken and started; one that fails its check is read again up to 8 times. A restart clears READY
and writes 0x0A55; its end sets CP_RESTART and READY and fails what had begun. -/
def Obligations.DoorsAndRestart : Prop :=
  ∀ (s : State), Powered s → 
    (∀ (host ws : List W64) (q n : Nat),
     let t := headReads (q % 256) host s
     let door := Door.sq (Fin.ofNat 256 q)
     let u := setF sqStateHead (q % 256) (getF t sqStateHead (q % 256) + n) { t with ob.lastSq := tput t.ob.lastSq (getF t sqStatePrio (q % 256)) (q % 256) }
     flagSet s obStatusReady 0 = true ∧ larkWaits s = none →
     nextQueue s host = some q →
     readHead t (q % 256) host = .cmd n false ws →
     limitsReached door ws t = false ∧ recordsLack door ws t = false →
     (cmdShape (cmdOpcode ws)).isSome = true →
     exec (.sqEntryFetch host) s = .next (left s (takeCmd door ws (reservesOf door ws t) u).2)) ∧
    (∀ (k : Nat),
     flagSet s obStatusReady 0 = true →
     larkWaits s = some k →
     larkPasses (larkGet s k) = true →
     exec .larkGo s = .next (left s (larkTake (Fin.ofNat 64 k) s))) ∧
    (∀ (k : Nat),
     flagSet s obStatusReady 0 = true →
     larkWaits s = some k →
     larkPasses (larkGet s k) = false →
     exec .larkGo s = .next (left s (larkPut k { larkGet s k with rereads := 8 } s))) ∧
    (∀ (q : Fin 256) (host : List W64) (v : Nat),
     let k := tgetD s.ob.sq q.val {}
     let t := entryRead q.val (if k.counted then s else bump hlCountsRereads 0 1 s) k.entry
     let again : SubQ := { k with rereads := 0, entry := 0, counted := false }
     flagSet s obStatusReady 0 = true →
     k.rereads ≠ 0 →
     ringEntry s q.val k.entry host = some v →
     exec (.entryReread (.sq q) host) s = .next (left s (takeHead q host (setF sqStateState q.val 1 { t with ob.sq := tput t.ob.sq q.val again })))) ∧
    (∀ (k : Fin 64) (host : List W64),
     let l := larkGet s k.val
     flagSet s obStatusReady 0 = true →
     l.busy = true ∧ l.taken = false ∧ l.rereads ≠ 0 →
     larkPasses l = true →
     exec (.entryReread (.lark k) host) s = .next (left s (larkTake k (if l.rereads = 8 then bump hlCountsRereads 0 1 s else s)))) ∧
    (∀ (q : Fin 256) (host : List W64),
     let k := tgetD s.ob.sq q.val {}
     let t := entryRead q.val (if k.counted then s else bump hlCountsRereads 0 1 s) k.entry
     flagSet s obStatusReady 0 = true →
     1 < k.rereads →
     ringEntry s q.val k.entry host = none →
     exec (.entryReread (.sq q) host) s = .next (left s { t with ob.sq := tput t.ob.sq q.val { k with rereads := k.rereads - 1, counted := true } })) ∧
    (∀ (i : Instr),
     let e : ErrRec := { level := lvPackage, unit := 0x001A, reason := 0x0A55, cls := 0x09, verdict := vTransient }
     let t := { setF obStatusReady 0 0 s with ob.restarting := true, ob.lastRestart := some (cpTime s) }
     i ∈ [.cpFault, .cpWatchdogExpire] →
     DieRuns s 26 →
     s.ob.restarting = false ∧ flagSet s obStatusReady 0 = true →
     s.ob.lastRestart.all (fun t => 1000000000 ≤ cpTime s - t) = true →
     exec i s = .next (left s (writeErr e none t))) ∧
    (∀ (i : Instr) (last : Nat),
     let e : ErrRec := { level := lvPackage, unit := 0x001A, reason := 0x0A55, cls := 0x09, verdict := vTransient }
     let t := { setF obStatusReady 0 0 s with ob.restarting := true, ob.lastRestart := some (cpTime s) }
     i ∈ [.cpFault, .cpWatchdogExpire] →
     DieRuns s 26 →
     s.ob.restarting = false ∧ flagSet s obStatusReady 0 = true →
     s.ob.lastRestart = some last →
     cpTime s - last < 1000000000 →
     exec i s = .next (left s (packageStops 1 7 (writeErr e none t)))) ∧
    (let t := match s.xl.inval with | some r => if r.cmd.isSome then { s with xl.inval := some { r with await := unitsUp s } } else s | none => s
     let u := prefetchStops (endFailed 0x0A55 0) t
     let ids := (u.ob.openCmds.filter (fun o => !outlives s o)).map (·.id)
     let v := ids.foldl (fun t i => endById i (endFailed 0x0A55 0) t) (forgetCmds ids u)
     DieRuns s 26 →
     s.ob.restarting = true ∧ s.start.due = none →
     exec .cpRestartDone s = .next (left s (raise flReStatusCpRestart 0 (setF obStatusReady 0 1 { v with ob.restarting := false }))))

/-- R359, R378–R381, R383, R387: events of the host link's controller. -/
def Obligations.HostLinkEvents : Prop :=
  ∀ (s : State), LinkRuns s → 
    (∀ (speed : Fin 7) (width : Fin 17),
     flagSet s hlStatusLinkUp 0 = false →
     speed.val ≠ 0 ∧ speed.val ≤ capSpeed s ∧ widthOk width.val = true →
     exec (.hostLinkUp speed width) s = .next (left s (msixFlush (retryHeld (linkRuns speed width (setF hlStatusLinkUp 0 1 s)))))) ∧
    (∀ (speed : Fin 7) (width : Fin 17),
     flagSet s hlStatusLinkUp 0 = true →
     speed.val ≠ 0 ∧ speed.val ≤ capSpeed s ∧ widthOk width.val = true →
     exec (.hostLinkRetrain speed width) s = .next (left s (linkRuns speed width (bump hlCountsRetrains 0 1 s)))) ∧
    (∀ (fullReset : Bool),
     let d := raise flHlStatusHostLost 0 (bump hlStatusLinkEpoch 0 1 { setF hlStatusSpeed 0 0 (setF hlStatusWidth 0 0 (setF hlStatusLinkUp 0 0 s)) with link.heldOut := [] })
     let used := (d.copies.recs.filter (copyUsesHost d)).map (·.id)
     let a := homesLinkLost ((d.link.reads.map (·.1)).foldl (fun t tag => readReturns tag (0, true) 0x0830 t) d)
     let b := prefetchStops (endFailed 0x0217 0) (used.foldl (fun t i => copyEnds i 0x0830 t) a)
     let c := netHostLost (stilesHostLost (collsFail (fun c => (c.src ++ c.dst).any (fun r => isHostWin r.2.1 r.2.2)) 0x0830 b))
     let t := stopHostRings c
     flagSet s hlStatusLinkUp 0 = true →
     dieUp s 26 = true →
     exec (.hostLinkLoss fullReset) s = .next (leftEvent s
       (if fullReset then setF hlStatusBme 0 0 { t with link.msixEn := false, link.msix := [], link.pba := [], link.dState := 0, link.fn := {}, link.rpCfg := [] } else t))) ∧
    (∀ (tag val : Nat),
     tget s.link.reads tag ≠ none →
     exec (.outboundReadCompletion tag val false) s = .next (left s (readReturns tag (val, false) 0 s))) ∧
    (∀ (tag val : Nat),
     tget s.link.reads tag ≠ none →
     exec (.outboundReadCompletion tag val true) s = .next (left s (readReturns tag (0, true) 0x0820 (raise flHlStatusPeerRefused 0 s)))) ∧
    (∀ (tag : Nat),
     tget s.link.reads tag ≠ none →
     exec (.completionTimeout tag) s = .next (left s (readReturns tag (0, true) 0x0821 (raise flHlStatusCplTimeout 0 s)))) ∧
    (∀ (v : Fin 256),
     selfHosted s = false →
     exec (.msixUnmask (.vector v)) s = .next (left s (msixFlush { s with link.msix := tmod s.link.msix v.val {} (fun e => { e with masked := false }) }))) ∧
    (selfHosted s = false →
     exec (.msixUnmask .enable) s = .next (left s (msixFlush (retryHeld { s with link.msixEn := true })))) ∧
    (selfHosted s = false →
     exec (.msixUnmask .busMaster) s = .next (left s (msixFlush (retryHeld (setF hlStatusBme 0 1 s))))) ∧
    (selfHosted s = false ∧ flagSet s hlStatusLinkUp 0 = true →
     exec (.powerStateChange true) s = .next (left s { s with link.dState := 3 })) ∧
    (let t := { s with link.dState := 0, hostOut := s.link.heldOut ++ s.hostOut, link.heldOut := [] }
     selfHosted s = false ∧ flagSet s hlStatusLinkUp 0 = true →
     exec (.powerStateChange false) s = .next (left s (msixFlush (retryHeld t))))

/-- R363–R368, R372, R376, R377, R396, R405, R409: accesses through the host link, and of cores to the Obiolo region and to
configuration space. -/
def Obligations.HostAccesses : Prop :=
  ∀ (s : State), LinkRuns s → 
    (∀ (q : Fin 256) (word : W32),
     let tail := word.toNat % 65536
     let k := tgetD s.ob.sq q.val {}
     barOpen s = true →
     getF s sqStateState q.val ≠ 0 →
     (tail + 65536 - getF s sqStateHead q.val) % 65536 ≤ 2 ^ getF s sqStateDepthLog2 q.val →
     tail ≠ getF s sqStateTail q.val →
     k.gone = false ∧ k.rereads = 0 →
     exec (.doorbell q word) s = .next (left s (setF sqStateTail q.val tail { s with ob.sq := tput s.ob.sq q.val k }))) ∧
    (∀ (q : Fin 256) (word : W32),
     barOpen s = true →
     getF s sqStateState q.val = 0 →
     exec (.doorbell q word) s = .next (left s (linkErr 0x0811 (raise flHlStatusDbErr 0 s)))) ∧
    (∀ (slot : Fin 64) (off : Fin 32) (words : List W64),
     let l := larkGet s slot.val
     let req := (List.range words.length).foldl (fun r i => withBits r (64 * (off.val + i) + 63) (64 * (off.val + i)) ((words.map (·.toNat)).getD i 0)) l.req
     let go := { l with req := req, ans := withBits l.ans 1984 1984 0, busy := true }
     barOpen s = true →
     words ≠ [] ∧ off.val + words.length ≤ 32 →
     l.busy = false →
     exec (.larkRequestWrite slot off words) s = .next (left s (larkPut slot.val (if req.testBit 1984 then { req := req, ans := withBits l.ans 1984 1984 0, busy := true } else { l with req := req }) s))) ∧
    (∀ (slot : Fin 64) (off : Fin 32) (words : List W64),
     barOpen s = true →
     words ≠ [] ∧ off.val + words.length ≤ 32 →
     (larkGet s slot.val).busy = true →
     exec (.larkRequestWrite slot off words) s = .next (left s (linkErr 0x0814 (raise flHlStatusLarkOvw 0 s)))) ∧
    (∀ (off : BitVec 41) (len val : Nat) (poisoned : Bool),
     selfHosted s = false ∧ barOpen s = true →
     isDevMem off.toNat len = true ∧ inBiasTable s off.toNat len = false →
     exec (.bar2Access off true len val poisoned) s = .next (left s (ioWrite off.toNat len val poisoned s))) ∧
    (∀ (off : BitVec 41) (len val : Nat) (poisoned : Bool),
     let t := rangeAccess .ncrd 10 off.toNat len (writesSettle s)
     let m := HostMsg.completion len (readNum t off.toNat len) (physPoison t off.toNat len)
     selfHosted s = false ∧ barOpen s = true →
     isDevMem off.toNat len = true ∧ inBiasTable s off.toNat len = false →
     exec (.bar2Access off false len val poisoned) s = .next (left s { t with hostOut := m :: t.hostOut })) ∧
    (∀ (off : BitVec 41) (len val : Nat) (poisoned : Bool),
     let t := tableRefused off.toNat s
     selfHosted s = false ∧ barOpen s = true →
     inBiasTable s off.toNat len = true →
     exec (.bar2Access off true len val poisoned) s = .next (left s t) ∧
       exec (.bar2Access off false len val poisoned) s = .next (left s { t with hostOut := .completion len 0 true :: t.hostOut })) ∧
    (∀ (fn : Fin 256) (off : Fin 1024) (v : W32) (reply : Option W32),
     selfHosted s = true →
     fn = 0 ∧ rpFixed off.val = false →
     exec (.ecamAccess 0 fn off (some v) reply) s = .next (left s { s with link.rpCfg := tput s.link.rpCfg off.val (v.toNat % 2 ^ 32) })) ∧
    (∀ (bus : Fin 16) (fn : Fin 256) (off : Fin 1024) (v : W32) (reply : Option W32),
     selfHosted s = true ∧ flagSet s hlStatusLinkUp 0 = true →
     bus.val ≠ 0 →
     exec (.ecamAccess bus fn off (some v) reply) s = .next (left s (hostSend (.cfgWrite bus fn (4 * off) 4 v.toNat) s))) ∧
    (∀ (bus : Fin 16) (fn : Fin 256) (off : Fin 1024) (reply : Option W32),
     let t := { s with link.lastCfg := (reply.map (·.toNat)).getD low32 }
     selfHosted s = true ∧ flagSet s hlStatusLinkUp 0 = true →
     bus.val ≠ 0 →
     exec (.ecamAccess bus fn off none reply) s = .next (left s (hostSend (.cfgRead bus fn (4 * off)) t))) ∧
    (∀ (addr : W64) (len val : Nat) (poisoned : Bool),
     selfHosted s = true ∧ flagSet s hlStatusLinkUp 0 = true →
     inWindow s addr.toNat len = true →
     exec (.inboundDma addr true len val poisoned) s = .next (left s (ioWrite addr.toNat len val poisoned s))) ∧
    (∀ (addr : W64) (len val : Nat) (poisoned write : Bool),
     selfHosted s = true ∧ flagSet s hlStatusLinkUp 0 = true →
     inWindow s addr.toNat len = false ∧ isImsic addr.toNat len = false →
     exec (.inboundDma addr write len val poisoned) s = .next (left s (linkErr 0x0832 { s with hostOut := .unsupported :: s.hostOut }))) ∧
    (∀ (off : BitVec 26) (len : Nat) (val : W64),
     barOpen s = true →
     exec (.registerWrite off len val) s = .next (left s (barWrite off.toNat len val.toNat s))) ∧
    (∀ (q : Fin 64) (head : W16),
     barOpen s = true →
     pastTail 65536 head.toNat (getF s cqStateHead q.val) (getF s cqStateTail q.val) = false →
     exec (.cqHeadWrite q head) s = .next (left s (setF cqStateHead q.val head.toNat { s with ob.cq := tmod s.ob.cq q.val {} (fun k => { k with irqOut := false }) }))) ∧
    (∀ (head : W16),
     barOpen s = true →
     pastTail 65536 head.toNat (getF s eqStateHead 0) (getF s eqStateTail 0) = false →
     exec (.eqHeadWrite head) s = .next (left s (eqFlush 258 (setF eqStateHead 0 head.toNat { s with ob.eq := { s.ob.eq with irqOut := false } })))) ∧
    (∀ (head : BitVec 13),
     let t := setF atFqPtrHead 0 head.toNat { s with xl.irqOut := false, xl.ovfOut := false }
     barOpen s = true →
     pastTail 8192 head.toNat (getF s atFqPtrHead 0) (getF s atFqPtrTail 0) = false →
     exec (.fqHeadWrite head) s = .next (left s (fqDrain (t.xl.fqWait.length + 1) t))) ∧
    (∀ (head : W16),
     barOpen s = true →
     pastTail 65536 head.toNat (getF s eqStateHead 0) (getF s eqStateTail 0) = true →
     exec (.eqHeadWrite head) s = .next (left s (raise flObStatusHeadErr 0 s)))

/-- R414, R419, R423, R425, R427–R430, R434, R437: what the fabric's events do at a port, to the partition, to collectives
and to bursts. -/
def Obligations.FabricEvents : Prop :=
  ∀ (s : State), 
    (∀ (p : PortNo) (n : NbrIdent) (lanes : BitVec 10),
     let good := lanes.toNat &&& (1023 - (fabPort s p).bad)
     let t := fabPortMod p (fun x => { x with nbrPart := n.part.toNat, failed := false }) (sendHello p s)
     let u := setF tfPortStatusLanesUsed p (lowLanes good 8) (setF tfPortStatusWidth p 2 t)
     DieRuns s (26 + p / 8) →
     flagSet s tfPosStrapValid 0 = true ∧ inRecovery s = false ∧ flagSet s tfPortStatusDisabled p = false →
     8 ≤ popCount good 10 →
     n.heath.toNat = getF s tfPosHeathId 0 ∧ (n.plane.val, n.y.val, n.z.val) = neighbour s p ∧ n.spare.val = sparePlane s →
     u.fab.part = none →
     exec (.tensorLinkTrained p true n lanes) s = .next (left s (portCmdEnds p (resendBursts (setF tfPortStatusFenced p 1 u))))) ∧
    (∀ (p : PortNo),
     DieRuns s (26 + p / 8) →
     exec (.tensorLinkDown p) s = .next (left s (setF tfPortStatusFenced p 1 (portFalls p s)))) ∧
    (∀ (part : W16) (plane : Fin 9) (y z : Fin 4) (b : FabBarrier) (p : Partition),
     let got := setAdd b.got (memberCode plane y z)
     let t := learnPart part.toNat (memberCode plane y z) s
     Running s →
     p.id = part.toNat →
     t.fab.barrier = some b ∧ t.fab.part = some p →
     exec (.partitionBarrierMessage part plane y z) s = .next (left s (barrierCheck { t with fab.barrier := some { b with got := got } }))) ∧
    (∀ (b : FabBarrier),
     Running s →
     s.fab.barrier = some b →
     flagSet s tfPosPartUp 0 = false →
     exec .partBarrierTimeout s = .next (left s (endById b.cmd (endFailed 0x0306 0) (partEnds 0x0322 s)))) ∧
    (∀ (rank : Fin 128) (fields : List W64) (val : Nat) (poison : List Nat) (k : CollRun),
     let x : CollPart := { rank := rank, fields := fields.map (·.toNat), data := val, poison := poison }
     let c := { k with parts := k.parts ++ [x] }
     let all := s.fab.colls.map (fun y => if y.cmd == k.cmd then c else y)
     Running s →
     s.fab.lateColl.any (fun e => e.1 == clGroup (x.fields.getD 1 0) && e.2.contains x.rank) = false →
     s.fab.colls.find? (fun c => c.xgroup.isNone && clGroup (wordAt c.words 4) == clGroup (x.fields.getD 1 0) && !c.parts.any (fun p => p.rank == x.rank)) = some k →
     exec (.collFieldsMessage rank fields val poison) s = .next (left s (collCheck c { s with fab.colls := all }))) ∧
    (∀ (rank : Fin 128) (fields : List W64) (val : Nat) (poison : List Nat),
     let x : CollPart := { rank := rank, fields := fields.map (·.toNat), data := val, poison := poison }
     Running s →
     s.fab.lateColl.any (fun e => e.1 == clGroup (x.fields.getD 1 0) && e.2.contains x.rank) = false →
     s.fab.colls.find? (fun c => c.xgroup.isNone && clGroup (wordAt c.words 4) == clGroup (x.fields.getD 1 0) && !c.parts.any (fun p => p.rank == x.rank)) = none →
     exec (.collFieldsMessage rank fields val poison) s = .next (left s { s with fab.earlyColl := s.fab.earlyColl ++ [x] })) ∧
    (∀ (rank : Fin 128) (fields : List W64) (val : Nat) (poison : List Nat),
     let g := clGroup ((fields.map (·.toNat)).getD 1 0)
     Running s →
     s.fab.lateColl.any (fun e => e.1 == g && e.2.contains rank.val) = true →
     exec (.collFieldsMessage rank fields val poison) s = .next (left s { s with fab.lateColl := lateTaken g rank s.fab.lateColl })) ∧
    (∀ (p : PortNo) (lane : Fin 10) (errors bits id : Nat),
     DieRuns s (26 + p / 8) →
     (fabPort s p).pattern = some id →
     exec (.patternDone p lane errors bits) s = .next (left s (endById id (endDone (lane % 16 + errors % 2 ^ 56 * 256) bits) (fabPortMod p (fun x => { x with pattern := none }) s)))) ∧
    (∀ (u : UnitNo) (rank : Fin 128) (burst : Nat) (va : VA) (len val : Nat) (poisoned : List Nat) (rs : List (Nat × Nat × Nat)) (t : State),
     let r := { s with fab.seen := (rank.val, burst) :: s.fab.seen }
     let done := vput u.val rs val poisoned t
     DieRuns s (dieOfXunit u) ∧ 8 ≤ u.val →
     burstFenced s rank = false →
     s.fab.seen.contains (rank.val, burst) = false →
     vruns { unit := u, agent := 5, va := va.toNat } va.toNat len r = (.runs rs, t) →
     exec (.fabricBurstArrive u rank burst va len val poisoned) s = .next (left s { done with fabOut := .ack rank burst :: done.fabOut })) ∧
    (∀ (u : UnitNo) (rank : Fin 128) (burst : Nat) (va : VA) (len val : Nat) (poisoned : List Nat),
     DieRuns s (dieOfXunit u) ∧ 8 ≤ u.val →
     burstFenced s rank = false →
     s.fab.seen.contains (rank.val, burst) = true →
     exec (.fabricBurstArrive u rank burst va len val poisoned) s = .next (left s { s with fabOut := .ack rank burst :: s.fabOut })) ∧
    (∀ (rank : Fin 128) (burst : Nat),
     Running s →
     exec (.fabricBurstAck rank burst) s = .next (left s (forgetBursts (fun b => b == (rank.val, burst)) s))) ∧
    (∀ (p : PortNo),
     DieRuns s (26 + p / 8) →
     flagSet s tfPortStatusFenced p = true →
     exec (.fencedFlitArrive p) s = .next (left s (fabRec (0x180 + p) 0xFFFF 0x0331 0x04 vTransient 0 (raise flTfPortStatusFenceDrop p s)))) ∧
    (∀ (rank : Fin 128) (unreachable : Bool),
     let code := if unreachable then 0x0302 else 0x0303
     let t := fabRec 26 0xFFFF code 0x05 vTransient rank (raise flTfStatusPeerLost 0 (remoteFail (· == rank.val) code s))
     Running s →
     rankOk s rank = true →
     exec (.peerTimeout rank unreachable) s = .next (left s
       (collsFail (fun c => c.xgroup.isNone && (collGroup s c).contains rank.val && !c.parts.any (fun p => p.rank == rank.val)) 0x0322
       (forgetBursts (fun b => b.1 == rank.val) t)))) ∧
    (∀ (p : PortNo) (lane : Fin 10),
     DieRuns s (26 + p / 8) →
     portUp s p = true ∧ (getF s tfPortStatusLanesUsed p).testBit lane = true →
     (fabPort s p).testing ≠ some lane.val →
     exec (.tensorLaneError p lane) s = .next (left s (fabPortMod p (fun x => if x.testing.isNone then { x with testing := some lane.val } else { x with toTest := setAdd x.toTest lane.val }) s))) ∧
    (∀ (p : PortNo) (l : Nat),
     let t := bump reCountsTests 0 1 (fabPortMod p (fun x => { x with testing := none }) s)
     DieRuns s (26 + p / 8) →
     (fabPort s p).testing = some l →
     exec (.tensorLaneTestDone p false) s = .next (left s (let u := nextLane p (laneFails p l false t)
       if (fabPort u p).testing.isNone then portCmdEnds p u else u))) ∧
    (∀ (p : PortNo) (l : Nat),
     let t := bump reCountsTests 0 1 (fabPortMod p (fun x => { x with testing := none }) s)
     let place := (lvPackage, 26 + p.val / 8, p.val * 16 + l + 1, 0x05, (cpTime t : Int))
     DieRuns s (26 + p / 8) →
     (fabPort s p).testing = some l →
     recentTransients t lvPackage (26 + p / 8) (p * 16 + l + 1) 0x05 < 2 →
     exec (.tensorLaneTestDone p true) s = .next (left s (let u := nextLane p (bump reCountsTransient 0 1 { t with err.hist := place :: t.err.hist })
       if (fabPort u p).testing.isNone then portCmdEnds p u else u))) ∧
    (∀ (p : PortNo),
     DieRuns s (26 + p / 8) →
     portUp s p = true →
     exec (.tensorFlitReplay p) s = .next (left s (bump tfPortStatusReplays p 1 s)))

/-- R442–R444, R447–R450, R452, R453: what the network's events do to memory, to posts, to the fetch of an image and to
groups. -/
def Obligations.NetworkEvents : Prop :=
  ∀ (s : State), 
    (∀ (p : EthNo) (qp : Fin 4096) (va : VA) (len val : Nat) (rs : List (Nat × Nat × Nat)) (t : State),
     let a : XAcc := { unit := unitOfEth p, agent := 6, va := va.toNat, w := true }
     DieRuns s (26 + p / 2) ∧ (qpGet s qp).en = true →
     translateRange a len s = (.runs rs, t) →
     exec (.netMessageArrive p qp (.write va len val)) s = .next (left s (netSend (.ack qp) (ioPut (unitOfEth p) rs (val % 256 ^ len) false t)))) ∧
    (∀ (p : EthNo) (qp : Fin 4096) (va : VA) (len : Nat) (rs : List (Nat × Nat × Nat)) (t : State),
     let a : XAcc := { unit := unitOfEth p, agent := 6, va := va.toNat, r := true }
     let d := ioRead (unitOfEth p) rs t
     DieRuns s (26 + p / 2) ∧ (qpGet s qp).en = true →
     translateRange a len s = (.runs rs, t) →
     d.2.1 = false →
     exec (.netMessageArrive p qp (.read va len)) s = .next (left s (netSend (.readData qp len d.1) d.2.2))) ∧
    (∀ (p : EthNo) (qp : Fin 4096) (len val : Nat),
     DieRuns s (26 + p / 2) ∧ (qpGet s qp).en = true →
     exec (.netMessageArrive p qp (.send len val)) s = .next (left s (netSend (.ack qp) s))) ∧
    (∀ (p : EthNo) (qp : Fin 4096),
     DieRuns s (26 + p / 2) ∧ (qpGet s qp).en = true →
     exec (.netMessageArrive p qp .ack) s = .next (left s (postEnds qp (fun x => x.kind != 0) (endDone 0 0) s))) ∧
    (∀ (p : EthNo) (qp : Fin 4096),
     DieRuns s (26 + p / 2) ∧ (qpGet s qp).en = true →
     exec (.netMessageArrive p qp .refused) s = .next (left s (postEnds qp (fun _ => true) (endFailed 0x0208 0) s))) ∧
    (∀ (qp : Fin 4096),
     Running s →
     (qpGet s qp).en = true →
     exec (.ecnMarkReceived qp) s = .next (left s (netSend (.congestion qp) s))) ∧
    (∀ (qp : Fin 4096),
     Running s →
     (qpGet s qp).en = true →
     exec (.cnpReceived qp) s = .next (left s (bump netPortStatusCnpReceived (qpGet s qp).now 1 (qpMod qp (fun x => { x with lowered := x.lowered + 1 }) s)))) ∧
    (∀ (p : EthNo),
     let t := raise flNetPortStatusLinkDown p (setF netPortStatusState p 0 s)
     let moved := (t.net.qps.filter (fun e => e.2.en && e.2.now == p.val)).foldl (fun t e => match qpPath t e.1 with | some n => bump netPortStatusRetransmits n (t.net.posts.filter (fun x => x.qp == e.1)).length (qpMod e.1 (fun x => { x with now := n }) t) | none => postsFail e.1 0x0911 t) t
     DieRuns s (26 + p / 2) →
     getF s netPortStatusState p ≠ 0 →
     exec (.ethPortDown p) s = .next (left s (failoverBits moved))) ∧
    (∀ (p : EthNo),
     DieRuns s (26 + p / 2) →
     exec (.ethPortUp p) s = .next (left s (setF netPortStatusState p 2 s))) ∧
    (∀ (qp : Fin 4096),
     Running s →
     exec (.roceRetryExhausted qp) s = .next (left s (postsFail qp 0x0912 s))) ∧
    (∀ (bytes : List Byte) (f : Fetch) (oc : OpenCmd),
     let r := fetchGo (bytes.map (·.toNat)) oc { s with net.fetch := none }
     Running s →
     s.net.fetch = some f ∧ f.man = none →
     s.ob.openCmds.find? (fun o => o.id == f.cmd) = some oc →
     exec (.manifestArrive bytes) s = .next (left s (match r with | (some code, w) => endById oc.id (endRefused code) w | (none, w) => w))) ∧
    (∀ (src : ChunkFrom) (chunk : Fin 1048576) (bytes : List Byte) (f : Fetch) (m : Manifest) (rs : List (Nat × Nat × Nat)) (t : State),
     Running s →
     s.net.fetch = some f ∧ f.man = some m →
     chunkFrom src = f.parent ∧ f.asked.contains chunk.val = true →
     chunkGood m chunk bytes = true →
     runsOrCode (cmdEpoch s f.cmd) (translateRange (chunkAccess f m chunk) (chunkLen m chunk) s) = (.runs rs, t) →
     exec (.imageChunkArrive src chunk bytes) s = .next (left s (chunkLands f m chunk bytes rs t))) ∧
    (∀ (src : ChunkFrom) (chunk : Fin 1048576) (bytes : List Byte) (f : Fetch) (m : Manifest),
     Running s →
     s.net.fetch = some f ∧ f.man = some m →
     chunkFrom src = f.parent ∧ f.asked.contains chunk.val = true →
     chunkGood m chunk bytes = false →
     exec (.imageChunkArrive src chunk bytes) s = .next (left s (chunkFails f m chunk s))) ∧
    (∀ (node : Fin 4096) (chunk : Fin 1048576) (f : Fetch) (m : Manifest),
     Running s →
     s.net.fetch = some f ∧ f.man = some m →
     node.val < m.nodes.length ∧ chunk.val < m.hashes.length →
     f.kids.any (fun k => k.node == node.val) = true →
     exec (.chunkReadRequest node chunk) s = .next (left s (if chunk.val < f.front then serveChunk node chunk f m s else fetchMod (fun g => { g with held := g.held ++ [(node.val, chunk.val)] }) s))) ∧
    (∀ (node : Fin 4096) (count : Fin 1048576) (f : Fetch),
     Running s →
     s.net.fetch = some f →
     f.parent = some node.val →
     exec (.prefixMessage node count) s = .next (left s (askChunks (fetchMod (fun g => { g with limit := max g.limit count }) s)))) ∧
    (∀ (node : Fin 4096) (count : Fin 1048576) (f : Fetch),
     let heard := fun (k : FetchKid) => if k.node == node.val then { k with prog := max k.prog count } else k
     Running s →
     s.net.fetch = some f →
     f.parent ≠ some node.val →
     exec (.prefixMessage node count) s = .next (left s (fetchCheck (fetchMod (fun g => { g with kids := g.kids.map heard }) s)))) ∧
    (∀ (f : Fetch),
     Running s →
     s.net.fetch = some f →
     exec .prefixSendTimer s = .next (left s ((f.kids.filter (fun k => !k.gone)).foldl (fun t k => netSend (.progress k.node f.front) t) s))) ∧
    (∀ (f : Fetch) (m : Manifest) (p : Nat),
     let alt := (m.nodes[wordBits f.words 1 27 16]?.map (·.alt)).getD 0xFFFF
     let t := raise flNetStatusReparent 0 (notice 0x0920 p 26 s)
     let g := { f with failed := f.failed ++ [p], asked := [], again := [], limit := 0, reparents := f.reparents + 1 }
     Running s →
     s.net.fetch = some f ∧ f.man = some m ∧ f.parent = some p →
     alt ≠ 0xFFFF ∧ (f.failed ++ [p]).contains alt = false →
     exec .parentTimeout s = .next (left s (askChunks { t with net.fetch := some { g with parent := some alt } }))) ∧
    (∀ (node : Fin 4096),
     let gone := fun (k : FetchKid) => if k.node == node.val then { k with gone := true } else k
     Running s →
     exec (.childSilenceTimeout node) s = .next (left s (fetchCheck (fetchMod (fun g => { g with kids := g.kids.map gone }) s)))) ∧
    (∀ (group : W32) (member : Fin 64) (low high : Byte) (x : NetGroup),
     let hellos := (member.val, low.toNat, high.toNat) :: x.hellos.filter (fun h => h.1 != member.val)
     Running s →
     tget s.net.groups group.toNat = some x →
     x.cmd ≠ none →
     exec (.xgroupHello group member low high) s = .next (left s (groupCheck group.toNat { s with net.groups := tput s.net.groups group.toNat { x with hellos := hellos } }))) ∧
    (∀ (group : W32) (x : NetGroup) (id : Nat),
     Running s →
     tget s.net.groups group.toNat = some x →
     x.cmd = some id →
     exec (.xgroupOpenTimeout group) s = .next (left s (endById id (endFailed 0x0931 0) (raise flNetStatusXgroupFail 0 { s with net.groups := tdel s.net.groups group.toNat })))) ∧
    (∀ (group : W32) (member : Fin 64) (x : NetGroup),
     let hit := s.fab.colls.filter (fun c => c.xgroup == some group.toNat && !c.parts.any (fun p => p.rank == member.val))
     Running s →
     tget s.net.groups group.toNat = some x →
     exec (.xcollMemberTimeout group member) s = .next (left s (hit.foldl (fun t c =>
       collFails c 0x0932 (raise flNetStatusXgroupFail 0 (xcollLeaves c group.toNat x t))) s)))

/-- R38, R41, R303, R459, R463–R465, R469, R472: events of the package's timer, of Loam links, of optical rings, and of dies
that leave. -/
def Obligations.LoamAndRings : Prop :=
  ∀ (s : State), Powered s → 
    (let e : ErrRec := { level := lvPackage, unit := 26, reason := 0x0A10, cls := 0x0B, verdict := vLasting }
     flagSet s timerStatusLocked 0 = true →
     exec .pllLockLost s = .next (leftEvent s (writeErr e none (raise flTimerStatusBackupEvent 0 (setF timerStatusBackup 0 1 (setF timerStatusLocked 0 0 s)))))) ∧
    (∀ (d : DieNo) (drift : Int),
     let off := tgetD s.timer.skew d.val 0
     let t := { s with timer.slew := tput s.timer.slew d off, timer.drift := tput s.timer.drift d drift }
     dieUp s d = true ∧ d.val ≠ 26 →
     exec (.timerSync d drift) s = .next (leftEvent s (if 8 < off ∨ off < -8 then raise flTimerStatusSyncErr 0 t else t))) ∧
    (∀ (l : LinkNo) (ba : Bool) (frame : Nat) (src : DieNo),
     let x := loamLink s l
     let stamp := loamStampOf s src
     let held := loamMod l (fun y => { y with buf := y.buf ++ [(bit ba, frame, stamp)] }) s
     moduleRuns s = true →
     linkCarries s l = true ∧ x.move = none →
     x.buf.find? (fun e => e.1 == bit ba && e.2.1 == frame) = none ∧ (x.buf.filter (fun e => e.1 == bit ba)).length < 64 →
     exec (.loamFrameReceive l ba frame src true) s = .next (leftEvent s (loamStamp stamp (frameTo l ba) held))) ∧
    (∀ (l : LinkNo) (ba : Bool) (frame : Nat),
     moduleRuns s = true →
     exec (.loamFrameAck l ba frame) s = .next (leftEvent s (loamMod l (fun x => { x with buf := x.buf.filter (fun e => e.1 != bit ba || e.2.1 != frame) }) s))) ∧
    (∀ (l : LinkNo) (ba : Bool) (frame : Nat),
     moduleRuns s = true →
     (loamLink s l).buf.any (fun e => e.1 == bit ba && e.2.1 == frame) = true ∧ linkCarries s l = true →
     exec (.loamFrameReplay l ba frame) s = .next (leftEvent s (bump ddLinkStatusReplays l 1 s))) ∧
    (∀ (i : Instr) (l : LinkNo) (ba : Bool) (lane : Fin 136),
     let x := loamLink s l
     let k := laneKey ba lane
     let t := loamMod l (fun y => { y with tests := y.tests ++ [k], move := if y.optical then y.move else some true }) s
     let e : ErrRec := { level := lvPackage, unit := 28, subunit := l, reason := 0x0A01, cls := 0x05, detail := k }
     i ∈ [.loamLaneError l ba lane, .loamHandshakeTimeout l ba lane] →
     moduleRuns s = true →
     linkCarries s l = true ∧ x.degraded = false ∧ x.gone.contains k = false ∧ x.tests = [] ∧ x.move = none →
     exec i s = .next (leftEvent s (pendErr e (raise flDdLinkStatusLaneErr l (setF ddLinkStatusState l 1 t))))) ∧
    (∀ (l : LinkNo) (ba : Bool) (lane : Fin 136),
     let x := loamLink s l
     let k := laneKey ba lane
     let t := loamMod l (fun y => { y with tests := y.tests.drop 1 }) s
     moduleRuns s = true →
     x.tests.head? = some k ∧ x.optical = true ∧ x.move = none ∧ linkCarries s l = true →
     exec (.loamLaneTestDone l ba lane false) s = .next (leftEvent s (laneGone l k false (bump reCountsTests 0 1 t)))) ∧
    (∀ (l : LinkNo),
     moduleRuns s = true →
     (loamLink s l).move = some true ∧ (loamLink s l).buf = [] →
     exec (.linkMoveComplete l) s = .next (leftEvent s (loamMod l (fun y => { y with move := none, optical := true }) s))) ∧
    (∀ (l : LinkNo),
     moduleRuns s = true →
     (loamLink s l).move = some false ∧ (loamLink s l).buf = [] ∧ (loamLink s l).tests = [] →
     exec (.linkMoveComplete l) s = .next (leftEvent s (setF ddLinkStatusState l 0 (loamMod l (fun y => { y with move := none, optical := false }) s)))) ∧
    (∀ (r : RingNo) (d : Fin 28) (ch : Fin 34),
     let x := loamRing s r
     let k := chanKey d ch
     moduleRuns s = true →
     ch.val < stopChannels d + 2 ∧ (getF s ddRingStatusStopUp r).testBit d = true ∧ flagSet s ddRingStatusLost r = false →
     x.failed.contains k = false ∧ x.tests.contains k = false →
     exec (.opticalChannelError r d ch) s = .next (leftEvent s (ringMod r (fun y => { y with tests := y.tests ++ [k] }) s))) ∧
    (∀ (r : RingNo) (d : Fin 28) (ch : Fin 34),
     let k := chanKey d ch
     let t := bump reCountsTests 0 1 (ringMod r (fun y => { y with tests := y.tests.filter (· != k) }) s)
     moduleRuns s = true →
     (loamRing s r).tests.contains k = true →
     exec (.opticalChannelTestDone r d ch true) s = .next (leftEvent s t)) ∧
    (∀ (r : RingNo) (d : Fin 28) (ch : Fin 34),
     let k := chanKey d ch
     let t := bump reCountsTests 0 1 (ringMod r (fun y => { y with tests := y.tests.filter (· != k) }) s)
     let u := raise flDdRingStatusChanFail r (ringMod r (fun y => { y with failed := setAdd y.failed k }) t)
     moduleRuns s = true →
     (loamRing s r).tests.contains k = true →
     failedAt u r d ≤ 2 →
     exec (.opticalChannelTestDone r d ch false) s = .next (leftEvent s (ringRec r d 0x0A04 true ch u))) ∧
    (∀ (r : RingNo),
     moduleRuns s = true →
     flagSet s ddRingStatusLost r = false →
     exec (.laserFail r) s = .next (leftEvent s (if flagSet s ddRingStatusOnSpare r then reachCheck (ringRec r 0xFFFF 0x0A05 false 0 (setF ddRingStatusLost r 1 s)) else ringRec r 0xFFFF 0x0A04 true 0 (raise flDdRingStatusLaserSwap r (setF ddRingStatusOnSpare r 1 s))))) ∧
    (∀ (d : DieNo),
     moduleRuns s = true →
     d.val ≠ 28 →
     exec (.phyRefLost d) s = .next (leftEvent s (leaveDie d 3 (setF ddDieStatusRefOk d 0 s)))) ∧
    (∀ (h : HomeNo) (d : DieNo) (a stamp : Nat),
     let t := loamStamp stamp (8 + h.val) { s with loam.down := s.loam.down.erase (h.val, d.val, stamp) }
     moduleRuns s = true →
     s.loam.down.find? (fun e => e.1 == h.val && e.2.1 == d.val) = some (h.val, d.val, stamp) →
     portOfDie d = some a →
     exec (.dieDownMessage (.home h) d) s = .next (leftEvent s (agentLeavesAt h a t))) ∧
    (∀ (d : DieNo) (stamp : Nat),
     let t := loamStamp stamp 26 { s with loam.down := s.loam.down.erase (16, d.val, stamp) }
     moduleRuns s = true →
     s.loam.down.find? (fun e => e.1 == 16 && e.2.1 == d.val) = some (16, d.val, stamp) →
     exec (.dieDownMessage .cp d) s = .next (leftEvent s (cpRule d t))) ∧
    (moduleRuns s = true →
     exec .westDieLost s = .next (leftEvent s (packageStops 1 5 { s with start.westLost := true })))

/-- R476–R479, R566: what the module's test access does. These act whether or not the module has started. -/
def Obligations.TestAccess : Prop :=
  ∀ (s : State), 
    (∀ (tap : TapId),
     (match tap with | .die d => dieInChain s d.val | _ => true) = true →
     exec (.tapInstruction tap .idcode) s = .next (leftBare s (tapLoad 1 (idcodeOf tap) s))) ∧
    (∀ (tap : TapId),
     (match tap with | .die d => dieInChain s d.val | _ => true) = true →
     exec (.tapInstruction tap .bypass) s = .next (leftBare s (tapLoad 0 0 s))) ∧
    (∀ (tap : TapId),
     (match tap with | .die d => dieInChain s d.val | _ => true) = true →
     s.pins.testReset = true →
     exec (.tapInstruction tap .extest) s = .next (leftBare s (tapLoad 3 (freshVal s) (drawn s)))) ∧
    (∀ (tap : TapId),
     let e : ErrRec := { level := lvPackage, unit := 28, reason := 0x0A31, cls := 0x04, verdict := vTransient }
     (match tap with | .die d => dieInChain s d.val | _ => true) = true →
     s.pins.testReset = false →
     exec (.tapInstruction tap .extest) s = .next (leftBare s (writeErr e none (tapLoad 0 0 s)))) ∧
    (∀ (d : Fin 28),
     flagSet s ddStatusDebugLocked 0 = false ∧ dieUp s d.val = true →
     exec (.tapInstruction (.die d) .select) s = .next (leftBare s { s with tap.selected := setAdd s.tap.selected d.val, tap.idle := false })) ∧
    (∀ (d : Fin 28),
     flagSet s ddStatusDebugLocked 0 = true →
     exec (.tapInstruction (.die d) .select) s = .next (leftBare s (tapRefused s))) ∧
    (let t := { s with pins.testReset := true, tap.ready := flagSet s obStatusReady 0 }
     s.pins.testReset = false →
     exec .testResetAssert s = .next (leftPin s (setF obStatusReady 0 0 t))) ∧
    (let t := { s with pins.testReset := false, tap.ready := false }
     s.pins.testReset = true →
     exec .testResetRelease s = .next (leftPin s (setF obStatusReady 0 (bit s.tap.ready) t))) ∧
    (s.pins.service = false →
     exec .svcCableInsert s = .next (leftPin s (tapReset { s with pins.service := true }))) ∧
    (s.pins.service = true →
     exec .svcCableRemove s = .next (leftPin s (tapReset { s with pins.service := false })))

/-- R34, R35, R485, R487, R488, R490–R493, R558, R560, R561: what events of the supply, of the power controller and of the
temperature sensors do. -/
def Obligations.PowerAndHeat : Prop :=
  ∀ (s : State), 
    (let t := { drawn s with elec := { input := true, refclk := freshVal s % 2 == 1 }, start.due := some (0, 0) }
     s.pins.present = true ∧ s.elec.input = false →
     exec .inputPowerApplied s = .next (leftPin s t)) ∧
    (s.elec.input = true →
     exec .inputPowerLost s = .next (leftPin s (powerLost s))) ∧
    (Powered s →
     railsDue s = true ∧ s.elec.rails < 10 →
     exec .railPowerGood s = .next (leftEvent s { s with elec.rails := s.elec.rails + 1 })) ∧
    (∀ (ty cause : Nat),
     Powered s →
     s.start.due = some (ty, cause) →
     railsDue s = true ∧ s.elec.rails < 10 →
     exec .railStartTimeout s = .next (leftEvent s (startFails ty 2 s.elec.rails 0 s))) ∧
    (∀ (r : Rail) (u : FedUnit),
     Powered s →
     2 < railNo r ∧ railFeeds r u = true →
     exec (.regulatorOvervoltage r u) s = .next (leftEvent s (railLow u { s with elec.latches := setAdd s.elec.latches (railNo r) }))) ∧
    (∀ (r : Rail) (u : FedUnit),
     Powered s →
     railNo r ≤ 2 →
     exec (.regulatorOvervoltage r u) s = .next (leftEvent s (fixedRailGone (railNo r) s))) ∧
    (Powered s →
     s.elec.rails = 0 ∧ s.start.due = none →
     s.elec.latches.any (fun r => r ≤ 2) = true →
     exec .regulatorFaultRestart s = .next (leftEvent s { s with start.due := some (0, 0x0B) })) ∧
    (∀ (sw : SwardNo),
     let e : ErrRec := { level := lvSward, unit := sw, reason := 0x0610, cls := 0x06, verdict := vPending }
     Powered s →
     meadowUp s (sw / 16) = true →
     s.err.out.any (fun o => o.level == lvSward && o.unit == sw.val) = false ∧ s.err.remaps.any (fun x => x.1 == sw.val) = false →
     exec (.railBelowRetention (.sward sw)) s = .next (leftEvent s (swardRepair sw 0xFFFF s.err.nextId false (swardWorkFails sw 0x0610 (writeErr e none (fenceSward sw s)))))) ∧
    (∀ (sw : SwardNo),
     let e : ErrRec := { level := lvSward, unit := sw, reason := 0x0610, cls := 0x06, verdict := vPending }
     Powered s →
     meadowUp s (sw / 16) = true →
     s.err.out.any (fun o => o.level == lvSward && o.unit == sw.val) = true →
     exec (.railBelowRetention (.sward sw)) s = .next (leftEvent s
       (writeErr { e with verdict := vLasting, out := true } (some s.err.nextId) (swardWorkFails sw 0x0610 (writeErr e none (fenceSward sw s)))))) ∧
    (∀ (d : DieNo),
     let e : ErrRec := { level := lvPackage, unit := d, reason := 0x0610, cls := 0x06, verdict := vPending }
     Powered s →
     dieUp s d = true ∧ d.val ≠ 28 →
     exec (.railBelowRetention (.die d)) s = .next (leftEvent s (leaveDie d 6 (writeErr e none s)))) ∧
    (let e : ErrRec := { level := lvPackage, unit := 28, reason := 0x0610, cls := 0x06, verdict := vPending }
     Powered s →
     dieUp s 28 = true →
     exec (.railBelowRetention (.die 28)) s = .next (leftEvent s (westGone (writeErr e none s)))) ∧
    (∀ (u : Fin 148) (steps expected : W32) (ok : Bool),
     let fires := ((tgetD s.pw.fires u.val []).filter (fun x => cpTime s - x < 100000)).length
     let t := setF stepRateSteps u steps.toNat s
     Running s →
     u.val < 128 ∧ steps.toNat * 100 ≤ expected.toNat * 95 ∧ 16 ≤ fires →
     exec (.stepRateWindow u steps expected true) s = .next (leftEvent s (setF swardPwSetpointMv u (min 800 (getF s swardPwSetpointMv u + 10)) t))) ∧
    (∀ (i : CapIn),
     let hold := i.aboveCap || (s.pw.hold && decide (capNow s < i.mean.toNat))
     let free := if s.pw.hold && !hold then freeDuty s else s
     let t := i.swards.foldl (swardBudget i hold) (capMeasured i hold free)
     Running s →
     pwAlive s = true →
     exec (.capLoop i) s = .next (leftEvent s (if hold then holdDuty t else t))) ∧
    (∀ (levels : BitVec 24) (shares : BitVec 88) (n : Nat),
     let v := phaseGet s n
     let t := phasePut n (withBits v 119 112 (min 255 (phaseHits v + 1))) s
     Running s →
     pwAlive s = true →
     phaseMatch s levels.toNat = some n →
     exec (.phaseWindow levels shares none) s = .next (leftEvent s (setF pwStatusPhase 0 n (setF pwStatusPhaseV 0 1 { t with pw.shares := phaseShares v })))) ∧
    (∀ (levels : BitVec 24) (shares : BitVec 88),
     let t := setF pwStatusPhaseV 0 0 (setF pwStatusPhase 0 0 { s with pw.shares := shares.toNat })
     let entry := packBits [(1, 127), (shares.toNat, 24), (levels.toNat, 0)]
     Running s →
     pwAlive s = true →
     phaseMatch s levels.toNat = none →
     exec (.phaseWindow levels shares none) s = .next (leftEvent s (if flagSet t pwCtrlLearn 0 then phasePut (phaseVictim t) entry t else t))) ∧
    (∀ (sw : SwardNo),
     let fires := cpTime s :: (tgetD s.pw.fires sw.val []).filter (fun x => cpTime s - x < 100000)
     DieRuns s (sw.val / 16) →
     flagSet s swardPwGuard sw = false →
     exec (.droopGuardFire sw) s = .next (left s (bump swardPwDroopEvents sw 1 (setF swardPwGuard sw 1 { s with pw.fires := tput s.pw.fires sw fires })))) ∧
    (∀ (sw : SwardNo),
     DieRuns s (sw.val / 16) →
     exec (.droopGuardRelease sw) s = .next (left s (setF swardPwGuard sw 0 s))) ∧
    (∀ (t : TuftNo) (percent : Fin 101),
     let new := agedCeil (getF s tuftCeilFused t) percent
     let now := tgetD s.pw.dueCeil t.val (getF s tuftCeilCeil t)
     let u := { s with pw.flashCeil := tput s.pw.flashCeil t new, pw.dueCeil := tput s.pw.dueCeil t new }
     TuftRuns s t.val →
     pwAlive s = true ∧ getF s tuftCeilState t ≠ 3 ∧ new < now →
     exec (.ageingMeasure t percent) s = .next (left s (notice 0x0621 t (t / 128) (raise flPwStatusAge 0 u)))) ∧
    (∀ (t : TuftNo),
     TuftRuns s t.val →
     pwAlive s = true ∧ getF s pwCtrlGateIdleUs 0 ≠ 0 →
     getF s tuftCeilState t = 1 ∧ (tuft s t).task = none →
     exec (.tuftGate t) s = .next (left s (setF tuftCeilState t 2 s))) ∧
    (∀ (t : TuftNo),
     TuftRuns s t.val →
     getF s tuftCeilState t = 2 ∧ (tuft s t).task ≠ none →
     exec (.tuftWakeDone t) s = .next (left s (setF tuftCeilState t 0 s))) ∧
    (∀ (d : DieNo) (temp laser : Byte) (sensors : Fin 5),
     let c := if d.val = 28 then laser.toNat else temp.toNat
     let b := heatBand d c
     let t := setF dieTempBand d b (setF dieTempSensorsOk d sensors (setF dieTempPeak d (max c (getF s dieTempPeak d)) (setF dieTempTemp d c s)))
     Powered s →
     pwAlive s = true ∧ sensors.val ≠ 0 →
     b ≠ 3 →
     exec (.tempSample d temp laser sensors) s = .next (leftEvent s (if b = 0 then heatCloses d t else heatStarts d t))) ∧
    (∀ (d : DieNo) (temp : Byte),
     let t := tripRecord d temp.toNat 0x0630 (startDue 1 6 s)
     Powered s →
     (heatLimits d).2.2 ≤ temp.toNat →
     pwAlive s = true ∧ s.pw.tripped = false ∧ s.start.halted = false →
     exec (.thermalTrip d temp) s = .next (leftEvent s (tripSteps { t with pw.tripped := true, start.running := false, start.errorEnd := true }))) ∧
    (let t := tripRecord 26 0 0x0641 (startDue 1 6 s)
     Powered s →
     pwAlive s = true ∧ s.pw.tripped = false ∧ s.start.halted = false →
     exec .inputRangeTrip s = .next (leftEvent s (tripSteps { t with pw.tripped := true, start.running := false, start.errorEnd := true })))

/-- R504, R505, R508, R512, R527, R538: events of error handling and of start-up. -/
def Obligations.ErrorsAndStarts : Prop :=
  ∀ (s : State), 
    (∀ (level : Fin 4) (unit : W16) (ok : Bool) (stuck : List (Bool × BitVec 7)) (kat : Bool) (p : ErrRec),
     Running s →
     nextTest s (handlerOf level unit.toNat) = some p →
     p.level = level.val ∧ p.unit = unit.toNat ∧ unitIdle s level unit.toNat = true →
     exec (.targetedTestDone level unit ok stuck kat) s = .next (leftEvent s (verdictEnds level unit.toNat s (verdictOf p ok (stuck.map (fun x => (x.1, x.2.toNat))) kat s)))) ∧
    (∀ (sw : SwardNo) (x : Nat × Nat × Nat × Nat),
     DieRuns s (sw.val / 16) →
     s.err.remaps.find? (fun x => x.1 == sw.val) = some x →
     (span (8 * sw.val) 8).all (fun t => (tuft s t).task.isNone) = true →
     exec (.swardRemapDone sw) s = .next (left s (swardRemapped sw x s))) ∧
    (∀ (i : StartIn) (go : Instr) (ty cause : Nat),
     (ty, go) ∈ [(typeCold, .coldStart i), (typeWarm, .warmStart i), (typeRecovery, .recoveryStart i)] →
     Powered s →
     s.start.due = some (ty, cause) →
     startReady s = true →
     exec go s = .next (leftEvent s (runSteps ty i (startSteps ty i s) (startBegins ty cause i s)))) ∧
    (Running s →
     exec .startRecordTimeWrite s = .next (leftEvent s { s with start.lastTime := cpTime s })) ∧
    (∀ (cmd k v : Nat),
     let free : State := { s with sec.writing := none, start.waits := false }
     Powered s →
     s.sec.writing = some (.config cmd k v) →
     exec (.flashWriteDone true) s = .next (leftEvent s (endById cmd (endDone 0 0) { free with start.cfg := tput free.start.cfg k v }))) ∧
    (∀ (cmd key h n : Nat) (ok : Bool),
     let free : State := { s with sec.writing := none, start.waits := false }
     let t : State := { free with sec.images := tput free.sec.images key { ok := ok, header := if ok then h else 0, bytes := if ok then n else 0 } }
     Powered s →
     s.sec.writing = some (.stage (some cmd) key h n) →
     exec (.flashWriteDone ok) s = .next (leftEvent s (if ok then endById cmd (endDone (imgType h) (imgSvn h)) t else endById cmd (endFailed 0x0712 0) t)))

/-- R533–R535: what the responder answers to each request. What it signs with, and its certificates, the spec leaves open:
the statements hold whatever they are. The codes of the answers are the model's reading of the SPDM standard (log entry 40). -/
def Obligations.SecurityRequests : Prop :=
  ∀ (s : State) (mctp : Bool), SpdmHears mctp s → 
    (exec (.getVersion mctp) s = .next (leftEvent s (spdm 0x04 [0x13] s))) ∧
    (exec (.getCapabilities mctp) s = .next (leftEvent s (spdm 0x61 [0x16] s))) ∧
    (exec (.negotiateAlgorithms mctp) s = .next (leftEvent s (spdm 0x63 [0x08, 0x02, 0x04] s))) ∧
    (exec (.getDigests mctp) s = .next (leftEvent s (spdm 0x01 [0x03, certDigest 0, certDigest 1] s))) ∧
    (∀ (slot : Fin 8) (off len : W16),
     let cert := Config.certificate slot.val
     let part := (cert.drop off.toNat).take len.toNat
     slot.val ≤ 1 →
     exec (.getCertificate mctp slot off len) s = .next (leftEvent s (if off.toNat < cert.length then spdm 0x02 [slot, part.length, cert.length - off.toNat - part.length, ofBytes part] s else spdm 0x7F [0x01] s))) ∧
    (∀ (slot : Fin 8) (nonce : W256),
     slot.val ≤ 1 →
     exec (.challenge mctp slot nonce) s = .next (leftEvent s (spdmSigned 0x03 [slot, certDigest slot, nonce.toNat, freshVal s % 2 ^ 256] (drawn s)))) ∧
    (∀ (block : Byte) (nonce : W256),
     block.toNat ≠ 0 ∧ block.toNat ≤ 8 →
     exec (.getMeasurements mctp block false nonce) s = .next (leftEvent s (spdm 0x60 [block.toNat, s.sec.slots.getD (block.toNat - 1) 0] s))) ∧
    (∀ (block : Byte) (nonce : W256),
     block.toNat ≠ 0 ∧ block.toNat ≤ 8 →
     exec (.getMeasurements mctp block true nonce) s = .next (leftEvent s (spdmSigned 0x60 [block.toNat, s.sec.slots.getD (block.toNat - 1) 0, nonce.toNat] s))) ∧
    (∀ (command : W16) (hash : Nat),
     command = 1 →
     s.sec.transcript = some hash →
     exec (.vendorDefinedRequest mctp command) s = .next (leftEvent s (spdm 0x7E [Config.slhSign s.freeCtr hash] (drawn s))))

/-- R490, R541–R544, R546, R547, R565: what management requests and the front panel do. The codes of the answers are the
model's reading of the MCTP and PLDM standards (log entry 41). -/
def Obligations.Management : Prop :=
  ∀ (s : State), 
    (Powered s ∧ mgmtUp s = true →
     exec (.mctpControl 5) s = .next (leftEvent s (mgSend (.answer 0 5 (2 ^ 0 + 2 ^ 1 + 2 ^ 5)) s))) ∧
    (Powered s ∧ mgmtUp s = true →
     exec (.pldmBaseDiscovery 4) s = .next (leftEvent s (mgSend (.answer 1 4 (2 ^ 0 + 2 ^ 2 + 2 ^ 5)) s))) ∧
    (∀ (id : W16),
     Powered s ∧ mgmtUp s = true →
     3 ≤ id.toNat ∧ id.toNat ≤ 31 →
     exec (.pldmSensorRead id) s = .next (leftEvent s (mgSend (.answer 2 0x11 (getF s dieTempTemp (id.toNat - 3))) s))) ∧
    (Powered s ∧ mgmtUp s = true →
     exec (.pldmSensorRead 1) s = .next (leftEvent s (mgSend (.answer 2 0x11 (getF s pwStatusInputW 0)) s))) ∧
    (Powered s ∧ mgmtUp s = true →
     exec (.pldmSensorRead 32) s = .next (leftEvent s (mgSend (.answer 2 0x21 (getF s mgStatusPanel 0)) s))) ∧
    (∀ (watts : W16),
     Powered s ∧ mgmtUp s = true →
     exec (.pldmSetMgmtCap watts) s = .next (leftEvent s (mgSend (.answer 2 0x31 watts.toNat) (setF pwCtrlMgmtCapW 0 watts.toNat s)))) ∧
    (∀ (on : Bool),
     Powered s ∧ mgmtUp s = true →
     exec (.pldmSetLocate on) s = .next (leftEvent s (mgSend (.answer 2 0x39 (bit on)) (setF mgCtrlLocate 0 (bit on) s)))) ∧
    (Powered s ∧ mgmtUp s = true →
     getF s mgStatusPanel 0 = 0 ∧ s.start.halted = false ∧ flagSet s mgCtrlButtonEn 0 = true →
     exec .pldmRemovalRequest s = .next (leftEvent s (mgSend (.answer 2 0x39 1) (deliverEvent 5 (raise flMgStatusButton 0 (setPanel 1 s)))))) ∧
    (∀ (ty : Fin 3),
     let t := { s with start.due := some (ty.val, 8), start.waits := s.sec.writing.isSome, start.halted := false }
     Powered s ∧ mgmtUp s = true →
     getF s mgStatusPanel 0 ≠ 2 ∧ s.start.due = none →
     exec (.pldmStartRequest ty) s = .next (leftEvent s (mgSend (.answer 2 0x39 ty) t))) ∧
    (∀ (comp : Fin 8) (bytes : List Byte),
     let b := bytes.map (·.toNat)
     let v := ofBytes b
     let code := if comp.val = 7 || imgType v != comp.val then 0x0706 else imageCode s v b.length
     Powered s ∧ mgmtUp s = true →
     gorseUp s = true ∧ s.sec.writing = none →
     exec (.pldmFwUpdateTransfer comp bytes) s = .next (leftEvent s (if code ≠ 0 then mgSend (.reject 5 comp code) (raise flSbStatusVerifyFail 0 s) else stageImage none v b.length s))) ∧
    (∀ (mask : BitVec 7),
     let t := activateBanks mask.toNat s
     Powered s ∧ mgmtUp s = true →
     s.sec.writing = none ∧ stagingFailed s mask.toNat = false →
     exec (.activateFirmware mask) s = .next (leftEvent s (mgSend (.answer 5 0x1A t.sec.active) t))) ∧
    (exec .attnButtonPress s = .next (leftPin s { s with pins.buttonHeld := true })) ∧
    (let t : State := { s with pins.buttonHeld := false }
     mgmtUp s = true →
     exec .buttonShortPress s = .next (leftPin s (removalRequest t))) ∧
    (let t : State := { s with pins.buttonHeld := false, mg.quiesce := none, mg.forced := true }
     mgmtUp s = true →
     getF s mgStatusPanel 0 < 2 →
     exec .buttonHold s = .next (leftPin s (quiesceBegins (raise flMgStatusButton 0 t)))) ∧
    (Powered s →
     getF s mgStatusPanel 0 = 1 →
     exec .removalRequestLapse s = .next (leftEvent s (notice 0x0A60 0 26 (setPanel 0 s)))) ∧
    (Powered s →
     getF s mgStatusPanel 0 = 2 ∧ s.mg.linkDown = true ∧ s.mg.start = none →
     exec .quiesceLinkDown s = .next (leftEvent s (let u := setPanel 3 (tripSteps { s with mg.linkDown := false, mg.start := none })
       { u with start.due := none, start.running := false }))) ∧
    (let t : State := { s with pins.latchOpen := true }
     s.pins.latchOpen = false ∧ s.elec.input = true →
     getF s mgStatusPanel 0 ≠ 3 →
     exec .latchOpen s = .next (leftPin s (removedEarly 0 t))) ∧
    (getF s mgStatusPanel 0 = 3 →
     exec .latchOpen s = .next (leftPin s { s with pins.latchOpen := true })) ∧
    (let t : State := { s with pins.latchOpen := false, mg.early := false, start.due := some (1, 8), start.errorEnd := true }
     s.pins.latchOpen = true ∧ s.mg.early = true ∧ s.elec.input = true →
     exec .latchClose s = .next (leftPin s t)) ∧
    (let t : State := { s with pins.present := false }
     s.pins.present = true ∧ s.elec.input = true →
     exec .presentNBreak s = .next (leftPin s (powerLost (if s.pins.latchOpen = true ∨ getF s mgStatusPanel 0 = 3 then t else removedEarly 1 t))))

/-- The row's cut: commands wait first in, first out. The tick of the package timer (R36) on an empty queue is the model's own
choice (log entry 6). -/
def Obligations.StepRunsTheFrontCommand : Prop :=
  ∀ (s : State), 
    (∀ (c : Instr) (rest : List Instr),
     step { s with pending := c :: rest } = exec c { s with pending := rest }) ∧
    (∀ (c : Instr),
     ∃ t, exec c s = .next t ∧ t.pending = s.pending ∧ t.wq = []) ∧
    (s.pending = [] ∧ s.wq = [] ∧ s.elec.input = true →
     flagSet s timerStatusLocked 0 = true ∨ flagSet s timerStatusBackup 0 = true →
     step s = .next { s with timer := copiesTick { s.timer with master := s.timer.master + 1 } }) ∧
    (s.pending = [] ∧ s.wq = [] →
     s.elec.input = false ∨ (flagSet s timerStatusLocked 0 = false ∧ flagSet s timerStatusBackup 0 = false) →
     step s = .next s)

/-- Reset values from the tables of the spec: what State.reset holds before the first command. That a cold start is due
with the input applied is the model's choice of the moment of reset (log entry 45). -/
def Obligations.ResetState : Prop :=
  
    (Sound State.reset ∧ State.reset.pending = [] ∧ State.reset.mem = []) ∧
    (State.reset.elec.input = true ∧ State.reset.start.due = some (0, 0) ∧ State.reset.timer.master = 0) ∧
    (getF State.reset pwCtrlCapW 0 = 4200 ∧ getF State.reset pwCtrlMgmtCapW 0 = 0) ∧
    (∀ (d : DieNo),
     dieUp State.reset d.val = true)

/-- An invariant of the model's memory (device memory, Tuft stores and Sward pools): canonical form, no write left over, kept
by every step from every state. -/
def Obligations.StepKeepsSound : Prop :=
  ∀ (s t : State), 
    (Sound s →
     step s = .next t →
     Sound t)

/-- R401, R402, R404, R485, R514, R544: what follows an effect follows only where something waits for it. -/
def Obligations.NothingFollows : Prop :=
  ∀ (s t : State), 
    (NothingWaits t →
     left s t = leftBare s t)

/-- R4, R258: device memory, stores and pools as byte-addressed little-endian memory. R280, R283: writes to a retired row or to a
lost home are discarded. R279, R510: poison of sectors of 32 bytes stays until a full-sector write replaces it. -/
def Obligations.MemoryAndPoison : Prop :=
  ∀ (s : State), 
    (∀ (w : List MemOp) (m : List Host.Cell) (a : Nat),
     memWf m = true →
     memWf (memCommit w m) = true ∧ memGet (memCommit w m) a = (wqGet w a).getD (memGet m a)) ∧
    (∀ (m n : List Host.Cell),
     memWf m = true ∧ memWf n = true →
     (∀ a, memGet m a = memGet n a) →
     m = n) ∧
    (∀ (a n v x : Nat),
     readByte (writeNum a n v s) x =
       if a ≤ x ∧ x < a + n ∧ deadAddr s x = false then BitVec.ofNat 8 (v >>> (8 * (x - a))) else readByte s x) ∧
    (∀ (a n v : Nat),
     (∀ i, i < n → deadAddr s (a + i) = false) →
     readNum (writeNum a n v s) a n = v % 256 ^ n) ∧
    (∀ (a n x : Nat),
     readByte (zeroMem a n s) x = if a ≤ x ∧ x < a + n then 0 else readByte s x) ∧
    (∀ (a n k : Nat),
     (k ∈ (poisonRange a n s).poison ↔ k ∈ s.poison ∨ (0 < n ∧ a < 32 * k + 32 ∧ 32 * k < a + n))) ∧
    (∀ (a n k v : Nat),
     (k ∈ (writeNum a n v s).poison ↔ k ∈ s.poison ∧ ¬ (a ≤ 32 * k ∧ 32 * k + 32 ≤ a + n ∧ deadAddr s (32 * k) = false))) ∧
    (∀ (a n : Nat),
     0 < n ∧ s.lostHomes = [] ∧ s.retired = [] →
     (poisoned s a n = true ↔ ∃ k ∈ s.poison, a < 32 * k + 32 ∧ 32 * k < a + n))

/-- R4, R405: registers as fields of bits, one register for each REG_ID and unit. R408: companion counters count every event. -/
def Obligations.RegisterFields : Prop :=
  ∀ (s : State) (f g : Field) (u v x : Nat), 
    (f.lo ≤ f.hi ∧ f.hi < 128 →
     getF (setF f u x s) f u = x % 2 ^ (f.hi + 1 - f.lo)) ∧
    (f.lo ≤ f.hi ∧ f.hi < 128 ∧ g.lo ≤ g.hi ∧ g.hi < 128 →
     f.reg = g.reg ∧ (f.hi < g.lo ∨ g.hi < f.lo) →
     getF (setF f u x s) g u = getF s g u) ∧
    (u < 65536 ∧ v < 65536 →
     f.reg ≠ g.reg ∨ u ≠ v →
     getF (setF f u x s) g v = getF s g v) ∧
    (f.lo ≤ f.hi ∧ f.hi < 128 ∧ g.lo ≤ g.hi ∧ g.hi < 128 ∧ u < 65536 →
     f.reg ≠ g.reg ∨ f.hi < g.lo ∨ g.hi < f.lo →
     getF (raise ⟨f, g⟩ u s) f u = 1 ∧ getF (raise ⟨f, g⟩ u s) g u = min (getF s g u + 1) (fieldMax g))

/-- R570: "The device then reports the lowest reason code among the checks that fail." (The exceptions of that rule are those
of the places that name them.) -/
def Obligations.LowestReasonReported : Prop :=
  ∀ (l m : List (Option Nat)), 
    (lowest l ≠ 0 →
     some (lowest l) ∈ l) ∧
    (∀ (c : Nat),
     some c ∈ l ∧ c ≠ 0 →
     lowest l ≠ 0 ∧ lowest l ≤ c) ∧
    (l.Perm m →
     lowest l = lowest m)

/-- R57. -/
def Obligations.StochasticRounding : Prop :=
  ∀ (a : Arith) (draw other : Nat) (neg sticky : Bool) (m : Nat) (e : Int), 
    (∀ (f : Fmt),
     (srFmt f = true ↔ f = .xf16 ∨ f = .xf8a ∨ f = .xf8b ∨ f = .xf6 ∨ f = .xf4)) ∧
    (∀ (f : Fmt),
     f = .fp32 ∨ f = .fp64 →
     roundFin f { a with rmode := .sr } draw neg m e sticky = roundFin f { a with rmode := .rne } other neg m e sticky) ∧
    (∀ (width : Nat) (x : Machine.Num),
     convertInt width a.strict .sr x = convertInt width a.strict .rne x) ∧
    (∀ (f : Fmt),
     a.rmode ≠ .sr →
     roundFin f a draw neg m e sticky = roundFin f a other neg m e sticky)

/-- R69. -/
def Obligations.SubnormalHandling : Prop :=
  ∀ (f : Fmt), 
    (∀ (bits : Nat),
     let m := bits % 2 ^ manBits f
     let neg := bitsOf bits (expBits f + manBits f) (expBits f + manBits f) == 1
     f = .fp32 ∨ f = .fp64 ∨ f = .xf16 →
     bitsOf bits (expBits f + manBits f - 1) (manBits f) = 0 ∧ m ≠ 0 →
     decodeNum f false bits = (.fin neg 0 0, fFZ) ∧ decodeNum f true bits = (.fin neg m (1 - (fmtBias f : Int) - (manBits f : Int)), 0)) ∧
    (∀ (bits : Nat),
     f = .fp32 ∨ f = .fp64 ∨ f = .xf16 →
     bitsOf bits (expBits f + manBits f - 1) (manBits f) ≠ 0 ∨ bits % 2 ^ manBits f = 0 →
     decodeNum f false bits = decodeNum f true bits) ∧
    (∀ (a : Arith) (draw : Nat) (neg sticky : Bool) (m : Nat) (e : Int),
     let kept := roundFin f { a with subn := true } draw neg m e sticky
     let field := kept.1 % 2 ^ (expBits f + manBits f)
     let flushed := roundFin f { a with subn := false } draw neg m e sticky
     f = .fp32 ∨ f = .fp64 ∨ f = .xf16 →
     if 0 < field ∧ field < 2 ^ manBits f then flushed.1 = bit neg * 2 ^ (expBits f + manBits f) ∧ flushed.2 &&& fFZ ≠ 0 else flushed = kept) ∧
    (∀ (a : Arith) (draw bits : Nat) (neg sticky : Bool) (m : Nat) (e : Int),
     f = .xf8a ∨ f = .xf8b ∨ f = .xf6 ∨ f = .xf4 →
     decodeNum f false bits = decodeNum f true bits ∧ roundFin f { a with subn := false } draw neg m e sticky = roundFin f { a with subn := true } draw neg m e sticky)

/-- R476, Table DD-7. -/
def Obligations.Idcodes : Prop :=
  ∀ (s : State) (tap : TapId), 
    (let code := match tap with
       | .module => 0xA941694F | .loam => 0xA941094F
       | .die d => if d.val < 8 then 0xA941194F else if d.val < 24 then 0xA941294F else if d.val < 26 then 0xA941394F else 0xA941494F
     (match tap with | .die d => dieInChain s d.val | _ => true) = true →
     exec (.tapInstruction tap .idcode) s = .next (leftBare s (tapLoad 1 code s))) ∧
    (let c := idcodeOf tap
     bitsOf c 31 28 = 0xA ∧ bitsOf c 11 1 = 0x4A7 ∧ bitsOf c 0 0 = 1 ∧ c < 2 ^ 32)

/-- R373: sequence tag in bits 511–496, check byte in bits 495–488 of an entry of 64 bytes (Table CF-1). -/
def Obligations.EntryCheck : Prop :=
  ∀ (v n : Nat), 
    (let others := ((List.range 64).filter (· != 61)).foldl (fun x k => x ^^^ bitsOf v (8 * k + 7) (8 * k)) 0
     (entryPasses v n = true ↔ bitsOf v 511 496 = n % 65536 ∧ bitsOf v 495 488 = 0xA5 ^^^ others)) ∧
    (entryPasses 0 n = false)

/-- R397: words 0–2 of the answer, LARK_DONE in word 31 (R375, Table HL-7). -/
def Obligations.LarkAnswerWords : Prop :=
  ∀ (oc : OpenCmd) (e : CmdEnd) (s : State) (k : Fin 64), oc.door = .lark k → e.status < 4 ∧ e.reason < 65536 → 
    (let l := larkGet (endCmd oc e s) k.val
     let done := bitsOf l.ans 2047 1984
     l.busy = false ∧ bitsOf l.ans 63 0 = e.r0 % 2 ^ 64 ∧ bitsOf l.ans 127 64 = e.r1 % 2 ^ 64 ∧
       bitsOf l.ans 129 128 = e.status ∧ bitsOf l.ans 191 160 = cmdToken oc.words ∧ bitsOf done 15 11 = 3 ∧ bitsOf done 31 16 = e.reason)

/-- R378. -/
def Obligations.EventsToTheHost : Prop :=
  ∀ (s : State), 
    (∀ (src : Nat),
     getF s evRouteEn src = 1 ∧ getF s evRouteToHost src = 1 →
     deliverEvent src s = if msixReady s then setF evRoutePend src 0 (msixSend (getF s evRouteEiid src) s) else setF evRoutePend src 1 s) ∧
    (msixSend 0 s = s) ∧
    (∀ (v : Nat),
     v ≠ 0 →
     msixSend v s = if (tgetD s.link.msix v {}).masked then { s with link.pba := setAdd s.link.pba v } else { s with hostOut := .msix v :: s.hostOut }) ∧
    (∀ (v : Fin 256),
     let opened := tmod s.link.msix v.val {} (fun e => { e with masked := false })
     LinkRuns s ∧ selfHosted s = false ∧ msixReady s = true →
     s.link.pba = [v.val] →
     exec (.msixUnmask (.vector v)) s = .next (left s { s with link.msix := opened, link.pba := [], hostOut := .msix v.val :: s.hostOut })) ∧
    (∀ (src : Nat),
     src < 72 ∧ getF s evRoutePend src = 1 ∧ getF s evRouteEn src = 1 ∧ getF s evRouteToHost src = 1 ∧ msixReady s = true →
     (∀ n, n < 72 → n ≠ src → getF s evRoutePend n = 0) →
     retryHeld s = setF evRoutePend src 0 (msixSend (getF s evRouteEiid src) s)) ∧
    (LinkRuns s ∧ selfHosted s = false →
     exec (.msixUnmask .enable) s = .next (left s (msixFlush (retryHeld { s with link.msixEn := true }))) ∧
       exec (.msixUnmask .busMaster) s = .next (left s (msixFlush (retryHeld (setF hlStatusBme 0 1 s))))) ∧
    (∀ (speed : Fin 7) (width : Fin 17),
     LinkRuns s ∧ flagSet s hlStatusLinkUp 0 = false ∧ speed.val ≠ 0 ∧ speed.val ≤ capSpeed s ∧ widthOk width.val = true →
     exec (.hostLinkUp speed width) s = .next (left s (msixFlush (retryHeld (linkRuns speed.val width.val (setF hlStatusLinkUp 0 1 s))))))

/-- R195: v255, written vz. R210, R218, R570: a refused instruction aborts the task with the lowest reason code. -/
def Obligations.RefusedInstructions : Prop :=
  ∀ (s : State) (i : Issue) (c : ICtx), 
    (∀ (g : Group) (n l v bad : Nat),
     vreg g 255 l = 0 ∧ vregs g 255 n l = 0 ∧ setVregs 255 n l v bad g = g) ∧
    (∀ (r : Nat),
     r < 256 →
     (badV c r 1 = true ↔ c.regs ≤ r ∧ r ≤ 254)) ∧
    (∀ (op : IntOp) (wide : Bool),
     let n := if wide then 2 else 1
     let use : RegUse := { vd := n, va := if op == .mov then 0 else n, vb := n }
     let checks := useChecks i c use ++ opReserved (op == .reserved)
     Reaches 0 i c s →
     lowest checks ≠ 0 →
     exec (.integerOp i op wide) s = .next (left s (abortTask c.task.id (lowest checks) s))) ∧
    (∀ (op : FpOp) (dbl : Bool) (rnd : RndMod),
     let n := if dbl then 2 else 1
     let use : RegUse := { vd := n, va := n, vb := if op == .sqrt || op == .rcp then 0 else n, vc := if op == .fma then n else 0 }
     let checks := useChecks i c use ++ opReserved (op == .reserved || (dbl && (op == .div || op == .sqrt || op == .rcp)))
     Reaches 1 i c s →
     lowest checks ≠ 0 →
     exec (.fpOp i op dbl rnd) s = .next (left s (abortTask c.task.id (lowest checks) s))) ∧
    (∀ (rel : CmpRel) (ty : CmpTy),
     let n := if ty == .s64 || ty == .u64 || ty == .fp64 then 2 else 1
     let checks := useChecks i c { va := n, vb := n, pd := true }
     Reaches 3 i c s →
     lowest checks ≠ 0 →
     exec (.compareOp i (.cmp rel ty)) s = .next (left s (abortTask c.task.id (lowest checks) s))) ∧
    (∀ (op : IntOp) (wide : Bool),
     let checks := useChecks i c { sd := true, sa := op != .mov, sb := true } ++ opReserved (op == .reserved)
     Reaches 14 i c s →
     lowest checks ≠ 0 →
     exec (.scalarOp i op wide) s = .next (left s (abortTask c.task.id (lowest checks) s))) ∧
    (∀ (m : MemMod),
     let n := memBytes m
     let as := laneAddrs i c false
     let checks := useChecks i c (memUse m 1) ++ (scopeChecks i ++
       [failIf (as.any (fun a => a.2 % n != 0)) 0x0462, failIf (as.any (fun a => decide (tkLimit c.task.d < a.2 + n))) 0x0463])
     Reaches 5 i c s →
     lowest checks ≠ 0 →
     exec (.tuftStoreAccess i m) s = .next (left s (abortTask c.task.id (lowest checks) s))) ∧
    (∀ (m : MemMod),
     let n := memBytes m
     let checks := useChecks i c (memUse m 2) ++ (scopeChecks i ++ [failIf ((laneAddrs i c true).any (fun a => a.2 % n != 0)) 0x0462])
     Reaches 6 i c s →
     lowest checks ≠ 0 →
     exec (.globalAccess i m) s = .next (left s (abortTask c.task.id (lowest checks) s))) ∧
    (∀ (reserved : Bool),
     let checks := useChecks i c {} ++ (opReserved reserved ++ scopeChecks i)
     Reaches 8 i c s →
     lowest checks ≠ 0 →
     exec (.fence i reserved) s = .next (left s (abortTask c.task.id (lowest checks) s)))

/-- R494. -/
def Obligations.CapLimits : Prop :=
  ∀ (s : State), 
    (∀ (c : Cmd),
     Accepts 0x80 c s →
     wordBits c.words 1 15 0 < 1500 ∨ 4200 < wordBits c.words 1 15 0 →
     exec (.capSet c) s = .next (left s (endCmd (openOf c s) (endRefused 0x0601) (startedAt c s)))) ∧
    (getF s pwCtrlMgmtCapW 0 = 0 →
     capNow s = getF s pwCtrlCapW 0) ∧
    (0 < getF s pwCtrlMgmtCapW 0 ∧ getF s pwCtrlMgmtCapW 0 < 1500 →
     capNow s = min (getF s pwCtrlCapW 0) 1500) ∧
    (1500 ≤ getF s pwCtrlMgmtCapW 0 →
     capNow s = min (getF s pwCtrlCapW 0) (getF s pwCtrlMgmtCapW 0))

/-- R344, R296: "No core discards modified data without writing it back." Log entries 4, 169: a line's data is held once; an access that has to
wait at a home changes nothing else and comes again (log entry 170). -/
def Obligations.CacheBlocks : Prop :=
  ∀ (s : State) (h : HartNo) (pa : PA), Powered s ∧ coreUp s h.val = true → 
    (let a := pa.toNat / 64 * 64
     let got := rangeAccess .rdx (hartPort h) a 64 s
     let t := cboZeroBlock h pa.toNat s
     coreMem s a 64 = true →
     biasLost got a 64 = false ∧ got.coh.stuck = none →
     exec (.cboZero h pa) s = .next (leftEvent s (retires h t)) ∧
       ∀ x, readByte t x = if a ≤ x ∧ x < a + 64 ∧ deadAddr got x = false then 0 else readByte got x) ∧
    (exec (.cboInval h pa) s = exec (.cboFlush h pa) s) ∧
    (let line := pa.toNat / 128
     let t := agentGivesUp (hartPort h) line s
     coreMem s pa.toNat 1 = true ∧ t.coh.stuck = none →
     exec (.cboFlush h pa) s = .next (leftEvent s (retires h (hartGets h 0 t))) ∧
       (cacheLine t (hartPort h) line).st ≠ .w ∧ lineOpen t line = false) ∧
    (let line := pa.toNat / 128
     let t := agentCleans (hartPort h) line s
     coreMem s pa.toNat 1 = true ∧ t.coh.stuck = none →
     exec (.cboClean h pa) s = .next (leftEvent s (retires h (hartGets h 0 t))) ∧ (cacheLine t (hartPort h) line).st ≠ .m) ∧
    (∀ (agent line : Nat),
     let c := cacheLine s agent line
     c.st = .m ∧ c.req = none ∧ s.lostHomes.contains (homeOfLine line) = false →
     agentEvict agent line s = resvLost agent line (sendMsg .wbm agent line false (setCacheLine agent line { c with st := .w } s)))

/-- R365, R368: the frame of the host link's writes to device memory. The address stored to is the one the access carries; the accesses
to its lines, as non-caching requests of port 10, come first. -/
def Obligations.HostWrites : Prop :=
  ∀ (s : State) (len val : Nat) (poisoned : Bool), LinkRuns s ∧ barOpen s = true → 
    (∀ (off : BitVec 41),
     let a := off.toNat
     let got := rangeAccess .ncwr 10 a len s
     let t := ioWrite a len val poisoned s
     let whole := fun (k : Nat) => a ≤ 32 * k ∧ 32 * k + 32 ≤ a + len ∧ deadAddr got (32 * k) = false
     selfHosted s = false ∧ isDevMem a len = true ∧ inBiasTable s a len = false →
     biasLost got a len = false ∧ got.coh.stuck = none →
     (exec (.bar2Access off true len val poisoned) s = .next (leftEvent s t) ∧
       (∀ x, readByte t x = if a ≤ x ∧ x < a + len ∧ deadAddr got x = false then BitVec.ofNat 8 (val >>> (8 * (x - a))) else readByte got x) ∧
       ∀ k, k ∈ t.poison ↔ (poisoned = true ∧ k ∈ sectorsOf a len) ∨ (k ∈ got.poison ∧ ¬ whole k))) ∧
    (∀ (addr : W64),
     let a := addr.toNat
     let got := rangeAccess .ncwr 10 a len s
     let t := ioWrite a len val poisoned s
     let whole := fun (k : Nat) => a ≤ 32 * k ∧ 32 * k + 32 ≤ a + len ∧ deadAddr got (32 * k) = false
     selfHosted s = true ∧ flagSet s hlStatusLinkUp 0 = true →
     inWindow s a len = true →
     biasLost got a len = false ∧ got.coh.stuck = none →
     (exec (.inboundDma addr true len val poisoned) s = .next (leftEvent s t) ∧
       (∀ x, readByte t x = if a ≤ x ∧ x < a + len ∧ deadAddr got x = false then BitVec.ofNat 8 (val >>> (8 * (x - a))) else readByte got x) ∧
       ∀ k, k ∈ t.poison ↔ (poisoned = true ∧ k ∈ sectorsOf a len) ∨ (k ∈ got.poison ∧ ¬ whole k)))

/-- The frame of classes 0x0, 0x1, 0x3, 0x5 and 0xE (R190–R199). The address a lane stores to is laneAddr, as the instruction
computes it, in the store of its own Tuft. -/
def Obligations.ThreadFrames : Prop :=
  ∀ (s : State) (i : Issue) (c : ICtx), Sound s ∧ NothingWaits s → 
    (∀ (op : IntOp) (wide : Bool),
     let n := if wide then 2 else 1
     Issues 0 i c s →
     NoneFails (useChecks i c { vd := n, va := if op == .mov then 0 else n, vb := n } ++ opReserved (op == .reserved)) →
     ∃ t g, exec (.integerOp i op wide) s = .next t ∧ { t with tufts := s.tufts, regs := s.regs } = s ∧
       (∀ r u, u < 65536 → r ≠ .tgCounts ∨ u ≠ c.t → regRaw t r u = regRaw s r u) ∧
       (∀ u, u ≠ c.t → tuft t u = tuft s u) ∧ (∀ k, k ≠ c.gi → groupGet t c.t k = groupGet s c.t k) ∧ groupGet t c.t c.gi = some g ∧
       g.sregs = c.g.sregs ∧ g.preds = c.g.preds ∧
       ∀ r l, l < 32 → r < iwDst (iw i) ∨ iwDst (iw i) + n ≤ r → vreg g r l = vreg c.g r l) ∧
    (∀ (op : FpOp) (dbl : Bool) (rnd : RndMod),
     let n := if dbl then 2 else 1
     let use : RegUse := { vd := n, va := n, vb := if op == .sqrt || op == .rcp then 0 else n, vc := if op == .fma then n else 0 }
     Issues 1 i c s →
     NoneFails (useChecks i c use ++ opReserved (op == .reserved || (dbl && (op == .div || op == .sqrt || op == .rcp)))) →
     ∃ t g, exec (.fpOp i op dbl rnd) s = .next t ∧ { t with tufts := s.tufts, regs := s.regs, work.tasks := s.work.tasks } = s ∧
       (∀ r u, u < 65536 → (r ≠ .tgCounts ∧ r ≠ .arithFlags ∧ r ≠ .arithCounts) ∨ u ≠ c.t → regRaw t r u = regRaw s r u) ∧
       (∀ u, u ≠ c.t → tuft t u = tuft s u) ∧ (∀ k, k ≠ c.gi → groupGet t c.t k = groupGet s c.t k) ∧ groupGet t c.t c.gi = some g ∧
       g.sregs = c.g.sregs ∧ g.preds = c.g.preds ∧
       ∀ r l, l < 32 → r < iwDst (iw i) ∨ iwDst (iw i) + n ≤ r → vreg g r l = vreg c.g r l) ∧
    (∀ (rel : CmpRel) (ty : CmpTy),
     let n := if ty == .s64 || ty == .u64 || ty == .fp64 then 2 else 1
     Issues 3 i c s →
     NoneFails (useChecks i c { va := n, vb := n, pd := true }) →
     ∃ t g, exec (.compareOp i (.cmp rel ty)) s = .next t ∧ { t with tufts := s.tufts, regs := s.regs, work.tasks := s.work.tasks } = s ∧
       (∀ r u, u < 65536 → (r ≠ .tgCounts ∧ r ≠ .arithFlags ∧ r ≠ .arithCounts) ∨ u ≠ c.t → regRaw t r u = regRaw s r u) ∧
       (∀ u, u ≠ c.t → tuft t u = tuft s u) ∧ (∀ k, k ≠ c.gi → groupGet t c.t k = groupGet s c.t k) ∧ groupGet t c.t c.gi = some g ∧
       g.sregs = c.g.sregs ∧ g.vregs = c.g.vregs ∧ ∀ p, p ≠ iwDst (iw i) → predReg g p = predReg c.g p) ∧
    (∀ (op : IntOp) (wide : Bool),
     Issues 14 i c s →
     NoneFails (useChecks i c { sd := true, sa := op != .mov, sb := true } ++ opReserved (op == .reserved)) →
     ∃ t g, exec (.scalarOp i op wide) s = .next t ∧ { t with tufts := s.tufts, regs := s.regs } = s ∧
       (∀ r u, u < 65536 → r ≠ .tgCounts ∨ u ≠ c.t → regRaw t r u = regRaw s r u) ∧
       (∀ u, u ≠ c.t → tuft t u = tuft s u) ∧ (∀ k, k ≠ c.gi → groupGet t c.t k = groupGet s c.t k) ∧ groupGet t c.t c.gi = some g ∧
       g.vregs = c.g.vregs ∧ g.preds = c.g.preds ∧ ∀ r, r ≠ iwDst (iw i) → sreg g r = sreg c.g r) ∧
    (∀ (size : Fin 5) (signed : Bool),
     let m : MemMod := { store := true, size := size, signed := signed }
     let n := 2 ^ size.val
     let as := laneAddrs i c false
     Issues 5 i c s →
     NoneFails (useChecks i c (memUse m 1) ++ scopeChecks i ++ [failIf (as.any (fun a => a.2 % n != 0)) 0x0462, failIf (as.any (fun a => decide (tkLimit c.task.d < a.2 + n))) 0x0463]) →
     ∃ t, exec (.tuftStoreAccess i m) s = .next t ∧ (∀ u, u ≠ c.t → tuft t u = tuft s u) ∧
       (∀ x, (∀ l ∈ lanesOf c.act, ¬ (storeKey c.t (laneAddr i c false l) ≤ x ∧ x < storeKey c.t (laneAddr i c false l) + n)) → readByte t x = readByte s x) ∧
       ∀ l, lanesOf c.act = [l] → (∀ x, x < n → deadAddr s (storeKey c.t (laneAddr i c false l) + x) = false) →
       storeNum t c.t (laneAddr i c false l) n = vregs c.g (iwDst (iw i)) (memRegs n) l % 256 ^ n)

/-- R399, Table CF-7: the checks common to all commands. R570: the lowest reason code is reported. -/
def Obligations.RefusedCommands : Prop :=
  ∀ (s : State) (c : Cmd), 
    (∀ (op : Nat) (body : OpenCmd → State → Body) (mk : Cmd → Instr),
     let code := lowest [failIf (afterDestroy (openOf c s) (startedAt c s)) 0x0102, some (commonCode c.door c.words (ownRecord c.door c.words) (startedAt c s))]
     (op, body, mk) ∈ [(0x00, nopBody, Instr.nop), (0x01, queryBody, Instr.query), (0x02, sqConfigBody, Instr.sqConfig), (0x03, cqConfigBody, Instr.cqConfig),
       (0x04, eqConfigBody, Instr.eqConfig), (0x08, regReadBody, Instr.regRead), (0x09, regWriteBody, Instr.regWrite), (0x0A, cfgReadBody, Instr.cfgRead),
       (0x0B, cfgWriteBody, Instr.cfgWrite), (0x10, jobCreateBody, Instr.jobCreate), (0x11, jobDestroyBody, Instr.jobDestroy), (0x19, graphCancelBody, Instr.graphCancel),
       (0x1C, seqOpenBody, Instr.seqOpen), (0x1D, seqCloseBody, Instr.seqClose), (0x20, bufCreateBody, Instr.bufCreate), (0x21, bufFreeBody, Instr.bufFree),
       (0x24, regionArmBody, Instr.regionArm), (0x25, regionQuiesceBody, Instr.regionQuiesce), (0x26, regionReleaseBody, Instr.regionRelease),
       (0x40, coresStartBody, Instr.coresStart), (0x41, hostDieResetBody, Instr.hostDieReset), (0x48, dirReadBody, Instr.dirRead), (0x61, imageStageBody, Instr.imageStage),
       (0x62, imageActivateBody, Instr.imageActivate), (0x63, svnCommitBody, Instr.svnCommit), (0x64, measureReadBody, Instr.measureRead), (0x65, attestBody, Instr.attest),
       (0x70, partCreateBody, Instr.partCreate), (0x71, partDestroyBody, Instr.partDestroy), (0x72, spareSwapBody, Instr.spareSwap), (0x75, patternBody, Instr.pattern),
       (0x78, netConfigBody, Instr.netConfig), (0x79, qpConfigBody, Instr.qpConfig), (0x7B, imageFetchBody, Instr.imageFetch), (0x7C, xgroupBody, Instr.xgroupOpen),
       (0x80, capSetBody, Instr.capSet), (0x81, phaseReadBody, Instr.phaseRead), (0x82, phaseLoadBody, Instr.phaseLoad), (0x83, pwReadBody, Instr.pwRead),
       (0x88, logReadBody, Instr.errLogRead), (0x89, selfTestBody, Instr.selfTest), (0x8B, injectBody, Instr.errInject)] →
     Powered s ∧ cmdOpcode c.words = op ∧ flagSet s obStatusReady 0 = true →
     (s.ob.openCmds.find? (fun o => o.door == c.door && o.words == c.words && !o.started)) = none →
     s.ob.openCmds.length < 1024 ∧ recordsFit (ownRecord c.door c.words) s = true →
     mayStart (openOf c s) (takeCmd c.door c.words (ownRecord c.door c.words) s).2 = true →
     code ≠ 0 →
     exec (mk c) s = .next (left s (endCmd (openOf c s) (endRefused (lowest [some code, bodyCode body (openOf c s) (startedAt c s)])) (startedAt c s)))) ∧
    (∀ (op : Nat) (mk : Cmd → Instr),
     (op, mk) ∈ [(0x00, Instr.nop), (0x01, Instr.query), (0x02, Instr.sqConfig), (0x03, Instr.cqConfig),
       (0x04, Instr.eqConfig), (0x08, Instr.regRead), (0x09, Instr.regWrite), (0x0A, Instr.cfgRead),
       (0x0B, Instr.cfgWrite), (0x10, Instr.jobCreate), (0x11, Instr.jobDestroy), (0x19, Instr.graphCancel),
       (0x1C, Instr.seqOpen), (0x1D, Instr.seqClose), (0x20, Instr.bufCreate), (0x21, Instr.bufFree),
       (0x24, Instr.regionArm), (0x25, Instr.regionQuiesce), (0x26, Instr.regionRelease),
       (0x40, Instr.coresStart), (0x41, Instr.hostDieReset), (0x48, Instr.dirRead), (0x61, Instr.imageStage),
       (0x62, Instr.imageActivate), (0x63, Instr.svnCommit), (0x64, Instr.measureRead), (0x65, Instr.attest),
       (0x70, Instr.partCreate), (0x71, Instr.partDestroy), (0x72, Instr.spareSwap), (0x75, Instr.pattern),
       (0x78, Instr.netConfig), (0x79, Instr.qpConfig), (0x7B, Instr.imageFetch), (0x7C, Instr.xgroupOpen),
       (0x80, Instr.capSet), (0x81, Instr.phaseRead), (0x82, Instr.phaseLoad), (0x83, Instr.pwRead),
       (0x88, Instr.errLogRead), (0x89, Instr.selfTest), (0x8B, Instr.errInject)] →
     Powered s ∧ flagSet s obStatusReady 0 = false →
     exec (mk c) s = .next (left s s))

/-- R262, R265, Tables MS-2, MS-3. -/
def Obligations.InterleaveInverts : Prop :=
  ∀ (pa : Nat), pa < 2 ^ 41 → 
    (let w := locWord pa
     granuleOf (homeOf pa) (bitsOf w 31 28) (bitsOf w 27 26) (bitsOf w 25 22) (bitsOf w 21 6) (bitsOf w 5 5) = pa / 1024) ∧
    (∀ (qa : Nat),
     qa < 2 ^ 41 →
     homeOf pa = homeOf qa ∧ locWord pa = locWord qa →
     pa / 32 = qa / 32)

/-- R427: "A burst takes a fixed route." R461: "A message from die A to die B takes one path, fixed by the pair alone". R445: Table
ON-1. What a class has had is counted while the port has messages waiting (log entry 139); stops stand on a ring in die-number
order (log entry 132). -/
def Obligations.RoutesAndPaths : Prop :=
  ∀ (s : State), 
    (∀ (spare : Fin 9) (a b : Fin 9 × Fin 4 × Fin 4),
     let start : HeathPos := (a.1.val, a.2.1.val, a.2.2.val)
     let stops := routeStops start (fixedRoute spare start (b.1, b.2.1, b.2.2))
     a.1 ≠ spare ∧ b.1 ≠ spare →
     stops.getLast?.getD start = (b.1.val, b.2.1.val, b.2.2.val) ∧ ∀ m ∈ stops, m.1 ≠ spare.val) ∧
    (∀ (spare p q : Fin 9) (n : Nat),
     p ≠ spare ∧ q ≠ spare →
     (xWalks spare q n p ≠ [] → (xRoute spare p q).length ≤ n) ∧ xRoute spare q p = (xRoute spare p q).reverse.map (fun d => d ^^^ 1)) ∧
    (∀ (a b : Nat) (l : Nat),
     linkJoining a b = some l ∧ linkCarries s l = true →
     loamPath s a b = .links [l]) ∧
    (∀ (a b : Fin 28),
     let way := if (b.val + 28 - a.val) % 28 ≤ 14 then 0 else 2
     let first := way + (a.val + b.val) % 2
     let other := way + 1 - (a.val + b.val) % 2
     (linkJoining a b).filter (linkCarries s) = none →
     (ringJoins s first a b = true → loamPath s a b = .ring first) ∧
       (ringJoins s first a b = false → ringJoins s other a b = true → loamPath s a b = .ring other)) ∧
    (∀ (p : EthNo) (waiting : List NetClass) (c d : NetClass),
     nextClass s p waiting = some c →
     c ∈ waiting ∧ (c ≠ .ctrl → d ≠ .ctrl → d ∈ waiting → lessServed s p d c = false)) ∧
    (∀ (p : EthNo) (waiting : List NetClass),
     NetClass.ctrl ∈ waiting →
     classSent s p 0 * 50 ≤ classSent s p 0 + classSent s p 1 + classSent s p 2 + classSent s p 3 + classSent s p 4 →
     nextClass s p waiting = some .ctrl)

/-- R343: "The cores' F and D arithmetic follows IEEE 754-2019 under the standard fcsr." The layout of fcsr, the modes and the
boxing of singles are the standard's. R351: minstret counts retired instructions; mcycle is a free value. -/
def Obligations.CoreFloatingPoint : Prop :=
  ∀ (s : State) (h : Nat) (op : CoreFpOp) (dbl : Bool) (rm rd ra rb rc : Nat), 
    let x := hart s h
    let f : Fmt := if dbl then .fp64 else .fp32
    let box := if dbl then 0 else (2 ^ 32 - 1) * 2 ^ 32
    (∀ (mode : RMode),
     let r := coreFpResult op f mode (fregOperand x dbl ra) (fregOperand x dbl rb) (fregOperand x dbl rc)
     let y := hart (coreFp h op dbl rm rd ra rb rc s) h
     coreMode x.fcsr rm = some mode →
     (op ≠ .eq → op ≠ .lt → op ≠ .le → tget y.fregs rd = some (box + r.1) ∧ ∀ k, k ≠ rd → tget y.fregs k = tget x.fregs k) ∧
       ((op = .eq ∨ op = .lt ∨ op = .le) → y.result = r.1 ∧ y.fregs = x.fregs) ∧
       y.fcsr = x.fcsr ||| fcsrFlags r.2 ∧ y.minstret = (x.minstret + 1) % 2 ^ 64)
end

