-- ==== Sys2Proof/Laws/Effect.lean ====
section
/-! SUPPORT. Sys2Proof/Laws/Effect.lean: what each wrapper of a command's effect leaves, and what an accepted Obiolo command
comes to. -/
namespace Sys2Proof

open Sys2Proof.Machine

theorem finish_eq (s t : State) : finish s t = .next (leftBare s t) := rfl

theorem act_powered {s t : State} (h : Powered s) : act s t = .next (leftBare s t) := by
  simp [act, finish, leftBare, h.1, h.2]

theorem homeAct_running {s t : State} (h : Running s) : homeAct s t = .next (leftBare s t) := by
  simp [homeAct, act_powered h.1, h.2]

theorem served_powered {s t : State} (h : Powered s) : served s t = .next (left s t) := by
  simp [served, act_powered h, left, leftEvent]

theorem happens_powered {s t : State} (h : Powered s) : happens s t = .next (leftEvent s t) := by
  simp [happens, act_powered h, leftEvent]

theorem onMeadow_up {m : Nat} {f : State → State} {s : State} (h : DieRuns s m) : onMeadow m f s = .next (left s (f s)) := by
  simp [onMeadow, meadowUp, h.1.2, h.2, served_powered h.1.1]

theorem onTuft_up {t : TuftNo} {f : State → State} {s : State} (h : TuftRuns s t.val) : onTuft t f s = .next (left s (f s)) :=
  onMeadow_up h

theorem onSward_up {w : SwardNo} {f : State → State} {s : State} (h : DieRuns s (w.val / 16)) :
    onSward w f s = .next (left s (f s)) := onMeadow_up h

theorem onHome_up {h : Nat} {f : State → State} {s : State} (hr : HomeRuns s h) : onHome h f s = .next (leftEvent s (f s)) := by
  simp [onHome, homeUp, hr.1.2, hr.2, happens_powered hr.1.1]

theorem onUnit_up {u : Nat} {f : State → State} {s : State} (h : DieRuns s (dieOfXunit u)) :
    onUnit u f s = .next (left s (f s)) := by
  simp [onUnit, h.1.2, h.2, served_powered h.1.1]

theorem onLink_up {f : State → State} {s : State} (h : LinkRuns s) : onLink f s = .next (left s (f s)) := by
  simp [onLink, h.2, served_powered h.1]

theorem onPort_up {p : Nat} {f : State → State} {s : State} (h : DieRuns s (26 + p / 8)) : onPort p f s = .next (left s (f s)) := by
  simp [onPort, h.1.2, h.2, served_powered h.1.1]

theorem onEth_up {p : Nat} {f : State → State} {s : State} (h : DieRuns s (26 + p / 2)) : onEth p f s = .next (left s (f s)) := by
  simp [onEth, h.1.2, h.2, served_powered h.1.1]

theorem onFabric_runs {f : State → State} {s : State} (h : Running s) : onFabric f s = .next (left s (f s)) := by
  simp [onFabric, h.2, served_powered h.1]

theorem onPackage_runs {f : State → State} {s : State} (h : Running s) : onPackage f s = .next (leftEvent s (f s)) := by
  simp [onPackage, h.2, happens_powered h.1]

theorem onPin_leaves {f : State → State} {s : State} : onPin f s = .next (leftPin s (f s)) := rfl

theorem spdmGo_hears {mctp : Bool} {go : State → State} {s : State} (h : SpdmHears mctp s) : spdmGo mctp go s = go s := by
  obtain ⟨⟨h1, h2⟩, h3, h4, h5, h6⟩ := h
  have h7 : ((s.start.due.isSome || s.start.halted) && !flagSet s obStatusReady 0) = false := by rcases h5 with h | h <;> simp [h]
  have h8 : (!mctp && (selfHosted s || !flagSet s hlStatusLinkUp 0)) = false := by rcases h6 with h | ⟨h, h'⟩ <;> simp [*]
  simp [spdmGo, h1, h2, h3, h4, h7, h8]

theorem lowest_none (l : List (Option Nat)) : lowest (none :: l) = lowest l := by simp [lowest]

/-- An instruction that comes to issue and fails no check is counted; it runs on its context where its guard leaves a lane. -/
theorem issueOp_reaches {cls : Nat} {i : Issue} {c : ICtx} {s : State} {use : ICtx → State → RegUse}
    {checks : ICtx → State → List (Option Nat)} {go : ICtx → State → State} (h : Reaches cls i c s)
    (hc : NoneFails (useChecks i c (use c s) ++ checks c s)) :
    issueOp cls i use checks go s =
      if c.act = 0 then advance c (counted i c (use c s) s) else go c (counted i c (use c s) s) := by
  obtain ⟨_, hlt, hcls, ht, hgi, hg, hp, htask, hrun, hline, hturn, hop, hact, hnext⟩ := h
  obtain ⟨t, gi, g, lanes, act, pc, next, task, again⟩ := c
  simp only at ht hgi hg hp htask hrun hline hturn hact hnext hc
  subst ht hgi hact hnext
  have h15 : (cls == 15) = false := by simp; omega
  have hwait : (!again && !itsTurn i (tuft s i.tuft.val)) = false := by rcases hturn with h | h <;> simp [h]
  simp only [issueOp, hg, hp, htask, hrun, hline, hcls, h15, hop, failIf, List.cons_append, lowest_none, Bool.false_eq_true, if_false,
    bne_self_eq_false, Bool.not_true, Bool.or_self, Bool.false_and, hc, hwait]

theorem issueOp_issues {cls : Nat} {i : Issue} {c : ICtx} {s : State} {use : ICtx → State → RegUse}
    {checks : ICtx → State → List (Option Nat)} {go : ICtx → State → State} (h : Issues cls i c s)
    (hc : NoneFails (useChecks i c (use c s) ++ checks c s)) :
    issueOp cls i use checks go s = go c (counted i c (use c s) s) := by
  rw [issueOp_reaches h.1 hc, if_neg h.2]

theorem issueOp_guarded {cls : Nat} {i : Issue} {c : ICtx} {s : State} {use : ICtx → State → RegUse}
    {checks : ICtx → State → List (Option Nat)} {go : ICtx → State → State} (h : GuardedOff cls i c s)
    (hc : NoneFails (useChecks i c (use c s) ++ checks c s)) :
    issueOp cls i use checks go s = advance c (counted i c (use c s) s) := by
  rw [issueOp_reaches h.1 hc, if_pos h.2]

@[simp] theorem openOf_words (c : Cmd) (s : State) (want : List (Nat × Nat)) : (openOf c s want).words = c.words := rfl
@[simp] theorem openOf_door (c : Cmd) (s : State) (want : List (Nat × Nat)) : (openOf c s want).door = c.door := rfl

/-- What an accepted command comes to: its body's ending, or the state its body leaves where it runs on. -/
def bodyLeaves (oc : OpenCmd) : Body → State
  | .ends e u => endCmd oc e u
  | .runs u => u

/-- What is put under a key is found there. -/
theorem tget_tput_self {α : Type} (t : Table α) (k : Nat) (a : α) : tget (tput t k a) k = some a := by
  induction t with
  | nil => simp [tput, tget]
  | cons e t ih =>
    obtain ⟨j, b⟩ := e
    rcases Nat.lt_trichotomy k j with h | h | h
    · simp [tput, tget, h]
    · simp [tput, tget, h]
    · have : ¬ k < j := by omega
      have hne : ¬ k = j := by omega
      have hne' : ¬ j = k := by omega
      simp [tput, tget, this, hne, hne', ih]

/-- An instruction of a hart that leaves a result retires. -/
theorem coreInstr_gets {h v : Nat} {f : State → State} {s t : State} (hu : coreUp s h = true) (hf : f s = hartGets h v t) :
    coreInstr h f s = retires h (hartGets h v t) := by
  have : (hart (hartGets h v t) h).fault = 0 := by simp [hart, hartGets, setHart, tgetD, tget_tput_self]
  simp [coreInstr, hu, hf, this]

/-- What a core's access of 2^z bytes of device memory is, a store, a load or a fetch; a fetch elsewhere is barred. -/
theorem coreAccess_store {s : State} {h pa z v : Nat} (H1 : coreUp s h = true) (h1 : coreMem s pa (2 ^ z) = true) :
    coreAccess h pa .store z v s = hartGets h 0 (coreWrite h pa (2 ^ z) (v % 256 ^ 2 ^ z) s) := by
  unfold coreAccess; dsimp only; rw [if_neg (by simp [H1]), if_pos h1]
theorem coreAccess_load {s : State} {h pa z v : Nat} (H1 : coreUp s h = true) (h1 : coreMem s pa (2 ^ z) = true) :
    coreAccess h pa .load z v s = coreLoad h 2 pa (2 ^ z) s := by
  unfold coreAccess; dsimp only; rw [if_neg (by simp [H1]), if_pos h1]
theorem coreAccess_fetch {s : State} {h pa z v : Nat} (H1 : coreUp s h = true) (h1 : coreMem s pa (2 ^ z) = false) :
    coreAccess h pa .fetch z v s = coreBarred h 1 pa (2 ^ z) s := by
  unfold coreAccess; dsimp only; rw [if_neg (by simp [H1]), if_neg (by simp [h1])]

/-- One that faults does not. -/
theorem coreInstr_faults {h k : Nat} {f : State → State} {s t : State} (hu : coreUp s h = true) (hk : k ≠ 0) (hf : f s = hartFaults h k t) :
    coreInstr h f s = hartFaults h k t := by
  have : (hart (hartFaults h k t) h).fault = k := by simp [hart, hartFaults, setHart, tgetD, tget_tput_self]
  simp [coreInstr, hu, hf, this, hk]

theorem lowest_zero : lowest [none, some 0] = 0 := by decide

theorem runWith_accepts {op : Nat} {b : Bool} {resv : State → List (Nat × Nat)} {body : OpenCmd → State → Body}
    {gate : OpenCmd → State → Bool} {c : Cmd} {s : State} (h : Accepts op c s (resv s) gate) (hb : b = true) :
    runWith b resv body c s gate
      = bodyLeaves (openOf c s (resv s)) (body (openOf c s (resv s)) (startedAt c s (resv s))) := by
  obtain ⟨_, _, h3, h4, h5, h6, h7, h8, h9, h10⟩ := h
  have hs : startCmd gate body (openOf c s (resv s)) (takeCmd c.door c.words (resv s) s).2
      = runStarted body (openOf c s (resv s)) (startedAt c s (resv s)) := by simp [startCmd, h7, h10, startedAt]
  have hc : commonCode (openOf c s (resv s)).door (openOf c s (resv s)).words (openOf c s (resv s)).want
      (startedAt c s (resv s)) = 0 := h9
  have hr : runStarted body (openOf c s (resv s)) (startedAt c s (resv s))
      = bodyLeaves (openOf c s (resv s)) (body (openOf c s (resv s)) (startedAt c s (resv s))) := by
    unfold runStarted
    rw [hc, h8]
    simp only [failIf, Bool.false_eq_true, if_false, lowest_zero, bne_self_eq_false]
    cases body (openOf c s (resv s)) (startedAt c s (resv s)) <;> rfl
  unfold runWith
  rw [hb, h3, h4]
  simp only [Bool.not_true, Bool.or_self, Bool.false_eq_true, if_false, h6, Nat.not_le.mpr h5]
  exact hs.trans hr

theorem runCmd_accepts {op : Nat} {body : OpenCmd → State → Body} {c : Cmd} {s : State} (h : Accepts op c s) :
    runCmd op body c s = bodyLeaves (openOf c s) (body (openOf c s) (startedAt c s)) :=
  runWith_accepts (resv := fun _ => ownRecord c.door c.words) h (by simp [h.2.1])

theorem runTable_accepts {op : Nat} {mine : List W64 → Bool} {body : OpenCmd → State → Body} {c : Cmd} {s : State}
    (h : Accepts op c s (ownRecord c.door c.words) tableGate) (hm : mine c.words = true) :
    runTable op mine body c s = bodyLeaves (openOf c s) (body (openOf c s) (startedAt c s)) :=
  runWith_accepts (resv := fun _ => ownRecord c.door c.words) h (by simp [h.2.1, hm])

theorem regWriteBody_writes {r : Reg} {c : Cmd} {s t : State} (hn : NamesReg r c)
    (hc : NoneFails (writeCodes t r (wordBits c.words 1 31 16) (regRaw t r (wordBits c.words 1 31 16)) (writtenBy r c t)
      (wordAt c.words 2) (wordAt c.words 3 % 2 ^ min 64 (regWidth r)))) :
    let w := regApply r (wordBits c.words 1 31 16) (wordAt c.words 2) (wordAt c.words 3 % 2 ^ min 64 (regWidth r)) t
    regWriteBody (openOf c s) t = .ends (endReg w r (wordBits c.words 1 31 16)) w := by
  intro w
  have hg : regWriteGo r (wordBits c.words 1 31 16) (wordAt c.words 2) (wordAt c.words 3) t = .ok w := by
    unfold NoneFails writtenBy at hc
    simp only [regWriteGo, hc, hn.2.2]
    rfl
  simp [regWriteBody, hn.2.1, hg]

theorem regWrite_accepts {op : Nat} {r : Reg} {c : Cmd} {s : State} (h : Accepts op c s) (hop : op = 0x09) (hn : NamesReg r c)
    (hc : NoneFails (writeCodes (startedAt c s) r (wordBits c.words 1 31 16) (regRaw (startedAt c s) r (wordBits c.words 1 31 16))
      (writtenBy r c (startedAt c s)) (wordAt c.words 2) (wordAt c.words 3 % 2 ^ min 64 (regWidth r)))) :
    let w := regApply r (wordBits c.words 1 31 16) (wordAt c.words 2) (wordAt c.words 3 % 2 ^ min 64 (regWidth r)) (startedAt c s)
    doRegWriteOf r c s = endCmd (openOf c s) (endReg w r (wordBits c.words 1 31 16)) w := by
  intro w
  have hw := regWriteBody_writes (s := s) hn hc
  unfold doRegWriteOf
  rw [runWith_accepts (resv := fun _ => ownRecord c.door c.words) h (by simp [h.2.1, hop, hn.1]), hw]
  rfl

/-- A register whose write does nothing but store its value takes the merged value. -/
theorem regApply_plain {r : Reg} (h : r = .coCtrl ∨ r = .atCtrl ∨ r = .obCtrl ∨ r = .mgCtrl ∨ r = .hlRpInwin) (u v m : Nat)
    (s : State) : regApply r u v m s = setRegRaw r u (merged r (regRaw s r u) v m) s := by
  have hz : fieldMask r (fun x => x.acc == .w1c) = 0 ∧ fieldMask r (fun x => x.acc == .w1s) = 0 := by
    obtain rfl | rfl | rfl | rfl | rfl := h <;> decide
  obtain rfl | rfl | rfl | rfl | rfl := h <;> simp [regApply, hz, without]

end Sys2Proof
end

