-- ==== Sys2Proof/Laws/Memory.lean ====
section
/-! SUPPORT. Sys2Proof/Laws/Memory.lean: every operation over device memory keeps the canonical form, and what each leaves at
every address. -/
namespace Sys2Proof.Machine

/-- Every address of the list lies above `b`. -/
def memAbove (b : Nat) (m : List Host.Cell) : Prop := ∀ c ∈ m, b < c.1

theorem memAbove_nil (b : Nat) : memAbove b [] := by simp [memAbove]

theorem memAbove_cons {b : Nat} {c : Host.Cell} {t : List Host.Cell} : memAbove b (c :: t) ↔ b < c.1 ∧ memAbove b t := by
  simp [memAbove]

theorem memAbove_mono {b c : Nat} {m : List Host.Cell} (hbc : b < c) (h : memAbove c m) : memAbove b m :=
  fun x hx => Nat.lt_trans hbc (h x hx)

theorem memWf_cons {j : Nat} {b : Byte} {t : List Host.Cell} :
    memWf ((j, b) :: t) = true ↔ b ≠ 0 ∧ memAbove j t ∧ memWf t = true := by
  induction t generalizing j b with
  | nil => simp [memWf, memAbove_nil]
  | cons c t ih =>
    obtain ⟨k, c⟩ := c
    simp only [memWf, Bool.and_eq_true, bne_iff_ne, decide_eq_true_eq, memAbove_cons]
    exact ⟨fun ⟨⟨hb, hj⟩, hw⟩ => ⟨hb, ⟨hj, memAbove_mono hj (ih.mp hw).2.1⟩, hw⟩, fun ⟨hb, ⟨hj, _⟩, hw⟩ => ⟨⟨hb, hj⟩, hw⟩⟩

theorem memGet_above {m : List Host.Cell} {a j : Nat} (h : memAbove j m) (ha : a ≤ j) : memGet m a = 0 := by
  induction m with
  | nil => rfl
  | cons c t ih =>
    obtain ⟨hc, ht⟩ := memAbove_cons.mp h
    simp only [memGet, show c.1 ≠ a by omega, if_false, ih ht]

theorem memAbove_drop {m : List Host.Cell} {a j : Nat} (h : memAbove j m) : memAbove j (memDrop m a) := by
  induction m with
  | nil => exact h
  | cons c t ih =>
    obtain ⟨hc, ht⟩ := memAbove_cons.mp h
    unfold memDrop
    split <;> simp_all [memAbove_cons]

theorem memAbove_ins {m : List Host.Cell} {a j : Nat} {b : Byte} (h : memAbove j m) (ha : j < a) :
    memAbove j (memIns m a b) := by
  induction m with
  | nil => simp [memIns, memAbove, ha]
  | cons c t ih =>
    obtain ⟨hc, ht⟩ := memAbove_cons.mp h
    unfold memIns
    split
    · simp [memAbove_cons, ha, hc, ht]
    · split <;> simp [memAbove_cons, ha, hc, ht, ih ht]

theorem memWf_drop {m : List Host.Cell} {a : Nat} (h : memWf m = true) : memWf (memDrop m a) = true := by
  induction m with
  | nil => rfl
  | cons c t ih =>
    obtain ⟨hb, hj, ht⟩ := memWf_cons.mp h
    simp only [memDrop]
    split
    · exact ht
    · exact memWf_cons.mpr ⟨hb, memAbove_drop hj, ih ht⟩

theorem memWf_ins {m : List Host.Cell} {a : Nat} {b : Byte} (h : memWf m = true) (hb : b ≠ 0) :
    memWf (memIns m a b) = true := by
  induction m with
  | nil => simpa [memIns, memWf] using hb
  | cons c t ih =>
    obtain ⟨hc, hj, ht⟩ := memWf_cons.mp h
    simp only [memIns]
    split
    · rename_i h1
      exact memWf_cons.mpr ⟨hb, memAbove_cons.mpr ⟨h1, memAbove_mono h1 hj⟩, h⟩
    · split
      · rename_i h2
        exact memWf_cons.mpr ⟨hb, h2 ▸ hj, ht⟩
      · exact memWf_cons.mpr ⟨hc, memAbove_ins hj (by omega), ih ht⟩

theorem memWf_put {m : List Host.Cell} {a : Nat} {b : Byte} (h : memWf m = true) : memWf (memPut m a b) = true := by
  unfold memPut
  split
  · exact memWf_drop h
  · exact memWf_ins h ‹_›

theorem memWf_zero {m : List Host.Cell} {a n : Nat} (h : memWf m = true) : memWf (memZero m a n) = true := by
  induction m with
  | nil => rfl
  | cons c t ih =>
    obtain ⟨hb, hj, ht⟩ := memWf_cons.mp h
    simp only [memZero, List.filter_cons]
    split
    · exact memWf_cons.mpr ⟨hb, fun x hx => hj x (List.mem_filter.mp hx).1, ih ht⟩
    · exact ih ht

theorem memWf_op {o : MemOp} {m : List Host.Cell} (h : memWf m = true) : memWf (memOp o m) = true := by
  cases o with
  | put a b => exact memWf_put h
  | zero a n => exact memWf_zero h

/-- A command's writes keep the canonical form of device memory. -/
theorem memWf_commit {w : List MemOp} {m : List Host.Cell} (h : memWf m = true) : memWf (memCommit w m) = true := by
  induction w with
  | nil => exact h
  | cons o t ih => exact memWf_op ih

theorem memGet_drop {m : List Host.Cell} (h : memWf m = true) (a x : Nat) :
    memGet (memDrop m a) x = if a = x then 0 else memGet m x := by
  induction m with
  | nil => simp [memDrop, memGet]
  | cons c t ih =>
    obtain ⟨j, b⟩ := c
    obtain ⟨_, hj, ht⟩ := memWf_cons.mp h
    simp only [memDrop]
    by_cases h1 : j = a
    · subst h1
      by_cases h2 : j = x
      · subst h2
        simp [memGet_above hj]
      · simp [memGet, h2]
    · by_cases h2 : j = x
      · subst h2
        simp [memGet, h1, Ne.symm h1]
      · simp [memGet, h1, h2, ih ht]

theorem memGet_ins {m : List Host.Cell} (a x : Nat) (b : Byte) : memGet (memIns m a b) x = if a = x then b else memGet m x := by
  induction m with
  | nil => simp [memIns, memGet]
  | cons c t ih =>
    obtain ⟨j, c⟩ := c
    simp only [memIns]
    split
    · simp [memGet]
    · split
      · rename_i h2
        subst h2
        simp only [memGet]
        split <;> rfl
      · simp only [memGet, ih]
        split <;> split <;> first | rfl | omega

/-- A byte written reads back; every other byte reads as before. -/
theorem memGet_put {m : List Host.Cell} (h : memWf m = true) (a x : Nat) (b : Byte) :
    memGet (memPut m a b) x = if a = x then b else memGet m x := by
  unfold memPut
  split
  · rename_i hb
    rw [memGet_drop h, hb]
  · exact memGet_ins a x b

theorem memGet_zero {m : List Host.Cell} (h : memWf m = true) (a n x : Nat) :
    memGet (memZero m a n) x = if a ≤ x ∧ x < a + n then 0 else memGet m x := by
  induction m with
  | nil => simp [memZero, memGet]
  | cons c t ih =>
    obtain ⟨j, b⟩ := c
    obtain ⟨_, hj, ht⟩ := memWf_cons.mp h
    have hi := ih ht
    simp only [memZero, List.filter_cons] at hi ⊢
    split
    · rename_i hk
      simp only [Bool.or_eq_true, decide_eq_true_eq] at hk
      simp only [memGet, hi]
      by_cases h2 : j = x
      · subst h2
        rw [if_pos rfl, if_neg (by omega)]
        simp
      · simp [h2]
    · rename_i hk
      simp only [Bool.or_eq_true, decide_eq_true_eq, not_or] at hk
      rw [hi]
      by_cases h2 : j = x
      · subst h2
        rw [if_pos (by omega), if_pos (by omega)]
      · simp [memGet, h2]

end Sys2Proof.Machine
end

