-- ==== Sys2Proof/Laws/State.lean ====
section
/-! SUPPORT. Sys2Proof/Laws/State.lean: what each named update of the state leaves in each field. -/
namespace Sys2Proof.Machine

/-! ## `setRegRaw` -/

@[simp] theorem setRegRaw_pending (r : Reg) (u v : Nat) (s : State) : (setRegRaw r u v s).pending = s.pending := rfl
@[simp] theorem setRegRaw_mem (r : Reg) (u v : Nat) (s : State) : (setRegRaw r u v s).mem = s.mem := rfl
@[simp] theorem setRegRaw_wq (r : Reg) (u v : Nat) (s : State) : (setRegRaw r u v s).wq = s.wq := rfl
@[simp] theorem setRegRaw_poison (r : Reg) (u v : Nat) (s : State) : (setRegRaw r u v s).poison = s.poison := rfl
@[simp] theorem setRegRaw_regs (r : Reg) (u v : Nat) (s : State) : (setRegRaw r u v s).regs = tput s.regs (regKey r u) (BitVec.ofNat 128 v) := rfl
@[simp] theorem setRegRaw_freeCtr (r : Reg) (u v : Nat) (s : State) : (setRegRaw r u v s).freeCtr = s.freeCtr := rfl
@[simp] theorem setRegRaw_hostOut (r : Reg) (u v : Nat) (s : State) : (setRegRaw r u v s).hostOut = s.hostOut := rfl
@[simp] theorem setRegRaw_fabOut (r : Reg) (u v : Nat) (s : State) : (setRegRaw r u v s).fabOut = s.fabOut := rfl
@[simp] theorem setRegRaw_ob (r : Reg) (u v : Nat) (s : State) : (setRegRaw r u v s).ob = s.ob := rfl
@[simp] theorem setRegRaw_err (r : Reg) (u v : Nat) (s : State) : (setRegRaw r u v s).err = s.err := rfl
@[simp] theorem setRegRaw_timer (r : Reg) (u v : Nat) (s : State) : (setRegRaw r u v s).timer = s.timer := rfl
@[simp] theorem setRegRaw_link (r : Reg) (u v : Nat) (s : State) : (setRegRaw r u v s).link = s.link := rfl
@[simp] theorem setRegRaw_cores (r : Reg) (u v : Nat) (s : State) : (setRegRaw r u v s).cores = s.cores := rfl
@[simp] theorem setRegRaw_start (r : Reg) (u v : Nat) (s : State) : (setRegRaw r u v s).start = s.start := rfl
@[simp] theorem setRegRaw_retired (r : Reg) (u v : Nat) (s : State) : (setRegRaw r u v s).retired = s.retired := rfl
@[simp] theorem setRegRaw_lostHomes (r : Reg) (u v : Nat) (s : State) : (setRegRaw r u v s).lostHomes = s.lostHomes := rfl
@[simp] theorem setRegRaw_hay (r : Reg) (u v : Nat) (s : State) : (setRegRaw r u v s).hay = s.hay := rfl
@[simp] theorem setRegRaw_coh (r : Reg) (u v : Nat) (s : State) : (setRegRaw r u v s).coh = s.coh := rfl
@[simp] theorem setRegRaw_xl (r : Reg) (u v : Nat) (s : State) : (setRegRaw r u v s).xl = s.xl := rfl
@[simp] theorem setRegRaw_tufts (r : Reg) (u v : Nat) (s : State) : (setRegRaw r u v s).tufts = s.tufts := rfl
@[simp] theorem setRegRaw_copies (r : Reg) (u v : Nat) (s : State) : (setRegRaw r u v s).copies = s.copies := rfl
@[simp] theorem setRegRaw_work (r : Reg) (u v : Nat) (s : State) : (setRegRaw r u v s).work = s.work := rfl
@[simp] theorem setRegRaw_stile (r : Reg) (u v : Nat) (s : State) : (setRegRaw r u v s).stile = s.stile := rfl
@[simp] theorem setRegRaw_res (r : Reg) (u v : Nat) (s : State) : (setRegRaw r u v s).res = s.res := rfl
@[simp] theorem setRegRaw_fab (r : Reg) (u v : Nat) (s : State) : (setRegRaw r u v s).fab = s.fab := rfl
@[simp] theorem setRegRaw_pins (r : Reg) (u v : Nat) (s : State) : (setRegRaw r u v s).pins = s.pins := rfl
@[simp] theorem setRegRaw_net (r : Reg) (u v : Nat) (s : State) : (setRegRaw r u v s).net = s.net := rfl
@[simp] theorem setRegRaw_loam (r : Reg) (u v : Nat) (s : State) : (setRegRaw r u v s).loam = s.loam := rfl
@[simp] theorem setRegRaw_tap (r : Reg) (u v : Nat) (s : State) : (setRegRaw r u v s).tap = s.tap := rfl
@[simp] theorem setRegRaw_pw (r : Reg) (u v : Nat) (s : State) : (setRegRaw r u v s).pw = s.pw := rfl
@[simp] theorem setRegRaw_sec (r : Reg) (u v : Nat) (s : State) : (setRegRaw r u v s).sec = s.sec := rfl
@[simp] theorem setRegRaw_mg (r : Reg) (u v : Nat) (s : State) : (setRegRaw r u v s).mg = s.mg := rfl
@[simp] theorem setRegRaw_elec (r : Reg) (u v : Nat) (s : State) : (setRegRaw r u v s).elec = s.elec := rfl

/-! ## `setF` -/

@[simp] theorem setF_pending (f : Field) (u x : Nat) (s : State) : (setF f u x s).pending = s.pending := rfl
@[simp] theorem setF_mem (f : Field) (u x : Nat) (s : State) : (setF f u x s).mem = s.mem := rfl
@[simp] theorem setF_wq (f : Field) (u x : Nat) (s : State) : (setF f u x s).wq = s.wq := rfl
@[simp] theorem setF_poison (f : Field) (u x : Nat) (s : State) : (setF f u x s).poison = s.poison := rfl
@[simp] theorem setF_regs (f : Field) (u x : Nat) (s : State) : (setF f u x s).regs = tput s.regs (regKey f.reg u) (BitVec.ofNat 128 (withBits (regRaw s f.reg u) f.hi f.lo x)) := rfl
@[simp] theorem setF_freeCtr (f : Field) (u x : Nat) (s : State) : (setF f u x s).freeCtr = s.freeCtr := rfl
@[simp] theorem setF_hostOut (f : Field) (u x : Nat) (s : State) : (setF f u x s).hostOut = s.hostOut := rfl
@[simp] theorem setF_fabOut (f : Field) (u x : Nat) (s : State) : (setF f u x s).fabOut = s.fabOut := rfl
@[simp] theorem setF_ob (f : Field) (u x : Nat) (s : State) : (setF f u x s).ob = s.ob := rfl
@[simp] theorem setF_err (f : Field) (u x : Nat) (s : State) : (setF f u x s).err = s.err := rfl
@[simp] theorem setF_timer (f : Field) (u x : Nat) (s : State) : (setF f u x s).timer = s.timer := rfl
@[simp] theorem setF_link (f : Field) (u x : Nat) (s : State) : (setF f u x s).link = s.link := rfl
@[simp] theorem setF_cores (f : Field) (u x : Nat) (s : State) : (setF f u x s).cores = s.cores := rfl
@[simp] theorem setF_start (f : Field) (u x : Nat) (s : State) : (setF f u x s).start = s.start := rfl
@[simp] theorem setF_retired (f : Field) (u x : Nat) (s : State) : (setF f u x s).retired = s.retired := rfl
@[simp] theorem setF_lostHomes (f : Field) (u x : Nat) (s : State) : (setF f u x s).lostHomes = s.lostHomes := rfl
@[simp] theorem setF_hay (f : Field) (u x : Nat) (s : State) : (setF f u x s).hay = s.hay := rfl
@[simp] theorem setF_coh (f : Field) (u x : Nat) (s : State) : (setF f u x s).coh = s.coh := rfl
@[simp] theorem setF_xl (f : Field) (u x : Nat) (s : State) : (setF f u x s).xl = s.xl := rfl
@[simp] theorem setF_tufts (f : Field) (u x : Nat) (s : State) : (setF f u x s).tufts = s.tufts := rfl
@[simp] theorem setF_copies (f : Field) (u x : Nat) (s : State) : (setF f u x s).copies = s.copies := rfl
@[simp] theorem setF_work (f : Field) (u x : Nat) (s : State) : (setF f u x s).work = s.work := rfl
@[simp] theorem setF_stile (f : Field) (u x : Nat) (s : State) : (setF f u x s).stile = s.stile := rfl
@[simp] theorem setF_res (f : Field) (u x : Nat) (s : State) : (setF f u x s).res = s.res := rfl
@[simp] theorem setF_fab (f : Field) (u x : Nat) (s : State) : (setF f u x s).fab = s.fab := rfl
@[simp] theorem setF_pins (f : Field) (u x : Nat) (s : State) : (setF f u x s).pins = s.pins := rfl
@[simp] theorem setF_net (f : Field) (u x : Nat) (s : State) : (setF f u x s).net = s.net := rfl
@[simp] theorem setF_loam (f : Field) (u x : Nat) (s : State) : (setF f u x s).loam = s.loam := rfl
@[simp] theorem setF_tap (f : Field) (u x : Nat) (s : State) : (setF f u x s).tap = s.tap := rfl
@[simp] theorem setF_pw (f : Field) (u x : Nat) (s : State) : (setF f u x s).pw = s.pw := rfl
@[simp] theorem setF_sec (f : Field) (u x : Nat) (s : State) : (setF f u x s).sec = s.sec := rfl
@[simp] theorem setF_mg (f : Field) (u x : Nat) (s : State) : (setF f u x s).mg = s.mg := rfl
@[simp] theorem setF_elec (f : Field) (u x : Nat) (s : State) : (setF f u x s).elec = s.elec := rfl

/-! ## `bump` -/

@[simp] theorem bump_pending (f : Field) (u n : Nat) (s : State) : (bump f u n s).pending = s.pending := rfl
@[simp] theorem bump_mem (f : Field) (u n : Nat) (s : State) : (bump f u n s).mem = s.mem := rfl
@[simp] theorem bump_wq (f : Field) (u n : Nat) (s : State) : (bump f u n s).wq = s.wq := rfl
@[simp] theorem bump_poison (f : Field) (u n : Nat) (s : State) : (bump f u n s).poison = s.poison := rfl
@[simp] theorem bump_regs (f : Field) (u n : Nat) (s : State) : (bump f u n s).regs = (setF f u (getF s f u + n) s).regs := rfl
@[simp] theorem bump_freeCtr (f : Field) (u n : Nat) (s : State) : (bump f u n s).freeCtr = s.freeCtr := rfl
@[simp] theorem bump_hostOut (f : Field) (u n : Nat) (s : State) : (bump f u n s).hostOut = s.hostOut := rfl
@[simp] theorem bump_fabOut (f : Field) (u n : Nat) (s : State) : (bump f u n s).fabOut = s.fabOut := rfl
@[simp] theorem bump_ob (f : Field) (u n : Nat) (s : State) : (bump f u n s).ob = s.ob := rfl
@[simp] theorem bump_err (f : Field) (u n : Nat) (s : State) : (bump f u n s).err = s.err := rfl
@[simp] theorem bump_timer (f : Field) (u n : Nat) (s : State) : (bump f u n s).timer = s.timer := rfl
@[simp] theorem bump_link (f : Field) (u n : Nat) (s : State) : (bump f u n s).link = s.link := rfl
@[simp] theorem bump_cores (f : Field) (u n : Nat) (s : State) : (bump f u n s).cores = s.cores := rfl
@[simp] theorem bump_start (f : Field) (u n : Nat) (s : State) : (bump f u n s).start = s.start := rfl
@[simp] theorem bump_retired (f : Field) (u n : Nat) (s : State) : (bump f u n s).retired = s.retired := rfl
@[simp] theorem bump_lostHomes (f : Field) (u n : Nat) (s : State) : (bump f u n s).lostHomes = s.lostHomes := rfl
@[simp] theorem bump_hay (f : Field) (u n : Nat) (s : State) : (bump f u n s).hay = s.hay := rfl
@[simp] theorem bump_coh (f : Field) (u n : Nat) (s : State) : (bump f u n s).coh = s.coh := rfl
@[simp] theorem bump_xl (f : Field) (u n : Nat) (s : State) : (bump f u n s).xl = s.xl := rfl
@[simp] theorem bump_tufts (f : Field) (u n : Nat) (s : State) : (bump f u n s).tufts = s.tufts := rfl
@[simp] theorem bump_copies (f : Field) (u n : Nat) (s : State) : (bump f u n s).copies = s.copies := rfl
@[simp] theorem bump_work (f : Field) (u n : Nat) (s : State) : (bump f u n s).work = s.work := rfl
@[simp] theorem bump_stile (f : Field) (u n : Nat) (s : State) : (bump f u n s).stile = s.stile := rfl
@[simp] theorem bump_res (f : Field) (u n : Nat) (s : State) : (bump f u n s).res = s.res := rfl
@[simp] theorem bump_fab (f : Field) (u n : Nat) (s : State) : (bump f u n s).fab = s.fab := rfl
@[simp] theorem bump_pins (f : Field) (u n : Nat) (s : State) : (bump f u n s).pins = s.pins := rfl
@[simp] theorem bump_net (f : Field) (u n : Nat) (s : State) : (bump f u n s).net = s.net := rfl
@[simp] theorem bump_loam (f : Field) (u n : Nat) (s : State) : (bump f u n s).loam = s.loam := rfl
@[simp] theorem bump_tap (f : Field) (u n : Nat) (s : State) : (bump f u n s).tap = s.tap := rfl
@[simp] theorem bump_pw (f : Field) (u n : Nat) (s : State) : (bump f u n s).pw = s.pw := rfl
@[simp] theorem bump_sec (f : Field) (u n : Nat) (s : State) : (bump f u n s).sec = s.sec := rfl
@[simp] theorem bump_mg (f : Field) (u n : Nat) (s : State) : (bump f u n s).mg = s.mg := rfl
@[simp] theorem bump_elec (f : Field) (u n : Nat) (s : State) : (bump f u n s).elec = s.elec := rfl

/-! ## `bumpSat` -/

@[simp] theorem bumpSat_pending (f : Field) (u n : Nat) (s : State) : (bumpSat f u n s).pending = s.pending := rfl
@[simp] theorem bumpSat_mem (f : Field) (u n : Nat) (s : State) : (bumpSat f u n s).mem = s.mem := rfl
@[simp] theorem bumpSat_wq (f : Field) (u n : Nat) (s : State) : (bumpSat f u n s).wq = s.wq := rfl
@[simp] theorem bumpSat_poison (f : Field) (u n : Nat) (s : State) : (bumpSat f u n s).poison = s.poison := rfl
@[simp] theorem bumpSat_regs (f : Field) (u n : Nat) (s : State) : (bumpSat f u n s).regs = (setF f u (min (getF s f u + n) (fieldMax f)) s).regs := rfl
@[simp] theorem bumpSat_freeCtr (f : Field) (u n : Nat) (s : State) : (bumpSat f u n s).freeCtr = s.freeCtr := rfl
@[simp] theorem bumpSat_hostOut (f : Field) (u n : Nat) (s : State) : (bumpSat f u n s).hostOut = s.hostOut := rfl
@[simp] theorem bumpSat_fabOut (f : Field) (u n : Nat) (s : State) : (bumpSat f u n s).fabOut = s.fabOut := rfl
@[simp] theorem bumpSat_ob (f : Field) (u n : Nat) (s : State) : (bumpSat f u n s).ob = s.ob := rfl
@[simp] theorem bumpSat_err (f : Field) (u n : Nat) (s : State) : (bumpSat f u n s).err = s.err := rfl
@[simp] theorem bumpSat_timer (f : Field) (u n : Nat) (s : State) : (bumpSat f u n s).timer = s.timer := rfl
@[simp] theorem bumpSat_link (f : Field) (u n : Nat) (s : State) : (bumpSat f u n s).link = s.link := rfl
@[simp] theorem bumpSat_cores (f : Field) (u n : Nat) (s : State) : (bumpSat f u n s).cores = s.cores := rfl
@[simp] theorem bumpSat_start (f : Field) (u n : Nat) (s : State) : (bumpSat f u n s).start = s.start := rfl
@[simp] theorem bumpSat_retired (f : Field) (u n : Nat) (s : State) : (bumpSat f u n s).retired = s.retired := rfl
@[simp] theorem bumpSat_lostHomes (f : Field) (u n : Nat) (s : State) : (bumpSat f u n s).lostHomes = s.lostHomes := rfl
@[simp] theorem bumpSat_hay (f : Field) (u n : Nat) (s : State) : (bumpSat f u n s).hay = s.hay := rfl
@[simp] theorem bumpSat_coh (f : Field) (u n : Nat) (s : State) : (bumpSat f u n s).coh = s.coh := rfl
@[simp] theorem bumpSat_xl (f : Field) (u n : Nat) (s : State) : (bumpSat f u n s).xl = s.xl := rfl
@[simp] theorem bumpSat_tufts (f : Field) (u n : Nat) (s : State) : (bumpSat f u n s).tufts = s.tufts := rfl
@[simp] theorem bumpSat_copies (f : Field) (u n : Nat) (s : State) : (bumpSat f u n s).copies = s.copies := rfl
@[simp] theorem bumpSat_work (f : Field) (u n : Nat) (s : State) : (bumpSat f u n s).work = s.work := rfl
@[simp] theorem bumpSat_stile (f : Field) (u n : Nat) (s : State) : (bumpSat f u n s).stile = s.stile := rfl
@[simp] theorem bumpSat_res (f : Field) (u n : Nat) (s : State) : (bumpSat f u n s).res = s.res := rfl
@[simp] theorem bumpSat_fab (f : Field) (u n : Nat) (s : State) : (bumpSat f u n s).fab = s.fab := rfl
@[simp] theorem bumpSat_pins (f : Field) (u n : Nat) (s : State) : (bumpSat f u n s).pins = s.pins := rfl
@[simp] theorem bumpSat_net (f : Field) (u n : Nat) (s : State) : (bumpSat f u n s).net = s.net := rfl
@[simp] theorem bumpSat_loam (f : Field) (u n : Nat) (s : State) : (bumpSat f u n s).loam = s.loam := rfl
@[simp] theorem bumpSat_tap (f : Field) (u n : Nat) (s : State) : (bumpSat f u n s).tap = s.tap := rfl
@[simp] theorem bumpSat_pw (f : Field) (u n : Nat) (s : State) : (bumpSat f u n s).pw = s.pw := rfl
@[simp] theorem bumpSat_sec (f : Field) (u n : Nat) (s : State) : (bumpSat f u n s).sec = s.sec := rfl
@[simp] theorem bumpSat_mg (f : Field) (u n : Nat) (s : State) : (bumpSat f u n s).mg = s.mg := rfl
@[simp] theorem bumpSat_elec (f : Field) (u n : Nat) (s : State) : (bumpSat f u n s).elec = s.elec := rfl

/-! ## `raise` -/

@[simp] theorem raise_pending (fl : Flag) (u : Nat) (s : State) : (raise fl u s).pending = s.pending := rfl
@[simp] theorem raise_mem (fl : Flag) (u : Nat) (s : State) : (raise fl u s).mem = s.mem := rfl
@[simp] theorem raise_wq (fl : Flag) (u : Nat) (s : State) : (raise fl u s).wq = s.wq := rfl
@[simp] theorem raise_poison (fl : Flag) (u : Nat) (s : State) : (raise fl u s).poison = s.poison := rfl
@[simp] theorem raise_regs (fl : Flag) (u : Nat) (s : State) : (raise fl u s).regs = (bumpSat fl.count u 1 (setF fl.flag u 1 s)).regs := rfl
@[simp] theorem raise_freeCtr (fl : Flag) (u : Nat) (s : State) : (raise fl u s).freeCtr = s.freeCtr := rfl
@[simp] theorem raise_hostOut (fl : Flag) (u : Nat) (s : State) : (raise fl u s).hostOut = s.hostOut := rfl
@[simp] theorem raise_fabOut (fl : Flag) (u : Nat) (s : State) : (raise fl u s).fabOut = s.fabOut := rfl
@[simp] theorem raise_ob (fl : Flag) (u : Nat) (s : State) : (raise fl u s).ob = s.ob := rfl
@[simp] theorem raise_err (fl : Flag) (u : Nat) (s : State) : (raise fl u s).err = s.err := rfl
@[simp] theorem raise_timer (fl : Flag) (u : Nat) (s : State) : (raise fl u s).timer = s.timer := rfl
@[simp] theorem raise_link (fl : Flag) (u : Nat) (s : State) : (raise fl u s).link = s.link := rfl
@[simp] theorem raise_cores (fl : Flag) (u : Nat) (s : State) : (raise fl u s).cores = s.cores := rfl
@[simp] theorem raise_start (fl : Flag) (u : Nat) (s : State) : (raise fl u s).start = s.start := rfl
@[simp] theorem raise_retired (fl : Flag) (u : Nat) (s : State) : (raise fl u s).retired = s.retired := rfl
@[simp] theorem raise_lostHomes (fl : Flag) (u : Nat) (s : State) : (raise fl u s).lostHomes = s.lostHomes := rfl
@[simp] theorem raise_hay (fl : Flag) (u : Nat) (s : State) : (raise fl u s).hay = s.hay := rfl
@[simp] theorem raise_coh (fl : Flag) (u : Nat) (s : State) : (raise fl u s).coh = s.coh := rfl
@[simp] theorem raise_xl (fl : Flag) (u : Nat) (s : State) : (raise fl u s).xl = s.xl := rfl
@[simp] theorem raise_tufts (fl : Flag) (u : Nat) (s : State) : (raise fl u s).tufts = s.tufts := rfl
@[simp] theorem raise_copies (fl : Flag) (u : Nat) (s : State) : (raise fl u s).copies = s.copies := rfl
@[simp] theorem raise_work (fl : Flag) (u : Nat) (s : State) : (raise fl u s).work = s.work := rfl
@[simp] theorem raise_stile (fl : Flag) (u : Nat) (s : State) : (raise fl u s).stile = s.stile := rfl
@[simp] theorem raise_res (fl : Flag) (u : Nat) (s : State) : (raise fl u s).res = s.res := rfl
@[simp] theorem raise_fab (fl : Flag) (u : Nat) (s : State) : (raise fl u s).fab = s.fab := rfl
@[simp] theorem raise_pins (fl : Flag) (u : Nat) (s : State) : (raise fl u s).pins = s.pins := rfl
@[simp] theorem raise_net (fl : Flag) (u : Nat) (s : State) : (raise fl u s).net = s.net := rfl
@[simp] theorem raise_loam (fl : Flag) (u : Nat) (s : State) : (raise fl u s).loam = s.loam := rfl
@[simp] theorem raise_tap (fl : Flag) (u : Nat) (s : State) : (raise fl u s).tap = s.tap := rfl
@[simp] theorem raise_pw (fl : Flag) (u : Nat) (s : State) : (raise fl u s).pw = s.pw := rfl
@[simp] theorem raise_sec (fl : Flag) (u : Nat) (s : State) : (raise fl u s).sec = s.sec := rfl
@[simp] theorem raise_mg (fl : Flag) (u : Nat) (s : State) : (raise fl u s).mg = s.mg := rfl
@[simp] theorem raise_elec (fl : Flag) (u : Nat) (s : State) : (raise fl u s).elec = s.elec := rfl

/-! ## `zeroReg` -/

@[simp] theorem zeroReg_pending (r : Reg) (s : State) : (zeroReg r s).pending = s.pending := rfl
@[simp] theorem zeroReg_mem (r : Reg) (s : State) : (zeroReg r s).mem = s.mem := rfl
@[simp] theorem zeroReg_wq (r : Reg) (s : State) : (zeroReg r s).wq = s.wq := rfl
@[simp] theorem zeroReg_poison (r : Reg) (s : State) : (zeroReg r s).poison = s.poison := rfl
@[simp] theorem zeroReg_regs (r : Reg) (s : State) : (zeroReg r s).regs = s.regs.filter (fun e => e.1 / 65536 != regId r) := rfl
@[simp] theorem zeroReg_freeCtr (r : Reg) (s : State) : (zeroReg r s).freeCtr = s.freeCtr := rfl
@[simp] theorem zeroReg_hostOut (r : Reg) (s : State) : (zeroReg r s).hostOut = s.hostOut := rfl
@[simp] theorem zeroReg_fabOut (r : Reg) (s : State) : (zeroReg r s).fabOut = s.fabOut := rfl
@[simp] theorem zeroReg_ob (r : Reg) (s : State) : (zeroReg r s).ob = s.ob := rfl
@[simp] theorem zeroReg_err (r : Reg) (s : State) : (zeroReg r s).err = s.err := rfl
@[simp] theorem zeroReg_timer (r : Reg) (s : State) : (zeroReg r s).timer = s.timer := rfl
@[simp] theorem zeroReg_link (r : Reg) (s : State) : (zeroReg r s).link = s.link := rfl
@[simp] theorem zeroReg_cores (r : Reg) (s : State) : (zeroReg r s).cores = s.cores := rfl
@[simp] theorem zeroReg_start (r : Reg) (s : State) : (zeroReg r s).start = s.start := rfl
@[simp] theorem zeroReg_retired (r : Reg) (s : State) : (zeroReg r s).retired = s.retired := rfl
@[simp] theorem zeroReg_lostHomes (r : Reg) (s : State) : (zeroReg r s).lostHomes = s.lostHomes := rfl
@[simp] theorem zeroReg_hay (r : Reg) (s : State) : (zeroReg r s).hay = s.hay := rfl
@[simp] theorem zeroReg_coh (r : Reg) (s : State) : (zeroReg r s).coh = s.coh := rfl
@[simp] theorem zeroReg_xl (r : Reg) (s : State) : (zeroReg r s).xl = s.xl := rfl
@[simp] theorem zeroReg_tufts (r : Reg) (s : State) : (zeroReg r s).tufts = s.tufts := rfl
@[simp] theorem zeroReg_copies (r : Reg) (s : State) : (zeroReg r s).copies = s.copies := rfl
@[simp] theorem zeroReg_work (r : Reg) (s : State) : (zeroReg r s).work = s.work := rfl
@[simp] theorem zeroReg_stile (r : Reg) (s : State) : (zeroReg r s).stile = s.stile := rfl
@[simp] theorem zeroReg_res (r : Reg) (s : State) : (zeroReg r s).res = s.res := rfl
@[simp] theorem zeroReg_fab (r : Reg) (s : State) : (zeroReg r s).fab = s.fab := rfl
@[simp] theorem zeroReg_pins (r : Reg) (s : State) : (zeroReg r s).pins = s.pins := rfl
@[simp] theorem zeroReg_net (r : Reg) (s : State) : (zeroReg r s).net = s.net := rfl
@[simp] theorem zeroReg_loam (r : Reg) (s : State) : (zeroReg r s).loam = s.loam := rfl
@[simp] theorem zeroReg_tap (r : Reg) (s : State) : (zeroReg r s).tap = s.tap := rfl
@[simp] theorem zeroReg_pw (r : Reg) (s : State) : (zeroReg r s).pw = s.pw := rfl
@[simp] theorem zeroReg_sec (r : Reg) (s : State) : (zeroReg r s).sec = s.sec := rfl
@[simp] theorem zeroReg_mg (r : Reg) (s : State) : (zeroReg r s).mg = s.mg := rfl
@[simp] theorem zeroReg_elec (r : Reg) (s : State) : (zeroReg r s).elec = s.elec := rfl

/-! ## `drawn` -/

@[simp] theorem drawn_pending (s : State) : (drawn s).pending = s.pending := rfl
@[simp] theorem drawn_mem (s : State) : (drawn s).mem = s.mem := rfl
@[simp] theorem drawn_wq (s : State) : (drawn s).wq = s.wq := rfl
@[simp] theorem drawn_poison (s : State) : (drawn s).poison = s.poison := rfl
@[simp] theorem drawn_regs (s : State) : (drawn s).regs = s.regs := rfl
@[simp] theorem drawn_freeCtr (s : State) : (drawn s).freeCtr = s.freeCtr + 1 := rfl
@[simp] theorem drawn_hostOut (s : State) : (drawn s).hostOut = s.hostOut := rfl
@[simp] theorem drawn_fabOut (s : State) : (drawn s).fabOut = s.fabOut := rfl
@[simp] theorem drawn_ob (s : State) : (drawn s).ob = s.ob := rfl
@[simp] theorem drawn_err (s : State) : (drawn s).err = s.err := rfl
@[simp] theorem drawn_timer (s : State) : (drawn s).timer = s.timer := rfl
@[simp] theorem drawn_link (s : State) : (drawn s).link = s.link := rfl
@[simp] theorem drawn_cores (s : State) : (drawn s).cores = s.cores := rfl
@[simp] theorem drawn_start (s : State) : (drawn s).start = s.start := rfl
@[simp] theorem drawn_retired (s : State) : (drawn s).retired = s.retired := rfl
@[simp] theorem drawn_lostHomes (s : State) : (drawn s).lostHomes = s.lostHomes := rfl
@[simp] theorem drawn_hay (s : State) : (drawn s).hay = s.hay := rfl
@[simp] theorem drawn_coh (s : State) : (drawn s).coh = s.coh := rfl
@[simp] theorem drawn_xl (s : State) : (drawn s).xl = s.xl := rfl
@[simp] theorem drawn_tufts (s : State) : (drawn s).tufts = s.tufts := rfl
@[simp] theorem drawn_copies (s : State) : (drawn s).copies = s.copies := rfl
@[simp] theorem drawn_work (s : State) : (drawn s).work = s.work := rfl
@[simp] theorem drawn_stile (s : State) : (drawn s).stile = s.stile := rfl
@[simp] theorem drawn_res (s : State) : (drawn s).res = s.res := rfl
@[simp] theorem drawn_fab (s : State) : (drawn s).fab = s.fab := rfl
@[simp] theorem drawn_pins (s : State) : (drawn s).pins = s.pins := rfl
@[simp] theorem drawn_net (s : State) : (drawn s).net = s.net := rfl
@[simp] theorem drawn_loam (s : State) : (drawn s).loam = s.loam := rfl
@[simp] theorem drawn_tap (s : State) : (drawn s).tap = s.tap := rfl
@[simp] theorem drawn_pw (s : State) : (drawn s).pw = s.pw := rfl
@[simp] theorem drawn_sec (s : State) : (drawn s).sec = s.sec := rfl
@[simp] theorem drawn_mg (s : State) : (drawn s).mg = s.mg := rfl
@[simp] theorem drawn_elec (s : State) : (drawn s).elec = s.elec := rfl

/-! ## `poisonRange` -/

@[simp] theorem poisonRange_pending (a n : Nat) (s : State) : (poisonRange a n s).pending = s.pending := rfl
@[simp] theorem poisonRange_mem (a n : Nat) (s : State) : (poisonRange a n s).mem = s.mem := rfl
@[simp] theorem poisonRange_wq (a n : Nat) (s : State) : (poisonRange a n s).wq = s.wq := rfl
@[simp] theorem poisonRange_poison (a n : Nat) (s : State) : (poisonRange a n s).poison = (sectorsOf a n).foldl setAdd s.poison := rfl
@[simp] theorem poisonRange_regs (a n : Nat) (s : State) : (poisonRange a n s).regs = s.regs := rfl
@[simp] theorem poisonRange_freeCtr (a n : Nat) (s : State) : (poisonRange a n s).freeCtr = s.freeCtr := rfl
@[simp] theorem poisonRange_hostOut (a n : Nat) (s : State) : (poisonRange a n s).hostOut = s.hostOut := rfl
@[simp] theorem poisonRange_fabOut (a n : Nat) (s : State) : (poisonRange a n s).fabOut = s.fabOut := rfl
@[simp] theorem poisonRange_ob (a n : Nat) (s : State) : (poisonRange a n s).ob = s.ob := rfl
@[simp] theorem poisonRange_err (a n : Nat) (s : State) : (poisonRange a n s).err = s.err := rfl
@[simp] theorem poisonRange_timer (a n : Nat) (s : State) : (poisonRange a n s).timer = s.timer := rfl
@[simp] theorem poisonRange_link (a n : Nat) (s : State) : (poisonRange a n s).link = s.link := rfl
@[simp] theorem poisonRange_cores (a n : Nat) (s : State) : (poisonRange a n s).cores = s.cores := rfl
@[simp] theorem poisonRange_start (a n : Nat) (s : State) : (poisonRange a n s).start = s.start := rfl
@[simp] theorem poisonRange_retired (a n : Nat) (s : State) : (poisonRange a n s).retired = s.retired := rfl
@[simp] theorem poisonRange_lostHomes (a n : Nat) (s : State) : (poisonRange a n s).lostHomes = s.lostHomes := rfl
@[simp] theorem poisonRange_hay (a n : Nat) (s : State) : (poisonRange a n s).hay = s.hay := rfl
@[simp] theorem poisonRange_coh (a n : Nat) (s : State) : (poisonRange a n s).coh = s.coh := rfl
@[simp] theorem poisonRange_xl (a n : Nat) (s : State) : (poisonRange a n s).xl = s.xl := rfl
@[simp] theorem poisonRange_tufts (a n : Nat) (s : State) : (poisonRange a n s).tufts = s.tufts := rfl
@[simp] theorem poisonRange_copies (a n : Nat) (s : State) : (poisonRange a n s).copies = s.copies := rfl
@[simp] theorem poisonRange_work (a n : Nat) (s : State) : (poisonRange a n s).work = s.work := rfl
@[simp] theorem poisonRange_stile (a n : Nat) (s : State) : (poisonRange a n s).stile = s.stile := rfl
@[simp] theorem poisonRange_res (a n : Nat) (s : State) : (poisonRange a n s).res = s.res := rfl
@[simp] theorem poisonRange_fab (a n : Nat) (s : State) : (poisonRange a n s).fab = s.fab := rfl
@[simp] theorem poisonRange_pins (a n : Nat) (s : State) : (poisonRange a n s).pins = s.pins := rfl
@[simp] theorem poisonRange_net (a n : Nat) (s : State) : (poisonRange a n s).net = s.net := rfl
@[simp] theorem poisonRange_loam (a n : Nat) (s : State) : (poisonRange a n s).loam = s.loam := rfl
@[simp] theorem poisonRange_tap (a n : Nat) (s : State) : (poisonRange a n s).tap = s.tap := rfl
@[simp] theorem poisonRange_pw (a n : Nat) (s : State) : (poisonRange a n s).pw = s.pw := rfl
@[simp] theorem poisonRange_sec (a n : Nat) (s : State) : (poisonRange a n s).sec = s.sec := rfl
@[simp] theorem poisonRange_mg (a n : Nat) (s : State) : (poisonRange a n s).mg = s.mg := rfl
@[simp] theorem poisonRange_elec (a n : Nat) (s : State) : (poisonRange a n s).elec = s.elec := rfl

/-! ## `unpoison` -/

@[simp] theorem unpoison_pending (a n : Nat) (s : State) : (unpoison a n s).pending = s.pending := rfl
@[simp] theorem unpoison_mem (a n : Nat) (s : State) : (unpoison a n s).mem = s.mem := rfl
@[simp] theorem unpoison_wq (a n : Nat) (s : State) : (unpoison a n s).wq = s.wq := rfl
@[simp] theorem unpoison_poison (a n : Nat) (s : State) : (unpoison a n s).poison = s.poison.filter (fun k => !(a ≤ 32 * k && 32 * k + 32 ≤ a + n && !deadAddr s (32 * k))) := rfl
@[simp] theorem unpoison_regs (a n : Nat) (s : State) : (unpoison a n s).regs = s.regs := rfl
@[simp] theorem unpoison_freeCtr (a n : Nat) (s : State) : (unpoison a n s).freeCtr = s.freeCtr := rfl
@[simp] theorem unpoison_hostOut (a n : Nat) (s : State) : (unpoison a n s).hostOut = s.hostOut := rfl
@[simp] theorem unpoison_fabOut (a n : Nat) (s : State) : (unpoison a n s).fabOut = s.fabOut := rfl
@[simp] theorem unpoison_ob (a n : Nat) (s : State) : (unpoison a n s).ob = s.ob := rfl
@[simp] theorem unpoison_err (a n : Nat) (s : State) : (unpoison a n s).err = s.err := rfl
@[simp] theorem unpoison_timer (a n : Nat) (s : State) : (unpoison a n s).timer = s.timer := rfl
@[simp] theorem unpoison_link (a n : Nat) (s : State) : (unpoison a n s).link = s.link := rfl
@[simp] theorem unpoison_cores (a n : Nat) (s : State) : (unpoison a n s).cores = s.cores := rfl
@[simp] theorem unpoison_start (a n : Nat) (s : State) : (unpoison a n s).start = s.start := rfl
@[simp] theorem unpoison_retired (a n : Nat) (s : State) : (unpoison a n s).retired = s.retired := rfl
@[simp] theorem unpoison_lostHomes (a n : Nat) (s : State) : (unpoison a n s).lostHomes = s.lostHomes := rfl
@[simp] theorem unpoison_hay (a n : Nat) (s : State) : (unpoison a n s).hay = s.hay := rfl
@[simp] theorem unpoison_coh (a n : Nat) (s : State) : (unpoison a n s).coh = s.coh := rfl
@[simp] theorem unpoison_xl (a n : Nat) (s : State) : (unpoison a n s).xl = s.xl := rfl
@[simp] theorem unpoison_tufts (a n : Nat) (s : State) : (unpoison a n s).tufts = s.tufts := rfl
@[simp] theorem unpoison_copies (a n : Nat) (s : State) : (unpoison a n s).copies = s.copies := rfl
@[simp] theorem unpoison_work (a n : Nat) (s : State) : (unpoison a n s).work = s.work := rfl
@[simp] theorem unpoison_stile (a n : Nat) (s : State) : (unpoison a n s).stile = s.stile := rfl
@[simp] theorem unpoison_res (a n : Nat) (s : State) : (unpoison a n s).res = s.res := rfl
@[simp] theorem unpoison_fab (a n : Nat) (s : State) : (unpoison a n s).fab = s.fab := rfl
@[simp] theorem unpoison_pins (a n : Nat) (s : State) : (unpoison a n s).pins = s.pins := rfl
@[simp] theorem unpoison_net (a n : Nat) (s : State) : (unpoison a n s).net = s.net := rfl
@[simp] theorem unpoison_loam (a n : Nat) (s : State) : (unpoison a n s).loam = s.loam := rfl
@[simp] theorem unpoison_tap (a n : Nat) (s : State) : (unpoison a n s).tap = s.tap := rfl
@[simp] theorem unpoison_pw (a n : Nat) (s : State) : (unpoison a n s).pw = s.pw := rfl
@[simp] theorem unpoison_sec (a n : Nat) (s : State) : (unpoison a n s).sec = s.sec := rfl
@[simp] theorem unpoison_mg (a n : Nat) (s : State) : (unpoison a n s).mg = s.mg := rfl
@[simp] theorem unpoison_elec (a n : Nat) (s : State) : (unpoison a n s).elec = s.elec := rfl

/-! ## `writeNum` -/

@[simp] theorem writeNum_pending (a n v : Nat) (s : State) : (writeNum a n v s).pending = s.pending := rfl
@[simp] theorem writeNum_mem (a n v : Nat) (s : State) : (writeNum a n v s).mem = s.mem := rfl
@[simp] theorem writeNum_regs (a n v : Nat) (s : State) : (writeNum a n v s).regs = s.regs := rfl
@[simp] theorem writeNum_freeCtr (a n v : Nat) (s : State) : (writeNum a n v s).freeCtr = s.freeCtr := rfl
@[simp] theorem writeNum_hostOut (a n v : Nat) (s : State) : (writeNum a n v s).hostOut = s.hostOut := rfl
@[simp] theorem writeNum_fabOut (a n v : Nat) (s : State) : (writeNum a n v s).fabOut = s.fabOut := rfl
@[simp] theorem writeNum_ob (a n v : Nat) (s : State) : (writeNum a n v s).ob = s.ob := rfl
@[simp] theorem writeNum_err (a n v : Nat) (s : State) : (writeNum a n v s).err = s.err := rfl
@[simp] theorem writeNum_timer (a n v : Nat) (s : State) : (writeNum a n v s).timer = s.timer := rfl
@[simp] theorem writeNum_link (a n v : Nat) (s : State) : (writeNum a n v s).link = s.link := rfl
@[simp] theorem writeNum_cores (a n v : Nat) (s : State) : (writeNum a n v s).cores = s.cores := rfl
@[simp] theorem writeNum_start (a n v : Nat) (s : State) : (writeNum a n v s).start = s.start := rfl
@[simp] theorem writeNum_retired (a n v : Nat) (s : State) : (writeNum a n v s).retired = s.retired := rfl
@[simp] theorem writeNum_lostHomes (a n v : Nat) (s : State) : (writeNum a n v s).lostHomes = s.lostHomes := rfl
@[simp] theorem writeNum_hay (a n v : Nat) (s : State) : (writeNum a n v s).hay = s.hay := rfl
@[simp] theorem writeNum_coh (a n v : Nat) (s : State) : (writeNum a n v s).coh = s.coh := rfl
@[simp] theorem writeNum_xl (a n v : Nat) (s : State) : (writeNum a n v s).xl = s.xl := rfl
@[simp] theorem writeNum_tufts (a n v : Nat) (s : State) : (writeNum a n v s).tufts = s.tufts := rfl
@[simp] theorem writeNum_copies (a n v : Nat) (s : State) : (writeNum a n v s).copies = s.copies := rfl
@[simp] theorem writeNum_work (a n v : Nat) (s : State) : (writeNum a n v s).work = s.work := rfl
@[simp] theorem writeNum_stile (a n v : Nat) (s : State) : (writeNum a n v s).stile = s.stile := rfl
@[simp] theorem writeNum_res (a n v : Nat) (s : State) : (writeNum a n v s).res = s.res := rfl
@[simp] theorem writeNum_fab (a n v : Nat) (s : State) : (writeNum a n v s).fab = s.fab := rfl
@[simp] theorem writeNum_pins (a n v : Nat) (s : State) : (writeNum a n v s).pins = s.pins := rfl
@[simp] theorem writeNum_net (a n v : Nat) (s : State) : (writeNum a n v s).net = s.net := rfl
@[simp] theorem writeNum_loam (a n v : Nat) (s : State) : (writeNum a n v s).loam = s.loam := rfl
@[simp] theorem writeNum_tap (a n v : Nat) (s : State) : (writeNum a n v s).tap = s.tap := rfl
@[simp] theorem writeNum_pw (a n v : Nat) (s : State) : (writeNum a n v s).pw = s.pw := rfl
@[simp] theorem writeNum_sec (a n v : Nat) (s : State) : (writeNum a n v s).sec = s.sec := rfl
@[simp] theorem writeNum_mg (a n v : Nat) (s : State) : (writeNum a n v s).mg = s.mg := rfl
@[simp] theorem writeNum_elec (a n v : Nat) (s : State) : (writeNum a n v s).elec = s.elec := rfl

/-! ## `zeroMem` -/

@[simp] theorem zeroMem_pending (a n : Nat) (s : State) : (zeroMem a n s).pending = s.pending := rfl
@[simp] theorem zeroMem_mem (a n : Nat) (s : State) : (zeroMem a n s).mem = s.mem := rfl
@[simp] theorem zeroMem_wq (a n : Nat) (s : State) : (zeroMem a n s).wq = .zero a n :: s.wq := rfl
@[simp] theorem zeroMem_regs (a n : Nat) (s : State) : (zeroMem a n s).regs = s.regs := rfl
@[simp] theorem zeroMem_freeCtr (a n : Nat) (s : State) : (zeroMem a n s).freeCtr = s.freeCtr := rfl
@[simp] theorem zeroMem_hostOut (a n : Nat) (s : State) : (zeroMem a n s).hostOut = s.hostOut := rfl
@[simp] theorem zeroMem_fabOut (a n : Nat) (s : State) : (zeroMem a n s).fabOut = s.fabOut := rfl
@[simp] theorem zeroMem_ob (a n : Nat) (s : State) : (zeroMem a n s).ob = s.ob := rfl
@[simp] theorem zeroMem_err (a n : Nat) (s : State) : (zeroMem a n s).err = s.err := rfl
@[simp] theorem zeroMem_timer (a n : Nat) (s : State) : (zeroMem a n s).timer = s.timer := rfl
@[simp] theorem zeroMem_link (a n : Nat) (s : State) : (zeroMem a n s).link = s.link := rfl
@[simp] theorem zeroMem_cores (a n : Nat) (s : State) : (zeroMem a n s).cores = s.cores := rfl
@[simp] theorem zeroMem_start (a n : Nat) (s : State) : (zeroMem a n s).start = s.start := rfl
@[simp] theorem zeroMem_retired (a n : Nat) (s : State) : (zeroMem a n s).retired = s.retired := rfl
@[simp] theorem zeroMem_lostHomes (a n : Nat) (s : State) : (zeroMem a n s).lostHomes = s.lostHomes := rfl
@[simp] theorem zeroMem_hay (a n : Nat) (s : State) : (zeroMem a n s).hay = s.hay := rfl
@[simp] theorem zeroMem_coh (a n : Nat) (s : State) : (zeroMem a n s).coh = s.coh := rfl
@[simp] theorem zeroMem_xl (a n : Nat) (s : State) : (zeroMem a n s).xl = s.xl := rfl
@[simp] theorem zeroMem_tufts (a n : Nat) (s : State) : (zeroMem a n s).tufts = s.tufts := rfl
@[simp] theorem zeroMem_copies (a n : Nat) (s : State) : (zeroMem a n s).copies = s.copies := rfl
@[simp] theorem zeroMem_work (a n : Nat) (s : State) : (zeroMem a n s).work = s.work := rfl
@[simp] theorem zeroMem_stile (a n : Nat) (s : State) : (zeroMem a n s).stile = s.stile := rfl
@[simp] theorem zeroMem_res (a n : Nat) (s : State) : (zeroMem a n s).res = s.res := rfl
@[simp] theorem zeroMem_fab (a n : Nat) (s : State) : (zeroMem a n s).fab = s.fab := rfl
@[simp] theorem zeroMem_pins (a n : Nat) (s : State) : (zeroMem a n s).pins = s.pins := rfl
@[simp] theorem zeroMem_net (a n : Nat) (s : State) : (zeroMem a n s).net = s.net := rfl
@[simp] theorem zeroMem_loam (a n : Nat) (s : State) : (zeroMem a n s).loam = s.loam := rfl
@[simp] theorem zeroMem_tap (a n : Nat) (s : State) : (zeroMem a n s).tap = s.tap := rfl
@[simp] theorem zeroMem_pw (a n : Nat) (s : State) : (zeroMem a n s).pw = s.pw := rfl
@[simp] theorem zeroMem_sec (a n : Nat) (s : State) : (zeroMem a n s).sec = s.sec := rfl
@[simp] theorem zeroMem_mg (a n : Nat) (s : State) : (zeroMem a n s).mg = s.mg := rfl
@[simp] theorem zeroMem_elec (a n : Nat) (s : State) : (zeroMem a n s).elec = s.elec := rfl

/-! ## `msiToFile` -/

@[simp] theorem msiToFile_pending (h f e : Nat) (s : State) : (msiToFile h f e s).pending = s.pending := rfl
@[simp] theorem msiToFile_mem (h f e : Nat) (s : State) : (msiToFile h f e s).mem = s.mem := rfl
@[simp] theorem msiToFile_wq (h f e : Nat) (s : State) : (msiToFile h f e s).wq = s.wq := rfl
@[simp] theorem msiToFile_poison (h f e : Nat) (s : State) : (msiToFile h f e s).poison = s.poison := rfl
@[simp] theorem msiToFile_regs (h f e : Nat) (s : State) : (msiToFile h f e s).regs = s.regs := rfl
@[simp] theorem msiToFile_freeCtr (h f e : Nat) (s : State) : (msiToFile h f e s).freeCtr = s.freeCtr := rfl
@[simp] theorem msiToFile_hostOut (h f e : Nat) (s : State) : (msiToFile h f e s).hostOut = s.hostOut := rfl
@[simp] theorem msiToFile_fabOut (h f e : Nat) (s : State) : (msiToFile h f e s).fabOut = s.fabOut := rfl
@[simp] theorem msiToFile_ob (h f e : Nat) (s : State) : (msiToFile h f e s).ob = s.ob := rfl
@[simp] theorem msiToFile_err (h f e : Nat) (s : State) : (msiToFile h f e s).err = s.err := rfl
@[simp] theorem msiToFile_timer (h f e : Nat) (s : State) : (msiToFile h f e s).timer = s.timer := rfl
@[simp] theorem msiToFile_link (h f e : Nat) (s : State) : (msiToFile h f e s).link = s.link := rfl
@[simp] theorem msiToFile_start (h f e : Nat) (s : State) : (msiToFile h f e s).start = s.start := rfl
@[simp] theorem msiToFile_retired (h f e : Nat) (s : State) : (msiToFile h f e s).retired = s.retired := rfl
@[simp] theorem msiToFile_lostHomes (h f e : Nat) (s : State) : (msiToFile h f e s).lostHomes = s.lostHomes := rfl
@[simp] theorem msiToFile_hay (h f e : Nat) (s : State) : (msiToFile h f e s).hay = s.hay := rfl
@[simp] theorem msiToFile_coh (h f e : Nat) (s : State) : (msiToFile h f e s).coh = s.coh := rfl
@[simp] theorem msiToFile_xl (h f e : Nat) (s : State) : (msiToFile h f e s).xl = s.xl := rfl
@[simp] theorem msiToFile_tufts (h f e : Nat) (s : State) : (msiToFile h f e s).tufts = s.tufts := rfl
@[simp] theorem msiToFile_copies (h f e : Nat) (s : State) : (msiToFile h f e s).copies = s.copies := rfl
@[simp] theorem msiToFile_work (h f e : Nat) (s : State) : (msiToFile h f e s).work = s.work := rfl
@[simp] theorem msiToFile_stile (h f e : Nat) (s : State) : (msiToFile h f e s).stile = s.stile := rfl
@[simp] theorem msiToFile_res (h f e : Nat) (s : State) : (msiToFile h f e s).res = s.res := rfl
@[simp] theorem msiToFile_fab (h f e : Nat) (s : State) : (msiToFile h f e s).fab = s.fab := rfl
@[simp] theorem msiToFile_pins (h f e : Nat) (s : State) : (msiToFile h f e s).pins = s.pins := rfl
@[simp] theorem msiToFile_net (h f e : Nat) (s : State) : (msiToFile h f e s).net = s.net := rfl
@[simp] theorem msiToFile_loam (h f e : Nat) (s : State) : (msiToFile h f e s).loam = s.loam := rfl
@[simp] theorem msiToFile_tap (h f e : Nat) (s : State) : (msiToFile h f e s).tap = s.tap := rfl
@[simp] theorem msiToFile_pw (h f e : Nat) (s : State) : (msiToFile h f e s).pw = s.pw := rfl
@[simp] theorem msiToFile_sec (h f e : Nat) (s : State) : (msiToFile h f e s).sec = s.sec := rfl
@[simp] theorem msiToFile_mg (h f e : Nat) (s : State) : (msiToFile h f e s).mg = s.mg := rfl
@[simp] theorem msiToFile_elec (h f e : Nat) (s : State) : (msiToFile h f e s).elec = s.elec := rfl

/-! ## `setTuft` -/

@[simp] theorem setTuft_pending (t : Nat) (x : TuftState) (s : State) : (setTuft t x s).pending = s.pending := rfl
@[simp] theorem setTuft_mem (t : Nat) (x : TuftState) (s : State) : (setTuft t x s).mem = s.mem := rfl
@[simp] theorem setTuft_wq (t : Nat) (x : TuftState) (s : State) : (setTuft t x s).wq = s.wq := rfl
@[simp] theorem setTuft_poison (t : Nat) (x : TuftState) (s : State) : (setTuft t x s).poison = s.poison := rfl
@[simp] theorem setTuft_regs (t : Nat) (x : TuftState) (s : State) : (setTuft t x s).regs = s.regs := rfl
@[simp] theorem setTuft_freeCtr (t : Nat) (x : TuftState) (s : State) : (setTuft t x s).freeCtr = s.freeCtr := rfl
@[simp] theorem setTuft_hostOut (t : Nat) (x : TuftState) (s : State) : (setTuft t x s).hostOut = s.hostOut := rfl
@[simp] theorem setTuft_fabOut (t : Nat) (x : TuftState) (s : State) : (setTuft t x s).fabOut = s.fabOut := rfl
@[simp] theorem setTuft_ob (t : Nat) (x : TuftState) (s : State) : (setTuft t x s).ob = s.ob := rfl
@[simp] theorem setTuft_err (t : Nat) (x : TuftState) (s : State) : (setTuft t x s).err = s.err := rfl
@[simp] theorem setTuft_timer (t : Nat) (x : TuftState) (s : State) : (setTuft t x s).timer = s.timer := rfl
@[simp] theorem setTuft_link (t : Nat) (x : TuftState) (s : State) : (setTuft t x s).link = s.link := rfl
@[simp] theorem setTuft_cores (t : Nat) (x : TuftState) (s : State) : (setTuft t x s).cores = s.cores := rfl
@[simp] theorem setTuft_start (t : Nat) (x : TuftState) (s : State) : (setTuft t x s).start = s.start := rfl
@[simp] theorem setTuft_retired (t : Nat) (x : TuftState) (s : State) : (setTuft t x s).retired = s.retired := rfl
@[simp] theorem setTuft_lostHomes (t : Nat) (x : TuftState) (s : State) : (setTuft t x s).lostHomes = s.lostHomes := rfl
@[simp] theorem setTuft_hay (t : Nat) (x : TuftState) (s : State) : (setTuft t x s).hay = s.hay := rfl
@[simp] theorem setTuft_coh (t : Nat) (x : TuftState) (s : State) : (setTuft t x s).coh = s.coh := rfl
@[simp] theorem setTuft_xl (t : Nat) (x : TuftState) (s : State) : (setTuft t x s).xl = s.xl := rfl
@[simp] theorem setTuft_tufts (t : Nat) (x : TuftState) (s : State) : (setTuft t x s).tufts = tput s.tufts t x := rfl
@[simp] theorem setTuft_copies (t : Nat) (x : TuftState) (s : State) : (setTuft t x s).copies = s.copies := rfl
@[simp] theorem setTuft_work (t : Nat) (x : TuftState) (s : State) : (setTuft t x s).work = s.work := rfl
@[simp] theorem setTuft_stile (t : Nat) (x : TuftState) (s : State) : (setTuft t x s).stile = s.stile := rfl
@[simp] theorem setTuft_res (t : Nat) (x : TuftState) (s : State) : (setTuft t x s).res = s.res := rfl
@[simp] theorem setTuft_fab (t : Nat) (x : TuftState) (s : State) : (setTuft t x s).fab = s.fab := rfl
@[simp] theorem setTuft_pins (t : Nat) (x : TuftState) (s : State) : (setTuft t x s).pins = s.pins := rfl
@[simp] theorem setTuft_net (t : Nat) (x : TuftState) (s : State) : (setTuft t x s).net = s.net := rfl
@[simp] theorem setTuft_loam (t : Nat) (x : TuftState) (s : State) : (setTuft t x s).loam = s.loam := rfl
@[simp] theorem setTuft_tap (t : Nat) (x : TuftState) (s : State) : (setTuft t x s).tap = s.tap := rfl
@[simp] theorem setTuft_pw (t : Nat) (x : TuftState) (s : State) : (setTuft t x s).pw = s.pw := rfl
@[simp] theorem setTuft_sec (t : Nat) (x : TuftState) (s : State) : (setTuft t x s).sec = s.sec := rfl
@[simp] theorem setTuft_mg (t : Nat) (x : TuftState) (s : State) : (setTuft t x s).mg = s.mg := rfl
@[simp] theorem setTuft_elec (t : Nat) (x : TuftState) (s : State) : (setTuft t x s).elec = s.elec := rfl

/-! ## `modTuft` -/

@[simp] theorem modTuft_pending (t : Nat) (f : TuftState → TuftState) (s : State) : (modTuft t f s).pending = s.pending := rfl
@[simp] theorem modTuft_mem (t : Nat) (f : TuftState → TuftState) (s : State) : (modTuft t f s).mem = s.mem := rfl
@[simp] theorem modTuft_wq (t : Nat) (f : TuftState → TuftState) (s : State) : (modTuft t f s).wq = s.wq := rfl
@[simp] theorem modTuft_poison (t : Nat) (f : TuftState → TuftState) (s : State) : (modTuft t f s).poison = s.poison := rfl
@[simp] theorem modTuft_regs (t : Nat) (f : TuftState → TuftState) (s : State) : (modTuft t f s).regs = s.regs := rfl
@[simp] theorem modTuft_freeCtr (t : Nat) (f : TuftState → TuftState) (s : State) : (modTuft t f s).freeCtr = s.freeCtr := rfl
@[simp] theorem modTuft_hostOut (t : Nat) (f : TuftState → TuftState) (s : State) : (modTuft t f s).hostOut = s.hostOut := rfl
@[simp] theorem modTuft_fabOut (t : Nat) (f : TuftState → TuftState) (s : State) : (modTuft t f s).fabOut = s.fabOut := rfl
@[simp] theorem modTuft_ob (t : Nat) (f : TuftState → TuftState) (s : State) : (modTuft t f s).ob = s.ob := rfl
@[simp] theorem modTuft_err (t : Nat) (f : TuftState → TuftState) (s : State) : (modTuft t f s).err = s.err := rfl
@[simp] theorem modTuft_timer (t : Nat) (f : TuftState → TuftState) (s : State) : (modTuft t f s).timer = s.timer := rfl
@[simp] theorem modTuft_link (t : Nat) (f : TuftState → TuftState) (s : State) : (modTuft t f s).link = s.link := rfl
@[simp] theorem modTuft_cores (t : Nat) (f : TuftState → TuftState) (s : State) : (modTuft t f s).cores = s.cores := rfl
@[simp] theorem modTuft_start (t : Nat) (f : TuftState → TuftState) (s : State) : (modTuft t f s).start = s.start := rfl
@[simp] theorem modTuft_retired (t : Nat) (f : TuftState → TuftState) (s : State) : (modTuft t f s).retired = s.retired := rfl
@[simp] theorem modTuft_lostHomes (t : Nat) (f : TuftState → TuftState) (s : State) : (modTuft t f s).lostHomes = s.lostHomes := rfl
@[simp] theorem modTuft_hay (t : Nat) (f : TuftState → TuftState) (s : State) : (modTuft t f s).hay = s.hay := rfl
@[simp] theorem modTuft_coh (t : Nat) (f : TuftState → TuftState) (s : State) : (modTuft t f s).coh = s.coh := rfl
@[simp] theorem modTuft_xl (t : Nat) (f : TuftState → TuftState) (s : State) : (modTuft t f s).xl = s.xl := rfl
@[simp] theorem modTuft_tufts (t : Nat) (f : TuftState → TuftState) (s : State) : (modTuft t f s).tufts = tput s.tufts t (f (tuft s t)) := rfl
@[simp] theorem modTuft_copies (t : Nat) (f : TuftState → TuftState) (s : State) : (modTuft t f s).copies = s.copies := rfl
@[simp] theorem modTuft_work (t : Nat) (f : TuftState → TuftState) (s : State) : (modTuft t f s).work = s.work := rfl
@[simp] theorem modTuft_stile (t : Nat) (f : TuftState → TuftState) (s : State) : (modTuft t f s).stile = s.stile := rfl
@[simp] theorem modTuft_res (t : Nat) (f : TuftState → TuftState) (s : State) : (modTuft t f s).res = s.res := rfl
@[simp] theorem modTuft_fab (t : Nat) (f : TuftState → TuftState) (s : State) : (modTuft t f s).fab = s.fab := rfl
@[simp] theorem modTuft_pins (t : Nat) (f : TuftState → TuftState) (s : State) : (modTuft t f s).pins = s.pins := rfl
@[simp] theorem modTuft_net (t : Nat) (f : TuftState → TuftState) (s : State) : (modTuft t f s).net = s.net := rfl
@[simp] theorem modTuft_loam (t : Nat) (f : TuftState → TuftState) (s : State) : (modTuft t f s).loam = s.loam := rfl
@[simp] theorem modTuft_tap (t : Nat) (f : TuftState → TuftState) (s : State) : (modTuft t f s).tap = s.tap := rfl
@[simp] theorem modTuft_pw (t : Nat) (f : TuftState → TuftState) (s : State) : (modTuft t f s).pw = s.pw := rfl
@[simp] theorem modTuft_sec (t : Nat) (f : TuftState → TuftState) (s : State) : (modTuft t f s).sec = s.sec := rfl
@[simp] theorem modTuft_mg (t : Nat) (f : TuftState → TuftState) (s : State) : (modTuft t f s).mg = s.mg := rfl
@[simp] theorem modTuft_elec (t : Nat) (f : TuftState → TuftState) (s : State) : (modTuft t f s).elec = s.elec := rfl

/-! ## `groupMod` -/

@[simp] theorem groupMod_pending (t g : Nat) (f : Group → Group) (s : State) : (groupMod t g f s).pending = s.pending := rfl
@[simp] theorem groupMod_mem (t g : Nat) (f : Group → Group) (s : State) : (groupMod t g f s).mem = s.mem := rfl
@[simp] theorem groupMod_wq (t g : Nat) (f : Group → Group) (s : State) : (groupMod t g f s).wq = s.wq := rfl
@[simp] theorem groupMod_poison (t g : Nat) (f : Group → Group) (s : State) : (groupMod t g f s).poison = s.poison := rfl
@[simp] theorem groupMod_regs (t g : Nat) (f : Group → Group) (s : State) : (groupMod t g f s).regs = s.regs := rfl
@[simp] theorem groupMod_freeCtr (t g : Nat) (f : Group → Group) (s : State) : (groupMod t g f s).freeCtr = s.freeCtr := rfl
@[simp] theorem groupMod_hostOut (t g : Nat) (f : Group → Group) (s : State) : (groupMod t g f s).hostOut = s.hostOut := rfl
@[simp] theorem groupMod_fabOut (t g : Nat) (f : Group → Group) (s : State) : (groupMod t g f s).fabOut = s.fabOut := rfl
@[simp] theorem groupMod_ob (t g : Nat) (f : Group → Group) (s : State) : (groupMod t g f s).ob = s.ob := rfl
@[simp] theorem groupMod_err (t g : Nat) (f : Group → Group) (s : State) : (groupMod t g f s).err = s.err := rfl
@[simp] theorem groupMod_timer (t g : Nat) (f : Group → Group) (s : State) : (groupMod t g f s).timer = s.timer := rfl
@[simp] theorem groupMod_link (t g : Nat) (f : Group → Group) (s : State) : (groupMod t g f s).link = s.link := rfl
@[simp] theorem groupMod_cores (t g : Nat) (f : Group → Group) (s : State) : (groupMod t g f s).cores = s.cores := rfl
@[simp] theorem groupMod_start (t g : Nat) (f : Group → Group) (s : State) : (groupMod t g f s).start = s.start := rfl
@[simp] theorem groupMod_retired (t g : Nat) (f : Group → Group) (s : State) : (groupMod t g f s).retired = s.retired := rfl
@[simp] theorem groupMod_lostHomes (t g : Nat) (f : Group → Group) (s : State) : (groupMod t g f s).lostHomes = s.lostHomes := rfl
@[simp] theorem groupMod_hay (t g : Nat) (f : Group → Group) (s : State) : (groupMod t g f s).hay = s.hay := rfl
@[simp] theorem groupMod_coh (t g : Nat) (f : Group → Group) (s : State) : (groupMod t g f s).coh = s.coh := rfl
@[simp] theorem groupMod_xl (t g : Nat) (f : Group → Group) (s : State) : (groupMod t g f s).xl = s.xl := rfl
@[simp] theorem groupMod_copies (t g : Nat) (f : Group → Group) (s : State) : (groupMod t g f s).copies = s.copies := rfl
@[simp] theorem groupMod_work (t g : Nat) (f : Group → Group) (s : State) : (groupMod t g f s).work = s.work := rfl
@[simp] theorem groupMod_stile (t g : Nat) (f : Group → Group) (s : State) : (groupMod t g f s).stile = s.stile := rfl
@[simp] theorem groupMod_res (t g : Nat) (f : Group → Group) (s : State) : (groupMod t g f s).res = s.res := rfl
@[simp] theorem groupMod_fab (t g : Nat) (f : Group → Group) (s : State) : (groupMod t g f s).fab = s.fab := rfl
@[simp] theorem groupMod_pins (t g : Nat) (f : Group → Group) (s : State) : (groupMod t g f s).pins = s.pins := rfl
@[simp] theorem groupMod_net (t g : Nat) (f : Group → Group) (s : State) : (groupMod t g f s).net = s.net := rfl
@[simp] theorem groupMod_loam (t g : Nat) (f : Group → Group) (s : State) : (groupMod t g f s).loam = s.loam := rfl
@[simp] theorem groupMod_tap (t g : Nat) (f : Group → Group) (s : State) : (groupMod t g f s).tap = s.tap := rfl
@[simp] theorem groupMod_pw (t g : Nat) (f : Group → Group) (s : State) : (groupMod t g f s).pw = s.pw := rfl
@[simp] theorem groupMod_sec (t g : Nat) (f : Group → Group) (s : State) : (groupMod t g f s).sec = s.sec := rfl
@[simp] theorem groupMod_mg (t g : Nat) (f : Group → Group) (s : State) : (groupMod t g f s).mg = s.mg := rfl
@[simp] theorem groupMod_elec (t g : Nat) (f : Group → Group) (s : State) : (groupMod t g f s).elec = s.elec := rfl

/-! ## `advance` -/

@[simp] theorem advance_pending (c : ICtx) (s : State) : (advance c s).pending = s.pending := rfl
@[simp] theorem advance_mem (c : ICtx) (s : State) : (advance c s).mem = s.mem := rfl
@[simp] theorem advance_wq (c : ICtx) (s : State) : (advance c s).wq = s.wq := rfl
@[simp] theorem advance_poison (c : ICtx) (s : State) : (advance c s).poison = s.poison := rfl
@[simp] theorem advance_regs (c : ICtx) (s : State) : (advance c s).regs = s.regs := rfl
@[simp] theorem advance_freeCtr (c : ICtx) (s : State) : (advance c s).freeCtr = s.freeCtr := rfl
@[simp] theorem advance_hostOut (c : ICtx) (s : State) : (advance c s).hostOut = s.hostOut := rfl
@[simp] theorem advance_fabOut (c : ICtx) (s : State) : (advance c s).fabOut = s.fabOut := rfl
@[simp] theorem advance_ob (c : ICtx) (s : State) : (advance c s).ob = s.ob := rfl
@[simp] theorem advance_err (c : ICtx) (s : State) : (advance c s).err = s.err := rfl
@[simp] theorem advance_timer (c : ICtx) (s : State) : (advance c s).timer = s.timer := rfl
@[simp] theorem advance_link (c : ICtx) (s : State) : (advance c s).link = s.link := rfl
@[simp] theorem advance_cores (c : ICtx) (s : State) : (advance c s).cores = s.cores := rfl
@[simp] theorem advance_start (c : ICtx) (s : State) : (advance c s).start = s.start := rfl
@[simp] theorem advance_retired (c : ICtx) (s : State) : (advance c s).retired = s.retired := rfl
@[simp] theorem advance_lostHomes (c : ICtx) (s : State) : (advance c s).lostHomes = s.lostHomes := rfl
@[simp] theorem advance_hay (c : ICtx) (s : State) : (advance c s).hay = s.hay := rfl
@[simp] theorem advance_coh (c : ICtx) (s : State) : (advance c s).coh = s.coh := rfl
@[simp] theorem advance_xl (c : ICtx) (s : State) : (advance c s).xl = s.xl := rfl
@[simp] theorem advance_copies (c : ICtx) (s : State) : (advance c s).copies = s.copies := rfl
@[simp] theorem advance_work (c : ICtx) (s : State) : (advance c s).work = s.work := rfl
@[simp] theorem advance_stile (c : ICtx) (s : State) : (advance c s).stile = s.stile := rfl
@[simp] theorem advance_res (c : ICtx) (s : State) : (advance c s).res = s.res := rfl
@[simp] theorem advance_fab (c : ICtx) (s : State) : (advance c s).fab = s.fab := rfl
@[simp] theorem advance_pins (c : ICtx) (s : State) : (advance c s).pins = s.pins := rfl
@[simp] theorem advance_net (c : ICtx) (s : State) : (advance c s).net = s.net := rfl
@[simp] theorem advance_loam (c : ICtx) (s : State) : (advance c s).loam = s.loam := rfl
@[simp] theorem advance_tap (c : ICtx) (s : State) : (advance c s).tap = s.tap := rfl
@[simp] theorem advance_pw (c : ICtx) (s : State) : (advance c s).pw = s.pw := rfl
@[simp] theorem advance_sec (c : ICtx) (s : State) : (advance c s).sec = s.sec := rfl
@[simp] theorem advance_mg (c : ICtx) (s : State) : (advance c s).mg = s.mg := rfl
@[simp] theorem advance_elec (c : ICtx) (s : State) : (advance c s).elec = s.elec := rfl

/-! ## `hayPut` -/

@[simp] theorem hayPut_pending (h : Nat) (y : HayState) (s : State) : (hayPut h y s).pending = s.pending := rfl
@[simp] theorem hayPut_mem (h : Nat) (y : HayState) (s : State) : (hayPut h y s).mem = s.mem := rfl
@[simp] theorem hayPut_wq (h : Nat) (y : HayState) (s : State) : (hayPut h y s).wq = s.wq := rfl
@[simp] theorem hayPut_poison (h : Nat) (y : HayState) (s : State) : (hayPut h y s).poison = s.poison := rfl
@[simp] theorem hayPut_regs (h : Nat) (y : HayState) (s : State) : (hayPut h y s).regs = s.regs := rfl
@[simp] theorem hayPut_freeCtr (h : Nat) (y : HayState) (s : State) : (hayPut h y s).freeCtr = s.freeCtr := rfl
@[simp] theorem hayPut_hostOut (h : Nat) (y : HayState) (s : State) : (hayPut h y s).hostOut = s.hostOut := rfl
@[simp] theorem hayPut_fabOut (h : Nat) (y : HayState) (s : State) : (hayPut h y s).fabOut = s.fabOut := rfl
@[simp] theorem hayPut_ob (h : Nat) (y : HayState) (s : State) : (hayPut h y s).ob = s.ob := rfl
@[simp] theorem hayPut_err (h : Nat) (y : HayState) (s : State) : (hayPut h y s).err = s.err := rfl
@[simp] theorem hayPut_timer (h : Nat) (y : HayState) (s : State) : (hayPut h y s).timer = s.timer := rfl
@[simp] theorem hayPut_link (h : Nat) (y : HayState) (s : State) : (hayPut h y s).link = s.link := rfl
@[simp] theorem hayPut_cores (h : Nat) (y : HayState) (s : State) : (hayPut h y s).cores = s.cores := rfl
@[simp] theorem hayPut_start (h : Nat) (y : HayState) (s : State) : (hayPut h y s).start = s.start := rfl
@[simp] theorem hayPut_retired (h : Nat) (y : HayState) (s : State) : (hayPut h y s).retired = s.retired := rfl
@[simp] theorem hayPut_lostHomes (h : Nat) (y : HayState) (s : State) : (hayPut h y s).lostHomes = s.lostHomes := rfl
@[simp] theorem hayPut_hay (h : Nat) (y : HayState) (s : State) : (hayPut h y s).hay = tput s.hay h y := rfl
@[simp] theorem hayPut_coh (h : Nat) (y : HayState) (s : State) : (hayPut h y s).coh = s.coh := rfl
@[simp] theorem hayPut_xl (h : Nat) (y : HayState) (s : State) : (hayPut h y s).xl = s.xl := rfl
@[simp] theorem hayPut_tufts (h : Nat) (y : HayState) (s : State) : (hayPut h y s).tufts = s.tufts := rfl
@[simp] theorem hayPut_copies (h : Nat) (y : HayState) (s : State) : (hayPut h y s).copies = s.copies := rfl
@[simp] theorem hayPut_work (h : Nat) (y : HayState) (s : State) : (hayPut h y s).work = s.work := rfl
@[simp] theorem hayPut_stile (h : Nat) (y : HayState) (s : State) : (hayPut h y s).stile = s.stile := rfl
@[simp] theorem hayPut_res (h : Nat) (y : HayState) (s : State) : (hayPut h y s).res = s.res := rfl
@[simp] theorem hayPut_fab (h : Nat) (y : HayState) (s : State) : (hayPut h y s).fab = s.fab := rfl
@[simp] theorem hayPut_pins (h : Nat) (y : HayState) (s : State) : (hayPut h y s).pins = s.pins := rfl
@[simp] theorem hayPut_net (h : Nat) (y : HayState) (s : State) : (hayPut h y s).net = s.net := rfl
@[simp] theorem hayPut_loam (h : Nat) (y : HayState) (s : State) : (hayPut h y s).loam = s.loam := rfl
@[simp] theorem hayPut_tap (h : Nat) (y : HayState) (s : State) : (hayPut h y s).tap = s.tap := rfl
@[simp] theorem hayPut_pw (h : Nat) (y : HayState) (s : State) : (hayPut h y s).pw = s.pw := rfl
@[simp] theorem hayPut_sec (h : Nat) (y : HayState) (s : State) : (hayPut h y s).sec = s.sec := rfl
@[simp] theorem hayPut_mg (h : Nat) (y : HayState) (s : State) : (hayPut h y s).mg = s.mg := rfl
@[simp] theorem hayPut_elec (h : Nat) (y : HayState) (s : State) : (hayPut h y s).elec = s.elec := rfl

/-! ## `setHart` -/

@[simp] theorem setHart_pending (h : Nat) (x : Hart) (s : State) : (setHart h x s).pending = s.pending := rfl
@[simp] theorem setHart_mem (h : Nat) (x : Hart) (s : State) : (setHart h x s).mem = s.mem := rfl
@[simp] theorem setHart_wq (h : Nat) (x : Hart) (s : State) : (setHart h x s).wq = s.wq := rfl
@[simp] theorem setHart_poison (h : Nat) (x : Hart) (s : State) : (setHart h x s).poison = s.poison := rfl
@[simp] theorem setHart_regs (h : Nat) (x : Hart) (s : State) : (setHart h x s).regs = s.regs := rfl
@[simp] theorem setHart_freeCtr (h : Nat) (x : Hart) (s : State) : (setHart h x s).freeCtr = s.freeCtr := rfl
@[simp] theorem setHart_hostOut (h : Nat) (x : Hart) (s : State) : (setHart h x s).hostOut = s.hostOut := rfl
@[simp] theorem setHart_fabOut (h : Nat) (x : Hart) (s : State) : (setHart h x s).fabOut = s.fabOut := rfl
@[simp] theorem setHart_ob (h : Nat) (x : Hart) (s : State) : (setHart h x s).ob = s.ob := rfl
@[simp] theorem setHart_err (h : Nat) (x : Hart) (s : State) : (setHart h x s).err = s.err := rfl
@[simp] theorem setHart_timer (h : Nat) (x : Hart) (s : State) : (setHart h x s).timer = s.timer := rfl
@[simp] theorem setHart_link (h : Nat) (x : Hart) (s : State) : (setHart h x s).link = s.link := rfl
@[simp] theorem setHart_start (h : Nat) (x : Hart) (s : State) : (setHart h x s).start = s.start := rfl
@[simp] theorem setHart_retired (h : Nat) (x : Hart) (s : State) : (setHart h x s).retired = s.retired := rfl
@[simp] theorem setHart_lostHomes (h : Nat) (x : Hart) (s : State) : (setHart h x s).lostHomes = s.lostHomes := rfl
@[simp] theorem setHart_hay (h : Nat) (x : Hart) (s : State) : (setHart h x s).hay = s.hay := rfl
@[simp] theorem setHart_coh (h : Nat) (x : Hart) (s : State) : (setHart h x s).coh = s.coh := rfl
@[simp] theorem setHart_xl (h : Nat) (x : Hart) (s : State) : (setHart h x s).xl = s.xl := rfl
@[simp] theorem setHart_tufts (h : Nat) (x : Hart) (s : State) : (setHart h x s).tufts = s.tufts := rfl
@[simp] theorem setHart_copies (h : Nat) (x : Hart) (s : State) : (setHart h x s).copies = s.copies := rfl
@[simp] theorem setHart_work (h : Nat) (x : Hart) (s : State) : (setHart h x s).work = s.work := rfl
@[simp] theorem setHart_stile (h : Nat) (x : Hart) (s : State) : (setHart h x s).stile = s.stile := rfl
@[simp] theorem setHart_res (h : Nat) (x : Hart) (s : State) : (setHart h x s).res = s.res := rfl
@[simp] theorem setHart_fab (h : Nat) (x : Hart) (s : State) : (setHart h x s).fab = s.fab := rfl
@[simp] theorem setHart_pins (h : Nat) (x : Hart) (s : State) : (setHart h x s).pins = s.pins := rfl
@[simp] theorem setHart_net (h : Nat) (x : Hart) (s : State) : (setHart h x s).net = s.net := rfl
@[simp] theorem setHart_loam (h : Nat) (x : Hart) (s : State) : (setHart h x s).loam = s.loam := rfl
@[simp] theorem setHart_tap (h : Nat) (x : Hart) (s : State) : (setHart h x s).tap = s.tap := rfl
@[simp] theorem setHart_pw (h : Nat) (x : Hart) (s : State) : (setHart h x s).pw = s.pw := rfl
@[simp] theorem setHart_sec (h : Nat) (x : Hart) (s : State) : (setHart h x s).sec = s.sec := rfl
@[simp] theorem setHart_mg (h : Nat) (x : Hart) (s : State) : (setHart h x s).mg = s.mg := rfl
@[simp] theorem setHart_elec (h : Nat) (x : Hart) (s : State) : (setHart h x s).elec = s.elec := rfl

/-! ## `dirPut` -/

@[simp] theorem dirPut_pending (k : Nat) (e : DirEnt) (s : State) : (dirPut k e s).pending = s.pending := rfl
@[simp] theorem dirPut_mem (k : Nat) (e : DirEnt) (s : State) : (dirPut k e s).mem = s.mem := rfl
@[simp] theorem dirPut_wq (k : Nat) (e : DirEnt) (s : State) : (dirPut k e s).wq = s.wq := rfl
@[simp] theorem dirPut_poison (k : Nat) (e : DirEnt) (s : State) : (dirPut k e s).poison = s.poison := rfl
@[simp] theorem dirPut_regs (k : Nat) (e : DirEnt) (s : State) : (dirPut k e s).regs = s.regs := rfl
@[simp] theorem dirPut_freeCtr (k : Nat) (e : DirEnt) (s : State) : (dirPut k e s).freeCtr = s.freeCtr := rfl
@[simp] theorem dirPut_hostOut (k : Nat) (e : DirEnt) (s : State) : (dirPut k e s).hostOut = s.hostOut := rfl
@[simp] theorem dirPut_fabOut (k : Nat) (e : DirEnt) (s : State) : (dirPut k e s).fabOut = s.fabOut := rfl
@[simp] theorem dirPut_ob (k : Nat) (e : DirEnt) (s : State) : (dirPut k e s).ob = s.ob := rfl
@[simp] theorem dirPut_err (k : Nat) (e : DirEnt) (s : State) : (dirPut k e s).err = s.err := rfl
@[simp] theorem dirPut_timer (k : Nat) (e : DirEnt) (s : State) : (dirPut k e s).timer = s.timer := rfl
@[simp] theorem dirPut_link (k : Nat) (e : DirEnt) (s : State) : (dirPut k e s).link = s.link := rfl
@[simp] theorem dirPut_cores (k : Nat) (e : DirEnt) (s : State) : (dirPut k e s).cores = s.cores := rfl
@[simp] theorem dirPut_start (k : Nat) (e : DirEnt) (s : State) : (dirPut k e s).start = s.start := rfl
@[simp] theorem dirPut_retired (k : Nat) (e : DirEnt) (s : State) : (dirPut k e s).retired = s.retired := rfl
@[simp] theorem dirPut_lostHomes (k : Nat) (e : DirEnt) (s : State) : (dirPut k e s).lostHomes = s.lostHomes := rfl
@[simp] theorem dirPut_hay (k : Nat) (e : DirEnt) (s : State) : (dirPut k e s).hay = s.hay := rfl
@[simp] theorem dirPut_xl (k : Nat) (e : DirEnt) (s : State) : (dirPut k e s).xl = s.xl := rfl
@[simp] theorem dirPut_tufts (k : Nat) (e : DirEnt) (s : State) : (dirPut k e s).tufts = s.tufts := rfl
@[simp] theorem dirPut_copies (k : Nat) (e : DirEnt) (s : State) : (dirPut k e s).copies = s.copies := rfl
@[simp] theorem dirPut_work (k : Nat) (e : DirEnt) (s : State) : (dirPut k e s).work = s.work := rfl
@[simp] theorem dirPut_stile (k : Nat) (e : DirEnt) (s : State) : (dirPut k e s).stile = s.stile := rfl
@[simp] theorem dirPut_res (k : Nat) (e : DirEnt) (s : State) : (dirPut k e s).res = s.res := rfl
@[simp] theorem dirPut_fab (k : Nat) (e : DirEnt) (s : State) : (dirPut k e s).fab = s.fab := rfl
@[simp] theorem dirPut_pins (k : Nat) (e : DirEnt) (s : State) : (dirPut k e s).pins = s.pins := rfl
@[simp] theorem dirPut_net (k : Nat) (e : DirEnt) (s : State) : (dirPut k e s).net = s.net := rfl
@[simp] theorem dirPut_loam (k : Nat) (e : DirEnt) (s : State) : (dirPut k e s).loam = s.loam := rfl
@[simp] theorem dirPut_tap (k : Nat) (e : DirEnt) (s : State) : (dirPut k e s).tap = s.tap := rfl
@[simp] theorem dirPut_pw (k : Nat) (e : DirEnt) (s : State) : (dirPut k e s).pw = s.pw := rfl
@[simp] theorem dirPut_sec (k : Nat) (e : DirEnt) (s : State) : (dirPut k e s).sec = s.sec := rfl
@[simp] theorem dirPut_mg (k : Nat) (e : DirEnt) (s : State) : (dirPut k e s).mg = s.mg := rfl
@[simp] theorem dirPut_elec (k : Nat) (e : DirEnt) (s : State) : (dirPut k e s).elec = s.elec := rfl

/-! ## `dirDel` -/

@[simp] theorem dirDel_pending (k : Nat) (s : State) : (dirDel k s).pending = s.pending := rfl
@[simp] theorem dirDel_mem (k : Nat) (s : State) : (dirDel k s).mem = s.mem := rfl
@[simp] theorem dirDel_wq (k : Nat) (s : State) : (dirDel k s).wq = s.wq := rfl
@[simp] theorem dirDel_poison (k : Nat) (s : State) : (dirDel k s).poison = s.poison := rfl
@[simp] theorem dirDel_regs (k : Nat) (s : State) : (dirDel k s).regs = s.regs := rfl
@[simp] theorem dirDel_freeCtr (k : Nat) (s : State) : (dirDel k s).freeCtr = s.freeCtr := rfl
@[simp] theorem dirDel_hostOut (k : Nat) (s : State) : (dirDel k s).hostOut = s.hostOut := rfl
@[simp] theorem dirDel_fabOut (k : Nat) (s : State) : (dirDel k s).fabOut = s.fabOut := rfl
@[simp] theorem dirDel_ob (k : Nat) (s : State) : (dirDel k s).ob = s.ob := rfl
@[simp] theorem dirDel_err (k : Nat) (s : State) : (dirDel k s).err = s.err := rfl
@[simp] theorem dirDel_timer (k : Nat) (s : State) : (dirDel k s).timer = s.timer := rfl
@[simp] theorem dirDel_link (k : Nat) (s : State) : (dirDel k s).link = s.link := rfl
@[simp] theorem dirDel_cores (k : Nat) (s : State) : (dirDel k s).cores = s.cores := rfl
@[simp] theorem dirDel_start (k : Nat) (s : State) : (dirDel k s).start = s.start := rfl
@[simp] theorem dirDel_retired (k : Nat) (s : State) : (dirDel k s).retired = s.retired := rfl
@[simp] theorem dirDel_lostHomes (k : Nat) (s : State) : (dirDel k s).lostHomes = s.lostHomes := rfl
@[simp] theorem dirDel_hay (k : Nat) (s : State) : (dirDel k s).hay = s.hay := rfl
@[simp] theorem dirDel_xl (k : Nat) (s : State) : (dirDel k s).xl = s.xl := rfl
@[simp] theorem dirDel_tufts (k : Nat) (s : State) : (dirDel k s).tufts = s.tufts := rfl
@[simp] theorem dirDel_copies (k : Nat) (s : State) : (dirDel k s).copies = s.copies := rfl
@[simp] theorem dirDel_work (k : Nat) (s : State) : (dirDel k s).work = s.work := rfl
@[simp] theorem dirDel_stile (k : Nat) (s : State) : (dirDel k s).stile = s.stile := rfl
@[simp] theorem dirDel_res (k : Nat) (s : State) : (dirDel k s).res = s.res := rfl
@[simp] theorem dirDel_fab (k : Nat) (s : State) : (dirDel k s).fab = s.fab := rfl
@[simp] theorem dirDel_pins (k : Nat) (s : State) : (dirDel k s).pins = s.pins := rfl
@[simp] theorem dirDel_net (k : Nat) (s : State) : (dirDel k s).net = s.net := rfl
@[simp] theorem dirDel_loam (k : Nat) (s : State) : (dirDel k s).loam = s.loam := rfl
@[simp] theorem dirDel_tap (k : Nat) (s : State) : (dirDel k s).tap = s.tap := rfl
@[simp] theorem dirDel_pw (k : Nat) (s : State) : (dirDel k s).pw = s.pw := rfl
@[simp] theorem dirDel_sec (k : Nat) (s : State) : (dirDel k s).sec = s.sec := rfl
@[simp] theorem dirDel_mg (k : Nat) (s : State) : (dirDel k s).mg = s.mg := rfl
@[simp] theorem dirDel_elec (k : Nat) (s : State) : (dirDel k s).elec = s.elec := rfl

/-! ## `larkPut` -/

@[simp] theorem larkPut_pending (k : Nat) (l : LarkSlot) (s : State) : (larkPut k l s).pending = s.pending := rfl
@[simp] theorem larkPut_mem (k : Nat) (l : LarkSlot) (s : State) : (larkPut k l s).mem = s.mem := rfl
@[simp] theorem larkPut_wq (k : Nat) (l : LarkSlot) (s : State) : (larkPut k l s).wq = s.wq := rfl
@[simp] theorem larkPut_poison (k : Nat) (l : LarkSlot) (s : State) : (larkPut k l s).poison = s.poison := rfl
@[simp] theorem larkPut_regs (k : Nat) (l : LarkSlot) (s : State) : (larkPut k l s).regs = s.regs := rfl
@[simp] theorem larkPut_freeCtr (k : Nat) (l : LarkSlot) (s : State) : (larkPut k l s).freeCtr = s.freeCtr := rfl
@[simp] theorem larkPut_hostOut (k : Nat) (l : LarkSlot) (s : State) : (larkPut k l s).hostOut = s.hostOut := rfl
@[simp] theorem larkPut_fabOut (k : Nat) (l : LarkSlot) (s : State) : (larkPut k l s).fabOut = s.fabOut := rfl
@[simp] theorem larkPut_ob (k : Nat) (l : LarkSlot) (s : State) : (larkPut k l s).ob = s.ob := rfl
@[simp] theorem larkPut_err (k : Nat) (l : LarkSlot) (s : State) : (larkPut k l s).err = s.err := rfl
@[simp] theorem larkPut_timer (k : Nat) (l : LarkSlot) (s : State) : (larkPut k l s).timer = s.timer := rfl
@[simp] theorem larkPut_cores (k : Nat) (l : LarkSlot) (s : State) : (larkPut k l s).cores = s.cores := rfl
@[simp] theorem larkPut_start (k : Nat) (l : LarkSlot) (s : State) : (larkPut k l s).start = s.start := rfl
@[simp] theorem larkPut_retired (k : Nat) (l : LarkSlot) (s : State) : (larkPut k l s).retired = s.retired := rfl
@[simp] theorem larkPut_lostHomes (k : Nat) (l : LarkSlot) (s : State) : (larkPut k l s).lostHomes = s.lostHomes := rfl
@[simp] theorem larkPut_hay (k : Nat) (l : LarkSlot) (s : State) : (larkPut k l s).hay = s.hay := rfl
@[simp] theorem larkPut_coh (k : Nat) (l : LarkSlot) (s : State) : (larkPut k l s).coh = s.coh := rfl
@[simp] theorem larkPut_xl (k : Nat) (l : LarkSlot) (s : State) : (larkPut k l s).xl = s.xl := rfl
@[simp] theorem larkPut_tufts (k : Nat) (l : LarkSlot) (s : State) : (larkPut k l s).tufts = s.tufts := rfl
@[simp] theorem larkPut_copies (k : Nat) (l : LarkSlot) (s : State) : (larkPut k l s).copies = s.copies := rfl
@[simp] theorem larkPut_work (k : Nat) (l : LarkSlot) (s : State) : (larkPut k l s).work = s.work := rfl
@[simp] theorem larkPut_stile (k : Nat) (l : LarkSlot) (s : State) : (larkPut k l s).stile = s.stile := rfl
@[simp] theorem larkPut_res (k : Nat) (l : LarkSlot) (s : State) : (larkPut k l s).res = s.res := rfl
@[simp] theorem larkPut_fab (k : Nat) (l : LarkSlot) (s : State) : (larkPut k l s).fab = s.fab := rfl
@[simp] theorem larkPut_pins (k : Nat) (l : LarkSlot) (s : State) : (larkPut k l s).pins = s.pins := rfl
@[simp] theorem larkPut_net (k : Nat) (l : LarkSlot) (s : State) : (larkPut k l s).net = s.net := rfl
@[simp] theorem larkPut_loam (k : Nat) (l : LarkSlot) (s : State) : (larkPut k l s).loam = s.loam := rfl
@[simp] theorem larkPut_tap (k : Nat) (l : LarkSlot) (s : State) : (larkPut k l s).tap = s.tap := rfl
@[simp] theorem larkPut_pw (k : Nat) (l : LarkSlot) (s : State) : (larkPut k l s).pw = s.pw := rfl
@[simp] theorem larkPut_sec (k : Nat) (l : LarkSlot) (s : State) : (larkPut k l s).sec = s.sec := rfl
@[simp] theorem larkPut_mg (k : Nat) (l : LarkSlot) (s : State) : (larkPut k l s).mg = s.mg := rfl
@[simp] theorem larkPut_elec (k : Nat) (l : LarkSlot) (s : State) : (larkPut k l s).elec = s.elec := rfl

end Sys2Proof.Machine
end

