-- ==== Sys2Proof/Laws/Step.lean ====
section
/-! SUPPORT. Sys2Proof/Laws/Step.lean: what any command can do to the queue and to device memory. -/
namespace Sys2Proof.Machine

/-- Every command ends in one way: its effect is some state whose writes then reach memory, under the queue it was given. -/
theorem exec_ends (c : Instr) (s : State) : ∃ t, exec c s = finish s t := by
  cases c <;> exact ⟨_, rfl⟩

end Sys2Proof.Machine
end

