-- ==== Sys2Proof/Tests/Slice0.lean ====
section
/-! SUPPORT. Sys2Proof/Tests/Slice0.lean: small states the tests start from, tests from the spec's worked examples, ill-formed
commands that WellFormed refuses, and a state for every hypothesis of the obligations. -/

set_option Elab.async false

namespace Sys2Proof.Machine

/-! ## Small states -/

/-- The module at reset with input power. -/
def up : State := { State.reset with elec.input := true }
/-- A task descriptor of one group with 32 registers on one Tuft, its entry at 0. -/
def aTask : W1024 := BitVec.ofNat 1024 (packBits [(3, 843), (7, 836)])
/-- A running task. -/
def aRun : TaskRec := { id := 1, graph := 0, node := 0, desc := aTask, prio := 0, phase := .running, groupsLeft := 1 }
/-- Its group, all lanes at the entry; s1 holds 1. -/
def aGroup : Group := { idx := 0, task := 1, paths := [{ lanes := 0xFFFFFFFF, pc := 0 }], sregs := [(1, 1), (2, 64)] }
/-- The module with that group resident on Tuft 0, its line of code in the instruction cache. -/
def grp : State :=
  setTuft 0 { task := some 1, groups := [(0, aGroup)], icache := [0] } { up with work.tasks := [aRun] }
/-- An instruction word from its class and fields (place as in Table TG-3). -/
def aWord (cls : Nat) (fields : List (Nat × Nat)) : Issue := { tuft := 0, group := 0, word := BitVec.ofNat 64 (packBits ((cls, 60) :: fields)) }
/-- What an instruction of that group runs on. -/
def aCtx : ICtx := { t := 0, gi := 0, g := aGroup, lanes := 0xFFFFFFFF, act := 0xFFFFFFFF, pc := 0, next := 8, task := aRun }
/-- A hart that runs. -/
def coreOn (h : Nat) : State := setHart h { running := true } up
/-- The same with the page at 0 in the translation buffers of its Sward. -/
def mapped : State :=
  { grp with xl.units := [(0, { sward := [(0, [{ va := 0, size := 4096, pa := 0, r := true, w := true, x := true }])] })] }
/-- What translating the lines of a set of addresses gives. -/
def lineTable : LineRes → Table Nat
  | .ok ls _ => ls
  | _ => []
def lineState : LineRes → State
  | .ok _ s => s
  | _ => up
/-- A matrix descriptor of one row, one column and K of 4, in XF formats with FP32 out; the same handing its rows to the
vector engine; a vector chain of one element. -/
def aMatrix : W512 := BitVec.ofNat 512 (packBits [(2, 13), (2, 17), (3, 21), (0x1000, 90), (0x2000, 71), (128, 304), (128, 192), (128, 208), (3, 48)])
def aFoot : W512 := BitVec.ofNat 512 (packBits [(2, 13), (2, 17), (3, 21), (1, 3), (0x1000, 90), (0x2000, 71), (128, 304), (128, 192), (128, 208), (3, 48)])
def aChain : W1024 := BitVec.ofNat 1024 (packBits [(0x1000, 826), (128, 912), (128, 896)])
def aFed : W1024 := BitVec.ofNat 1024 (packBits [(0x1000, 826), (128, 912), (128, 896), (1, 668)])
/-- Tuft 0 with the matrix array or the vector engine as given. -/
def tuftMx (m : MxTuft) : State := modTuft 0 (fun y => { y with mx := m }) grp
def tuftVe (m : VeTuft) : State := modTuft 0 (fun y => { y with ve := m }) grp
/-- A copy descriptor that fills 64 bytes of the store of Tuft 0. -/
def aFill : Nat := packBits [(1, 139), (1, 152), (0x3000, 391), (64, 200), (7, 0)]
/-- The store of Tuft 0 holds a descriptor at offset 64. -/
def withDesc (n v : Nat) : State := let t := writeNum (storeKey 0 64) n v grp; { t with mem := memCommit t.wq t.mem, wq := [] }
/-- A copy of Tuft 0's task with one entry of one piece: kind 1 fills 64 bytes of the store of Tuft 0, kind 0 copies them. -/
def aCopyRec (op : Nat) : CopyRec :=
  { id := 0, sward := 0, sub := .tuft 0, owner := .task 1, desc := BitVec.ofNat 512 (packBits [(op, 139), (1, 152), (0x3000, 391), (64, 200), (7, 0)]) }
def anEnt : CopyEnt := { id := 0, copy := 0, first := true, pieces := [{ src := 0, dst := 0x3000, len := 64 }], whole := [{ src := 0, dst := 0x3000, len := 64 }] }
def withCopy (c : CopyRec) (e : CopyEnt) : State := { mapped with copies := { recs := [c], ents := [e], nextId := 1 } }
/-- An exchange of one row of 64 bytes for expert 0 at another module, with its invocation's lists at 0. -/
def anExchange (op rank : Nat) : State :=
  let c := { aCopyRec op with block := packBits [(64, 384), (3, 424), (3, 432)], offs := [0, 1], ranks := [(0, rank)], starts := [(0, 0)] }
  { withCopy c { anEnt with moving := true } with stile.lists := [(0, 0, 0, BitVec.ofNat 512 (packBits [(1, 12)]))] }
def exchangeRec (op rank : Nat) : CopyRec :=
  { aCopyRec op with block := packBits [(64, 384), (3, 424), (3, 432)], offs := [0, 1], ranks := [(0, rank)], starts := [(0, 0)] }
/-- An expert region of one unit, armed. -/
def withRegion : State := { mapped with res.regions := [(0, { desc := BitVec.ofNat 512 (packBits [(0x100000, 455), (0x200000, 327), (1, 300)]), armed := true })] }
def unitRec (lift : Bool) : CopyRec := { id := 0, sward := 0, sub := .resid 0, owner := .unit 0 0 0 lift, desc := 0 }
/-- A router descriptor with one token, one expert, K = 1; FALLBACK 1. -/
def aRouter : W512 := BitVec.ofNat 512 (packBits [(32, 96), (1, 22), (1, 12)])
def withInv (i : Invocation) : State := { mapped with stile.queue := [(0, [i])] }
def vState : VRes → State
  | .ok _ _ s => s
  | _ => up
def exT1 : State := vState (vreads (exAccess (anExchange 3 0) (exchangeRec 3 0)) [(combineOff 4096, 16)] (anExchange 3 0))
def exFetched := combineRows (exAccess (anExchange 3 0) (exchangeRec 3 0)) (exchangeRec 3 0) 4096 [] [(0, 0)] exT1
def exRowsAt : List (Nat × Nat × List Nat) := exFetched.1.toOption.getD []
def exT2 : State := exFetched.2
def invT : State :=
  let i : Invocation := { id := 0, desc := aRouter, owner := .task 1 0 4 }
  vState (vreads (stileAccess (withInv i) 0 i) [(0, 4), (0, 0), (0, 2)] (pfSubmission (stileAccess (withInv i) 0 i) 0 (withInv i)))
/-- Writes reach memory. -/
def commit (s : State) : State := { s with mem := memCommit s.wq s.mem, wq := [] }
/-- Translation in force, with a leaf for the page at 0 in a table at 0x10000 that the walk cache of unit 0 names. -/
def table : State :=
  commit (writeNum 0x10000 8 (leafWord 0x20000 0 0 true true true)
    (setF atCtrlEn 0 1 { grp with xl.units := [(0, { walk := [{ level := 1, idx := 0, pa := 0x10000 }] })] }))
def anAcc : XAcc := { unit := 0, agent := 0, va := 64, r := true }
/-- The control processor serves commands, a job exists, completion queue 0 is enabled with 64 entries. -/
def ob : State :=
  { setF obStatusJob 0 1 (setF obStatusReady 0 1 (setF cqStateDepthLog2 0 6 (setF cqStateEn 0 1 up))) with ob.cq := [(0, { base := 0x40000 })] }
/-- The same with no job. -/
def obFree : State := setF obStatusJob 0 0 ob
/-- A command on submission queue 0, its completion on queue 0. -/
def cmdOf (op : Nat) (args : List Nat) : Cmd :=
  { door := .sq 0, words := BitVec.ofNat 64 (op + (args.length + 1) * 256) :: args.map (BitVec.ofNat 64) }
/-- The control processor's buffers hold the page at 0, and device memory holds `v` in `n` bytes at `a`. -/
def obMap (a n v : Nat) : State :=
  let t := writeNum a n v { ob with xl.units := [(8, { sward := [(0, [{ va := 0, size := 4096, pa := 0, r := true, w := true, x := true }])] })] }
  { t with mem := memCommit t.wq t.mem, wq := [] }
/-- A graph of one node that is a join, at 0. -/
def obGraph : State := obMap 0 96 (packBits [(64, 455), (3, 512 + 128)])
/-- An expert region of one unit of 64 KiB with a share of 64 KiB. -/
def aRegion : Nat := packBits [(0x100000, 455), (0x200000, 327), (1, 300), (64, 262)]
/-- Leaf word bits of a 4 KiB page that may be read and written. -/
def aPage : Nat := 3
/-- A job whose root table is at 0x1000000, with a leaf for the page at 0 that maps `pa`; `v` stands in device memory at 0x40. -/
def jobWith (pa v : Nat) : State :=
  let ptr := fun (t k : Nat) => (0x1000000 + t * 4096, 8, 2 ^ 63 + 0x1000000 + k * 4096)
  let m := [ptr 0 1, ptr 1 2, ptr 2 3, ptr 3 4, (0x1004000, 8, leafWord pa 0 0 true true false), (0x40, 8, v)]
  let q := m.flatMap (fun e => (List.range e.2.1).map (fun i => MemOp.put (e.1 + i) (BitVec.ofNat 8 (e.2.2 >>> (8 * i)))))
  let s := setF hlStatusLinkUp 0 1 (setF hlStatusRole 0 0 (setF atCtrlEn 0 1 (setF atCtrlRoot 0 0x1000 (setF atFqBaseBase 0 0x10 ob))))
  { s with mem := memCommit q [], xl.area := 0x1000000, xl.areaBytes := 0x100000, xl.pages := (List.range 5).map (fun i => 0x1000000 + i * 4096) }
def hostPage : Nat := hostWinBase + 0x5000
def obTable : State := jobWith 0x20000 0
def obHosted : State := jobWith hostPage 0x30000
def obDevice : State := jobWith 0x20000 hostPage
def obBias : State := setF coCtrlBiasBase 0 0x100 (setF coCtrlBiasEn 0 1 ob)
/-- A partition of this module's plane, up. -/
def aPart : Partition := { first := 0, planes := 1, whole := false, id := 1, timeoutMs := 10, planeOf := [0], standby := false }
def wholePart : Partition := { first := 0, planes := 8, whole := true, id := 1, timeoutMs := 10, planeOf := List.range 8, standby := false }
def obWhole : State := { setF tfPosSparePlane 0 8 (setF tfPosPartUp 0 1 ob) with fab.part := some wholePart }
def obPart (s : State) : State := { setF tfPosRank 0 0 (setF tfPosPartUp 0 1 s) with fab.part := some aPart }
/-- Every port up and open. -/
def openPorts (s : State) : State := (List.range 16).foldl (fun t p => setF tfPortStatusWidth p 2 (setF tfPortStatusFenced p 0 t)) s
/-- Ethernet port 0 is up, with queue pair 1 on it; network group 3 is this module alone, in service. -/
def aNetGroup : NetGroup := { cmd := none, members := [0], own := 0, version := 1 }
def obNet : State :=
  { setF netPortStatusState 0 2 (obMap 0 1 0) with net.ports := [(0, { mtu := 1500 })], net.qps := [(1, { en := true })], net.groups := [(3, aNetGroup)] }
/-- Every bank holds an image of security version 64. -/
def obBanks : State :=
  { ob with sec.images := (List.range 15).map (fun k => (k, ({ header := 2 ^ 70 } : BankImage))) }
/-- Submission queue 1 has one entry, a NOP, in device memory at 0x80000. -/
def obQueue (st : Nat) (k : SubQ) : State :=
  commit (writeNum 0x80000 64 (packBits [(0x100, 0), (0xA4, 488)])
    (setF sqStateState 1 st (setF sqStateTail 1 1 (setF sqStateDepthLog2 1 6 { ob with ob.sq := [(1, { k with base := 0x80000 })] }))))
/-- Lark slot 2 holds a NOP whose GO has been set. -/
def aLark (n : Nat) : LarkSlot := { req := packBits [(0x100, 0), (1, 1984), (1, 1984 + 35), (0xAD, 1984 + 40)], busy := true, rereads := n }
def obLark (n : Nat) : State := { ob with link.lark := [(2, aLark n)] }
/-- A log of one record. -/
def obLog : State := { ob with err.log := [(0, ({ reason := 0x0A55 }, false))], err.logCount := 1 }
/-- A collective barrier of queue 0 that one other member has not entered; another module's part of it. -/
def aColl : CollRun := { cmd := 0, words := (cmdOf 0x74 [0, 0, 0, 4, 0]).words, src := [], dst := [] }
def aCollPart : CollPart := { rank := 1, fields := [0, 4, 0], data := 0, poison := [] }
/-- A fetch of one chunk of 64 bytes, asked of the store. -/
def aMan : Manifest := { bytes := 64, chunkLog2 := 20, admitMib := 4, timeoutMs := 200, fallback := true, storeIp := 0, storeQpn := 0, storeKey := 0, storeAddr := 0, nodes := [{ addr := 0, parent := 0xFFFF, alt := 0xFFFF }, { addr := 1, parent := 0, alt := 0 }], hashes := [sha384 (List.replicate 64 1)] }
def aFetch : Fetch := { cmd := 0, words := (cmdOf 0x7B [0, 64, 0, 0, 0, 0, 0, 0, 0, 0, 0, 0, 0]).words, man := some aMan, asked := [0], kids := [{ node := 1 }] }
def obFetch : State := { obNet with net.fetch := some aFetch }
/-- Loam link 2 with a frame held for replay; moving its traffic; carried by the optical rings with a lane under test. -/
def loamBuf : State := loamMod 2 (fun x => { x with buf := [(0, 7, 40)] }) up
def loamMoving (b : Bool) : State := loamMod 2 (fun x => { x with move := some b }) (setF ddLinkStatusState 2 1 up)
def loamTest : State := loamMod 2 (fun x => { x with optical := true, tests := [laneKey false 5] }) (setF ddLinkStatusState 2 1 up)
def ringTest : State := ringMod 1 (fun y => { y with tests := [chanKey 3 4] }) up
/-- A fault of Tuft 5 waits for its test. -/
def aFault : State := pendErr { level := lvTuft, unit := 5, reason := 0x0430, cls := 0x01 } up
def spdmUp : State := setF hlStatusLinkUp 0 1 { ob with start.due := none }
/-- Translation of the one line at 0 for an access of that group, of class `cls`. -/
def linesFor (cls : Nat) (rd wr : Bool) (u : RegUse) : LineRes :=
  let i := aWord cls (if cls = 10 then [(4, 29), (6, 21)] else [(8, 37), (4, 29)])
  xlatLines { pathAccess 0 0 0 0 0 aRun with r := rd, w := wr } (List.replicate 32 0) [] (counted i aCtx u mapped)
end Sys2Proof.Machine

open Sys2Proof Sys2Proof.Machine

/-! ## The spec's worked examples -/

/-- R262–R265, address 0x0000_3A5C_6D40: stack 10, local 0x3A5_C540, channel 1, location word 0x13C0_1D2A; the granule back. -/
theorem test_interleave : homeOf 0x3A5C6D40 = 10 ∧ localOf 0x3A5C6D40 = 0x3A5C540 ∧ chanOf 0xE971 = 1 ∧
    locWord 0x3A5C6D40 = 0x13C01D2A ∧ granuleOf 10 1 0 15 0x74 1 = 0xE971B := by decide

/-- Table CF-2's example: a NOP with TOKEN 7 at producer count 0x0102 has check byte 0xA0; another count or byte fails. -/
theorem test_entry_passes : entryPasses (packBits [(0x700000100, 0), (0x0102A00000000000, 448)]) 0x0102 = true ∧
    entryPasses (packBits [(0x700000100, 0), (0x0102A00000000000, 448)]) 0x0103 = false ∧
    entryPasses (packBits [(0x700000101, 0), (0x0102A00000000000, 448)]) 0x0102 = false := by decide +kernel

/-- R371's example: slot 41 of 64 still holds tag 489 when the entry of count 553 is awaited. -/
theorem test_stale_entry : entryPasses (packBits [(0x100, 0), (489, 496), (0xA5 ^^^ 1 ^^^ 1 ^^^ 0xE9, 488)]) 553 = false ∧
    entryPasses (packBits [(0x100, 0), (489, 496), (0xA5 ^^^ 1 ^^^ 1 ^^^ 0xE9, 488)]) 489 = true := by decide +kernel

/-- The example of R59: 1 + 3 × 2⁻¹¹ under SR has f = 0xC000; a draw of 0x9A3F rounds up to 1 + 2⁻⁹, one of 0xC000 does not. -/
theorem test_stochastic : roundFin .xf16 { rmode := .sr } 0x9A3F false 2051 (-11) false = (0x3E01, 0) ∧
    roundFin .xf16 { rmode := .sr } 0xC000 false 2051 (-11) false = (0x3E00, 0) := by decide +kernel

/-- The example of R55, its decimals nudged to binary fractions: scale 0x80, nudge byte 0x70, codes 6, D, 5 and 1. -/
theorem test_block :
    let x := fun (n : Bool) (m : Nat) (e : Int) => Num.fin n m e
    let b := toBlock .xf4 {} (fun _ => 0) ([x false 10 0, x true 21 (-2)] ++ List.replicate 6 numZero ++ [x false 7 0] ++
      List.replicate 7 numZero ++ [x false 11 (-4), x false 7 (-6)] ++ List.replicate 6 numZero ++ [x false 25 (-3)] ++ List.replicate 7 numZero)
    b.scale = 0x80 ∧ b.nudges = 0x70 ∧ b.codes[0]? = some 6 ∧ b.codes[1]? = some 0xD ∧ b.codes[16]? = some 5 ∧ b.codes[17]? = some 1 :=
  by decide +kernel

/-- The example of R206: four lanes add 2⁻²⁴ to 1.0; memory becomes 1 + 2⁻²², the lanes receive 1, 1, 1 + 2⁻²³, 1 + 2⁻²². -/
theorem test_atomic_sum :
    (atomAll { global := true, op := .add, ty := .fp32, ret := true } {} 0x3F800000
      ((List.range 4).map (fun l => { lane := l, key := 0, val := 0x33800000, cmp := 0, bad := 0 }))).1
      = [(0, 0x3F800000), (1, 0x3F800000), (2, 0x3F800001), (3, 0x3F800002)] ∧
    (atomAll { global := true, op := .add, ty := .fp32, ret := true } {} 0x3F800000
      ((List.range 4).map (fun l => { lane := l, key := 0, val := 0x33800000, cmp := 0, bad := 0 }))).2.1 = 0x3F800002 := by
  decide +kernel

/-- The worked example of the fabric, spare plane 3 after the swap: 2→0→8 by x−2, x−1; 8→6→4 by x−2 twice; and back (R427). -/
theorem test_routes : xRoute 3 2 8 = [3, 1] ∧ xRoute 3 8 4 = [3, 3] ∧ xRoute 3 4 8 = [2, 2] ∧ xRoute 3 8 2 = [0, 2] := by decide +kernel

/-- Table CF-7's PHASE: the inverse of bit DEPTH_LOG2 of the index. -/
theorem test_phase : ringPhase 0 6 = 1 ∧ ringPhase 63 6 = 1 ∧ ringPhase 64 6 = 0 ∧ ringPhase 128 6 = 1 := by decide

/-- R69: with SUBN = 0 a subnormal FP32 reads as zero of its sign with FZ; XF8b keeps it. -/
theorem test_subnormals : decodeNum .fp32 false 0x80000001 = (.fin true 0 0, fFZ) ∧
    decodeNum .xf8b false 0x01 = (.fin false 1 (-16), 0) := by decide

/-! ## Steps -/

/-- The queue is first in, first out: a step takes the front command alone. -/
theorem test_fifo : (match step { up with pending := [.hostLinkUp 1 16, .coldStart {}] } with
    | .next t => t.pending | _ => []) = [.coldStart {}] := by decide +kernel

/-- A Tuft withdrawn from service below 2,160 M steps/s leaves a lasting record 0x0620 (R486). -/
theorem test_withdrawn : (ceilFalls 5 2159 up).err.log.map (fun e => (e.2.1.reason, e.2.1.unit)) = [(0x0620, 5)] ∧
    getF (ceilFalls 5 2159 up) tuftCeilState 5 = 3 ∧ (ceilFalls 5 2160 up).err.log = [] := by decide +kernel

/-- EXTEST outside test reset acts as BYPASS and is recorded with 0x0A31 (R477). -/
theorem test_extest : (match exec (.tapInstruction .module .extest) up with
    | .next t => (t.tap.ir, t.err.log.map (fun e => e.2.1.reason)) | _ => (9, [])) = (0, [0x0A31]) := by decide +kernel

/-! ## Ill-formed commands, one for each check -/

theorem test_wf_copy : Instr.wf (.copy 0 0 [2048] false) = false := by decide +kernel
theorem test_wf_combine : Instr.wf (.combine 0 (List.replicate 9 (0, [])) false) = false ∧
    Instr.wf (.combine 0 [(0, [2048])] false) = false := by decide +kernel
theorem test_wf_remote_read : Instr.wf (.remoteBurstArrive 0 0 0 0 65537 0 [] true) = false := by decide
theorem test_wf_remote_write : Instr.wf (.remoteBurstArrive 0 0 0 0 0 0 [] false) = false ∧
    Instr.wf (.remoteBurstArrive 0 0 0 0 32 0 [1] false) = false := by decide
theorem test_wf_burst : Instr.wf (.fabricBurstArrive 0 0 0 0 1 256 []) = false ∧
    Instr.wf (.fabricBurstArrive 0 0 0 0 64 0 [2]) = false := by decide
theorem test_wf_link_up : Instr.wf (.hostLinkUp 0 16) = false ∧ Instr.wf (.hostLinkUp 1 3) = false := by decide
theorem test_wf_retrain : Instr.wf (.hostLinkRetrain 0 16) = false ∧ Instr.wf (.hostLinkRetrain 6 0) = false := by decide
theorem test_wf_entries : Instr.wf (.sqEntryFetch (List.replicate 10241 0)) = false := by decide +kernel
theorem test_wf_lark : Instr.wf (.larkRequestWrite 0 0 []) = false ∧ Instr.wf (.larkRequestWrite 0 31 [0, 0]) = false := by decide
theorem test_wf_bar2 : Instr.wf (.bar2Access 0 true 1 256 false) = false ∧ Instr.wf (.bar2Access 0 false 0 0 false) = false := by decide
theorem test_wf_inbound : Instr.wf (.inboundDma 0 true 0 0 false) = false ∧ Instr.wf (.inboundDma 0 false 0 0 false) = false := by decide
theorem test_wf_register : Instr.wf (.registerWrite 0 3 0) = false := by decide
theorem test_wf_fields : Instr.wf (.collFieldsMessage 0 [0, 0] 0 []) = false := by decide
theorem test_wf_network : Instr.wf (.netMessageArrive 0 0 (.write 0 1 256)) = false ∧
    Instr.wf (.netMessageArrive 0 0 (.read 0 0)) = false ∧ Instr.wf (.netMessageArrive 0 0 (.send 0 0)) = false := by decide
theorem test_wf_chunk : Instr.wf (.imageChunkArrive .store 0 []) = false := by decide
theorem test_wf_pattern : Instr.wf (.patternDone 0 0 2 1) = false := by decide
theorem test_wf_dispatch : Instr.wf (.dispatchCountMessage 4096 0 0 0 0 [] true true) = false ∧
    Instr.wf (.dispatchCountMessage 0 8 0 0 0 [] true true) = false := by decide
theorem test_wf_update : Instr.wf (.pldmFwUpdateTransfer 0 []) = false := by decide
theorem test_wf_command : Instr.wf (.nop ⟨.sq 0, []⟩) = false ∧ Instr.wf (.quiesce ⟨.sq 0, List.replicate 32 0⟩) = false := by decide

/-! ## States that meet the hypotheses of the obligations -/

/-- What `Obligations.ThreadArithmetic` assumes can hold. -/
theorem witness_ThreadArithmetic :
    (let s : State := grp
     let i : Issue := aWord 0 [(5, 37)]
     let c : ICtx := aCtx
     let op : IntOp := .add
     let wide : Bool := false
     let n := if wide then 2 else 1
     let use : RegUse := { vd := n, va := if op == .mov then 0 else n, vb := n }
     (Issues 0 i c s) ∧
      (NoneFails (useChecks i c use ++ opReserved (op == .reserved)))) ∧
    (let s : State := grp
     let i : Issue := aWord 1 [(5, 37)]
     let c : ICtx := aCtx
     let op : FpOp := .add
     let dbl : Bool := false
     let n := if dbl then 2 else 1
     let use : RegUse := { vd := n, va := n, vb := if op == .sqrt || op == .rcp then 0 else n, vc := if op == .fma then n else 0 }
     (Issues 1 i c s) ∧
      (NoneFails (useChecks i c use ++ opReserved (op == .reserved || (dbl && (op == .div || op == .sqrt || op == .rcp)))))) ∧
    (let s : State := grp
     let i : Issue := aWord 2 [(5, 37)]
     let c : ICtx := aCtx
     (Issues 2 i c s) ∧
      (NoneFails (useChecks i c { vd := 1 }))) ∧
    (let s : State := grp
     let i : Issue := aWord 2 [(5, 37)]
     let c : ICtx := aCtx
     (Issues 2 i c s) ∧
      (NoneFails (useChecks i c { vd := 2 }))) ∧
    (let s : State := grp
     let i : Issue := aWord 2 [(5, 37)]
     let c : ICtx := aCtx
     let src : CvtFmt := .s32
     let dst : CvtFmt := .fp32
     let rnd : RndMod := .rz
     let draws := cvtDraws (taskArith s c.task.d) dst rnd
     let use : RegUse := { vd := cvtRegs dst, va := cvtRegs src, vc := bit draws, sb := draws }
     let u := counted i c use s
     let a := taskArith u c.task.d
     (Issues 2 i c s) ∧
      (NoneFails (useChecks i c use)) ∧
      (cvtDraws a dst rnd = draws)) ∧
    (let s : State := grp
     let i : Issue := aWord 3 [(1, 37)]
     let c : ICtx := aCtx
     let ty : CmpTy := .fp64
     let n := if ty == .s64 || ty == .u64 || ty == .fp64 then 2 else 1
     let use : RegUse := { va := n, vb := n, pd := true }
     (Issues 3 i c s) ∧
      (NoneFails (useChecks i c use))) ∧
    (let s : State := grp
     let i : Issue := aWord 3 [(1, 37), (2, 29), (3, 21)]
     let c : ICtx := aCtx
     let use : RegUse := { pd := true, pa := true, pb := true }
     (Issues 3 i c s) ∧
      (NoneFails (useChecks i c use))) ∧
    (let s : State := grp
     let i : Issue := aWord 14 [(5, 37), (1, 29), (2, 21)]
     let c : ICtx := aCtx
     let op : IntOp := .sub
     let use : RegUse := { sd := true, sa := op != .mov, sb := true }
     (Issues 14 i c s) ∧
      (NoneFails (useChecks i c use ++ opReserved (op == .reserved)))) := by and_intros <;> decide +kernel

/-- What `Obligations.ThreadControl` assumes can hold. -/
theorem witness_ThreadControl :
    (let s : State := grp
     let i : Issue := aWord 4 []
     let c : ICtx := aCtx
     (Issues 4 i c s) ∧
      (NoneFails (useChecks i c {}))) ∧
    (let s : State := grp
     let i : Issue := aWord 4 [(3, 37)]
     let c : ICtx := aCtx
     let use : RegUse := { sd := true }
     (Issues 4 i c s) ∧
      (NoneFails (useChecks i c use))) ∧
    (let s : State := grp
     let i : Issue := aWord 4 [(1, 29)]
     let c : ICtx := aCtx
     let use : RegUse := { sa := true }
     (Issues 4 i c s) ∧
      (NoneFails (useChecks i c use))) ∧
    (let s : State := grp
     let i : Issue := aWord 4 []
     let c : ICtx := aCtx
     (Issues 4 i c s) ∧
      (NoneFails (useChecks i c {}))) ∧
    (let s : State := grp
     let i : Issue := aWord 4 []
     let c : ICtx := aCtx
     (Issues 4 i c s) ∧
      (NoneFails (useChecks i c {}))) ∧
    (let s : State := grp
     let i : Issue := aWord 8 []
     let c : ICtx := aCtx
     let reserved : Bool := false
     (Issues 8 i c s) ∧
      (NoneFails (useChecks i c {} ++ (opReserved reserved ++ scopeChecks i)))) ∧
    (let s : State := barPut 0 false 3 (some { task := 1, count := 2 }) grp
     let i : Issue := aWord 8 [(1, 29)]
     let c : ICtx := aCtx
     let sward : Bool := false
     let idx : Fin 16 := 3
     let b : Barrier := { task := 1, count := 2 }
     let use : RegUse := { sa := true }
     let n := sreg c.g (iwA (iw i))
     let most := if sward then tkGroups c.task.d else groupsOnTuft c.task c.t
     let u := counted i c use s
     (Issues 8 i c s) ∧
      (NoneFails (useChecks i c use ++ [failIf (sward && decide (7 < idx.val)) 0x0460, failIf (c.act != 0 && (n == 0 || decide (most < n))) 0x0467])) ∧
      (barGet u c.t sward idx = some b) ∧
      (b.task = c.task.id) ∧
      ((setAdd b.arrived c.gi).length < b.count)) ∧
    (let s : State := barPut 0 true 7 (some { task := 1, count := 1 }) grp
     let i : Issue := aWord 8 [(1, 29)]
     let c : ICtx := aCtx
     let sward : Bool := true
     let idx : Fin 16 := 7
     let b : Barrier := { task := 1, count := 1 }
     let use : RegUse := { sa := true }
     let n := sreg c.g (iwA (iw i))
     let most := if sward then tkGroups c.task.d else groupsOnTuft c.task c.t
     let u := counted i c use s
     (Issues 8 i c s) ∧
      (NoneFails (useChecks i c use ++ [failIf (sward && decide (7 < idx.val)) 0x0460, failIf (c.act != 0 && (n == 0 || decide (most < n))) 0x0467])) ∧
      (barGet u c.t sward idx = some b) ∧
      (b.task = c.task.id) ∧
      (b.count ≤ (setAdd b.arrived c.gi).length)) ∧
    (let s : State := grp
     let i : Issue := aWord 9 [(2, 29), (63, 0)]
     let c : ICtx := aCtx
     let use : RegUse := { sa := true }
     (Issues 9 i c s) ∧
      (NoneFails (useChecks i c use))) ∧
    (let s : State := grp
     let i : Issue := aWord 9 [(2, 37), (63, 0)]
     let c : ICtx := aCtx
     let use : RegUse := { sd := true }
     (Issues 9 i c s) ∧
      (NoneFails (useChecks i c use))) := by and_intros <;> decide +kernel

theorem witness_ThreadControl_1 : let c : ICtx := { aCtx with act := 0 }; let w := fun (k : Nat) => aWord k [(1, 50)]; GuardedOff 0 (w 0) c grp ∧ NoneFails (useChecks (w 0) c { vd := 1, va := 1, vb := 1 } ++ opReserved false) ∧ GuardedOff 3 (w 3) c grp ∧ NoneFails (useChecks (aWord 3 [(1, 50), (1, 37)]) c { va := 1, vb := 1, pd := true }) ∧ GuardedOff 4 (w 4) c grp ∧ NoneFails (useChecks (w 4) c {}) := by decide +kernel

/-- What `Obligations.ThreadMemory` assumes can hold. -/
theorem witness_ThreadMemory :
    (let s : State := grp
     let i : Issue := aWord 5 [(8, 37), (4, 29)]
     let c : ICtx := aCtx
     let size : Fin 5 := 4
     let signed : Bool := false
     let m : MemMod := { store := false, size := size, signed := signed }
     let n := 2 ^ size.val
     let as := laneAddrs i c false
     (Issues 5 i c s) ∧
      (NoneFails (useChecks i c (memUse m 1) ++ (scopeChecks i ++
       [failIf (as.any (fun a => a.2 % n != 0)) 0x0462, failIf (as.any (fun a => decide (tkLimit c.task.d < a.2 + n))) 0x0463])))) ∧
    (let s : State := grp
     let i : Issue := aWord 5 [(8, 37), (4, 29)]
     let c : ICtx := aCtx
     let size : Fin 5 := 4
     let signed : Bool := false
     let m : MemMod := { store := true, size := size, signed := signed }
     let n := 2 ^ size.val
     let as := laneAddrs i c false
     (Issues 5 i c s) ∧
      (NoneFails (useChecks i c (memUse m 1) ++ (scopeChecks i ++
       [failIf (as.any (fun a => a.2 % n != 0)) 0x0462, failIf (as.any (fun a => decide (tkLimit c.task.d < a.2 + n))) 0x0463])))) ∧
    (let s : State := mapped
     let i : Issue := aWord 6 [(8, 37), (4, 29)]
     let c : ICtx := aCtx
     let size : Fin 5 := 3
     let signed : Bool := false
     let ls : Table Nat := lineTable (linesFor 6 true false { vd := 2, va := 2, vb := 2 })
     let t : State := lineState (linesFor 6 true false { vd := 2, va := 2, vb := 2 })
     let m : MemMod := { store := false, size := size, signed := signed }
     let n := 2 ^ size.val
     let as := laneAddrs i c true
     (Issues 6 i c s) ∧
      (NoneFails (useChecks i c (memUse m 2) ++ (scopeChecks i ++ [failIf (as.any (fun a => a.2 % n != 0)) 0x0462]))) ∧
      (guardCode (counted i c (memUse m 2) s) as n false = 0) ∧
      (xlatLines { pathAccess c.t c.gi (lowLane c.lanes) 0 0 c.task with r := true, w := false } (as.map (·.2)) [] (counted i c (memUse m 2) s) = .ok ls t) ∧
      (ls.any (fun e => isHostWin e.2 128) = false)) ∧
    (let s : State := mapped
     let i : Issue := aWord 6 [(8, 37), (4, 29)]
     let c : ICtx := aCtx
     let size : Fin 5 := 3
     let signed : Bool := false
     let ls : Table Nat := lineTable (linesFor 6 false true { data := 2, va := 2, vb := 2 })
     let t : State := lineState (linesFor 6 false true { data := 2, va := 2, vb := 2 })
     let m : MemMod := { store := true, size := size, signed := signed }
     let n := 2 ^ size.val
     let r := iwDst (iw i)
     let as := laneAddrs i c true
     (Issues 6 i c s) ∧
      (NoneFails (useChecks i c (memUse m 2) ++ (scopeChecks i ++ [failIf (as.any (fun a => a.2 % n != 0)) 0x0462]))) ∧
      (guardCode (counted i c (memUse m 2) s) as n true = 0) ∧
      (xlatLines { pathAccess c.t c.gi (lowLane c.lanes) 0 0 c.task with r := false, w := true } (as.map (·.2)) [] (counted i c (memUse m 2) s) = .ok ls t) ∧
      (ls.any (fun e => isHostWin e.2 128) = false)) ∧
    (let s : State := grp
     let i : Issue := aWord 7 [(8, 37), (4, 29)]
     let c : ICtx := aCtx
     let op : AtomOp := .add
     let ty : AtomTy := .u64
     let ret : Bool := true
     let m : AtomMod := { global := false, op := op, ty := ty, ret := ret }
     let n := atomBits ty / 8
     let k := n / 4
     let use := atomUse i m 1 k
     let as := (lanesOf c.act).map (fun l => (l, vregs c.g (iwA (iw i)) 1 l))
     (Issues 7 i c s) ∧
      (NoneFails (useChecks i c use ++ (scopeChecks i ++ [failIf (!atomListed op ty) 0x0464, failIf (as.any (fun a => a.2 % n != 0)) 0x0462,
       failIf (as.any (fun a => decide (tkLimit c.task.d < a.2 + n))) 0x0463])))) ∧
    (let s : State := mapped
     let i : Issue := aWord 7 [(8, 37), (4, 29)]
     let c : ICtx := aCtx
     let op : AtomOp := .add
     let ty : AtomTy := .u64
     let ret : Bool := true
     let ls : Table Nat := lineTable (linesFor 7 true true { vd := 2, va := 2, vb := 2 })
     let t : State := lineState (linesFor 7 true true { vd := 2, va := 2, vb := 2 })
     let m : AtomMod := { global := true, op := op, ty := ty, ret := ret }
     let n := atomBits ty / 8
     let k := n / 4
     let use := atomUse i m 2 k
     let as := (lanesOf c.act).map (fun l => (l, vregs c.g (iwA (iw i)) 2 l))
     let lanes := fun (key : Nat → Nat) => as.map (fun a => ({
       lane := a.1, key := key a.2, val := operandB i c k a.1
       cmp := if use.vc = 0 then 0 else operandC i c k a.1, bad := operandPoison i c use a.1 } : AtomLane))
     let write := fun (a v : Nat) (bad : Bool) (u : State) => globalWrite a n v bad (if isDevMem a n then u else drawn u)
     let r := atomLanes c m (fun u a => globalRead u a n 0) write (lanes (paOf ls)) (hostTouch c false ls (ls.foldl (fun u e => lineTouch c.t true e.2 u) t))
     (Issues 7 i c s) ∧
      (NoneFails (useChecks i c use ++ (scopeChecks i ++ [failIf (!atomListed op ty) 0x0464, failIf (as.any (fun a => a.2 % n != 0)) 0x0462,
       failIf false 0x0463]))) ∧
      (guardCode (counted i c use s) as n true = 0) ∧
      (xlatLines { pathAccess c.t c.gi (lowLane c.lanes) 0 0 c.task with r := true, w := true } (as.map (·.2)) [] (counted i c use s) = .ok ls t) ∧
      (ls.any (fun e => isHostWin e.2 128) = false)) ∧
    (let s : State := mapped
     let i : Issue := aWord 10 [(4, 29), (6, 21)]
     let c : ICtx := aCtx
     let size : Fin 5 := 4
     let ls : Table Nat := lineTable (linesFor 10 true false { va := 2, vb := 1 })
     let t : State := lineState (linesFor 10 true false { va := 2, vb := 1 })
     let n := 2 ^ size.val
     let use : RegUse := { va := 2, vb := 1 }
     let as := (lanesOf c.act).map (fun l => (l, vregs c.g (iwA (iw i)) 2 l))
     let dst := (lanesOf c.act).map (fun l => operandB i c 1 l)
     (Issues 10 i c s) ∧
      (NoneFails (useChecks i c use ++ (opReserved (decide (n < 4)) ++
       [failIf (as.any (fun a => a.2 % n != 0) || dst.any (fun a => a % n != 0)) 0x0462, failIf (dst.any (fun a => decide (tkLimit c.task.d < a + n))) 0x0463]))) ∧
      (guardCode (counted i c use s) as n false = 0) ∧
      (xlatLines { pathAccess c.t c.gi (lowLane c.lanes) 0 0 c.task with r := true, w := false } (as.map (·.2)) [] (counted i c use s) = .ok ls t) ∧
      (ls.any (fun e => isHostWin e.2 128) = false)) ∧
    (let s : State := setTuft 0 { laneCopies := [{ ctr := 3, task := 1, moves := [{ src := 4096, va := 4096, dst := 64, len := 16 }] }] } up
     let t : TuftNo := 0
     let nth : Fin 64 := 0
     let lc : LaneCopy := { ctr := 3, task := 1, moves := [{ src := 4096, va := 4096, dst := 64, len := 16 }] }
     (TuftRuns s t.val) ∧
      ((tuft s t.val).laneCopies[nth.val]? = some lc)) := by and_intros <;> decide +kernel

/-- What `Obligations.MatrixEngine` assumes can hold. -/
theorem witness_MatrixEngine :
    (let s : State := withDesc 64 aMatrix.toNat
     let i : Issue := aWord 11 [(2, 29)]
     let c : ICtx := aCtx
     let u := counted i c { sa := true } s
     let d := descAt i c 64 u
     (Issues 11 i c s) ∧
      (NoneFails (useChecks i c { sa := true } ++ descChecks i c 64)) ∧
      (mxRoom u c.t d = true)) ∧
    (let s : State := tuftMx { queue := List.replicate 4 { stamp := 0, task := 1, desc := 0 } }
     let i : Issue := aWord 11 [(2, 29)]
     let c : ICtx := aCtx
     let u := counted i c { sa := true } s
     (Issues 11 i c s) ∧
      (NoneFails (useChecks i c { sa := true } ++ descChecks i c 64)) ∧
      (mxRoom u c.t (descAt i c 64 u) = false)) ∧
    (let s : State := tuftMx { queue := [{ stamp := 0, task := 1, desc := aMatrix }] }
     let t : TuftNo := 0
     let quad : Fin 4 := 0
     let o : MxOp := { stamp := 0, task := 1, desc := aMatrix }
     let r : TaskRec := aRun
     let m := mxGet s t.val
     (TuftRuns s t.val) ∧
      (m.queue.find? (fun o => mxKey o.d == quad.val) = some o) ∧
      (mxMustWait m o = false) ∧
      (mxModeOn s t.val o = true) ∧
      (tget m.loading quad.val = none) ∧
      (mxTask s o = some r) ∧
      (r.phase = .running) ∧
      (lowestCode (mxChecks o.d (tkLimit r.d) (tkJoin r.d) (t.val % 4 == 0)) = none)) ∧
    (let s : State := tuftMx { running := [{ stamp := 0, task := 1, desc := aMatrix, loads := 1 }], loading := [(0, 0)], loadQ := [0] }
     let t : TuftNo := 0
     let quad : Fin 4 := 0
     let o : MxOp := { stamp := 0, task := 1, desc := aMatrix, loads := 1 }
     let st : Nat := 0
     let m := mxGet s t.val
     let w := mxLoaded s t.val o.d
     let o' := { o with loads := 0, wset := some w }
     (TuftRuns s t.val) ∧
      (tget m.loading quad.val = some st) ∧
      (m.running.find? (fun o => some st == some o.stamp) = some o) ∧
      (m.loadQ.head? = some quad.val) ∧
      (mxMetaOk s t.val o.d = true) ∧
      (oneSet o.d = true) ∧
      (o.loads = 1)) ∧
    (let s : State := tuftMx { running := [{ stamp := 0, task := 1, desc := aMatrix, wset := some {} }] }
     let t : TuftNo := 0
     let quad : Fin 4 := 0
     let waited : W32 := 5
     let o : MxOp := { stamp := 0, task := 1, desc := aMatrix, wset := some {} }
     let u := bump tsCountsStoreWait t.val waited.toNat s
     (TuftRuns s t.val) ∧
      ((mxGet u t.val).running.find? (fun o => mxKey o.d == quad.val) = some o) ∧
      (o.loads = 0) ∧
      (mxHanded o = true) ∧
      (mxOutVe o.d = false)) ∧
    (let s : State := tuftMx { mode := 1, queue := [{ stamp := 0, task := 1, desc := aMatrix }] }
     let t : TuftNo := 0
     let o : MxOp := { stamp := 0, task := 1, desc := aMatrix }
     let rest : List MxOp := []
     let idle := fun (x : Nat) => (mxGet s x).running.isEmpty && (x == t.val || (mxGet s x).queue.isEmpty)
     (mxHeadCode s t.val o = some none) ∧
      (TuftRuns s t.val) ∧
      ((mxGet s t.val).queue = o :: rest) ∧
      (mxModeOn s t.val o = false) ∧
      ((mxTufts t.val o.d).all idle = true)) ∧
    (let s : State := tuftMx { running := [{ stamp := 0, task := 1, desc := aMatrix }] }
     let t : TuftNo := 0
     let quad : Fin 4 := 0
     let o : MxOp := { stamp := 0, task := 1, desc := aMatrix }
     (TuftRuns s t.val) ∧
      ((mxGet s t.val).running.find? (fun o => mxKey o.d == quad.val) = some o) ∧
      (o.ords = []) ∧
      (mxOutVe o.d = false)) ∧
    (let s : State := modTuft 0 (fun y => { y with ve := { queue := [{ stamp := 1, task := 1, desc := aFed }] } }) (tuftMx { running := [{ stamp := 0, task := 1, desc := aFoot, wset := some {}, ords := [(0, 0)] }] })
     let t : TuftNo := 0
     let quad : Fin 4 := 0
     let o : MxOp := { stamp := 0, task := 1, desc := aFoot, wset := some {}, ords := [(0, 0)] }
     let r : TaskRec := aRun
     let c : VeChain := { stamp := 1, task := 1, desc := aFed }
     let ord := tgetD o.ords t.val 0
     (TuftRuns s t.val) ∧
      ((tuft s t.val).ve.buf = none) ∧
      ((mxGet s t.val).running.find? (fun o => mxOutVe o.d && mxKey o.d == quad.val && o.loads == 0 && (tget o.ords t.val).isSome && tgetD o.handed t.val 0 < mxBlockCount o.d) = some o) ∧
      (taskGet s o.task = some r) ∧
      (chainByOrd s t.val ord = some c) ∧
      ((veM c.desc.toNat, veN c.desc.toNat) = mxShape t.val o.d) ∧
      (ordBefore s t.val ord = false)) := by and_intros <;> decide +kernel

/-- What `Obligations.VectorEngine` assumes can hold. -/
theorem witness_VectorEngine :
    (let s : State := withDesc 128 aChain.toNat
     let i : Issue := aWord 12 [(0, 29)]
     let c : ICtx := aCtx
     let u := counted i c { sa := true } s
     (Issues 12 i c s) ∧
      (NoneFails (useChecks i c { sa := true } ++ descChecks i c 128)) ∧
      ((tuft u c.t).ve.queue.length < 4)) ∧
    (let s : State := tuftVe { queue := List.replicate 4 { stamp := 0, task := 1, desc := aChain } }
     let i : Issue := aWord 12 [(0, 29)]
     let c : ICtx := aCtx
     let u := counted i c { sa := true } s
     (Issues 12 i c s) ∧
      (NoneFails (useChecks i c { sa := true } ++ descChecks i c 128)) ∧
      (4 ≤ (tuft u c.t).ve.queue.length)) ∧
    (let s : State := tuftVe { queue := [{ stamp := 0, task := 1, desc := aChain }] }
     let t : TuftNo := 0
     let c : VeChain := { stamp := 0, task := 1, desc := aChain }
     let rest : List VeChain := []
     let r : TaskRec := aRun
     (TuftRuns s t.val) ∧
      ((tuft s t.val).ve.running = none) ∧
      ((tuft s t.val).ve.queue = c :: rest) ∧
      (veHazard s t.val c = false) ∧
      (taskGet s c.task = some r) ∧
      (r.phase = .running) ∧
      (lowestCode (veAllChecks s t.val (tkLimit r.d) c) = none)) ∧
    (let s : State := tuftVe { running := some { stamp := 0, task := 1, desc := aChain } }
     let t : TuftNo := 0
     let c : VeChain := { stamp := 0, task := 1, desc := aChain }
     let r : TaskRec := aRun
     (TuftRuns s t.val) ∧
      ((tuft s t.val).ve.buf = none) ∧
      ((tuft s t.val).ve.running = some c) ∧
      (veSrcMx c.d = false) ∧
      (taskGet s c.task = some r)) ∧
    (let s : State := tuftVe { running := some { stamp := 0, task := 1, desc := aChain } }
     let t : TuftNo := 0
     let c : VeChain := { stamp := 0, task := 1, desc := aChain }
     (TuftRuns s t.val) ∧
      ((tuft s t.val).ve.running = some c)) := by and_intros <;> decide +kernel

/-- What `Obligations.GroupsAndFetch` assumes can hold. -/
theorem witness_GroupsAndFetch :
    (let s : State := modTuft 0 (fun y => { y with waiting := [1], groups := [] }) grp
     let t : TuftNo := 0
     let gi : Nat := 1
     let rest : List Nat := []
     let r : TaskRec := aRun
     (TuftRuns s t.val) ∧
      ((tuft s t.val).waiting = gi :: rest) ∧
      (taskOn s t.val = some r) ∧
      (r.phase = .running) ∧
      ((taskTufts r).all (fun u => getF s tuftCeilState u != 2) = true) ∧
      ((tuft s t.val).groups.length < residency r.d)) ∧
    (let s : State := mapped
     let t : TuftNo := 0
     let group : W16 := 0
     let g : Group := aGroup
     let p : TPath := { lanes := 0xFFFFFFFF, pc := 0 }
     let r : TaskRec := aRun
     let pa : Nat := 0
     let len : Nat := 4096
     let u : State := (translate { pathAccess 0 0 0 1 0 aRun with x := true } mapped).2
     let line := if (tuft s t.val).icache.contains (p.pc / 128) then (p.pc + 15) / 128 else p.pc / 128
     let got := rangeAccess .rds (meadowOfTuft t.val) pa 128 u
     (TuftRuns s t.val) ∧
      (groupGet s t.val group.toNat = some g) ∧
      (curPath g = some p) ∧
      (taskGet s g.task = some r) ∧
      (r.phase = .running) ∧
      (regionGuard s (line * 128) 128 false = 0) ∧
      (translate { pathAccess t.val group.toNat (lowLane p.lanes) 1 (line * 128) r with x := true } s = (.ok pa len, u)) ∧
      (physPoison got pa 128 = false)) ∧
    (let s : State := up
     let t : TuftNo := 5
     (TuftRuns s t.val)) ∧
    (let s : State := grp
     let t : TuftNo := 0
     let reg : Fin 256 := 254
     (TuftRuns s t.val) ∧
      (reg.val ≠ 255)) ∧
    (let s : State := grp
     let i : Issue := aWord 13 [(2, 29), (4, 0)]
     let c : ICtx := aCtx
     let u := counted i c { sa := true } s
     (Issues 13 i c s) ∧
      (NoneFails (useChecks i c { sa := true } ++ descChecks i c 64)) ∧
      (invWaiting u (meadowOfTuft c.t) < 8)) ∧
    (let s : State := withDesc 64 aFill
     let i : Issue := aWord 10 [(2, 29)]
     let c : ICtx := aCtx
     let u := counted i c { sa := true } s
     let d := descAt i c 64 u
     let r := submitCopy (c.t / 8) (.tuft c.t) (.task c.task.id) (BitVec.ofNat 512 d) u
     (Issues 10 i c s) ∧
      (NoneFails (useChecks i c { sa := true } ++ descChecks i c 64)) ∧
      (NoneFails (copyChecks u { task := some c.task, sward := c.t / 8 } d)) ∧
      (r.2.1 = none)) := by and_intros <;> decide +kernel

/-- What `Obligations.TasksAndStores` assumes can hold. -/
theorem witness_TasksAndStores :
    (let s : State := { up with work.tasks := [{ aRun with phase := .waiting }] }
     let r : TaskRec := { aRun with phase := .waiting }
     let rest : List TaskRec := []
     let t0 : Nat := 0
     let allocs : List (Nat × Nat) := []
     let t : State := { up with work.tasks := [{ aRun with phase := .waiting }] }
     (Running s) ∧
      (startOrder s = r :: rest) ∧
      (taskGet s r.id = some r) ∧
      (r.phase = .waiting) ∧
      (seqAllows s r = true) ∧
      (placeTask s r = .at t0) ∧
      (barriersCode r.d = 0) ∧
      (poolCode s (t0 / 8) r.d = 0) ∧
      (poolServeAll r.id (t0 / 8) (tkReqs r.d) s = some (allocs, t))) ∧
    (let s : State := setTuft 0 { task := some 1 } { up with work.tasks := [{ aRun with groupsLeft := 0 }] }
     let t : TuftNo := 0
     let id : Nat := 1
     let r : TaskRec := { aRun with groupsLeft := 0 }
     (TuftRuns s t.val) ∧
      ((tuft s t.val).task = some id) ∧
      (taskGet s id = some r) ∧
      (r.phase = .running) ∧
      (taskIdle s r = true)) ∧
    (let s : State := { up with work.tasks := [{ aRun with phase := .waiting, poolWait := some 0 }] }
     let id : Nat := 1
     let r : TaskRec := { aRun with phase := .waiting, poolWait := some 0 }
     (Running s) ∧
      (taskGet s id = some r) ∧
      (r.phase = .waiting) ∧
      (r.poolWait.isSome = true)) ∧
    (let s : State := { up with work.bufWait := [(7, 0)] }
     let id : Nat := 7
     (Running s) ∧
      (s.work.bufWait.any (fun e => e.1 == id) = true)) ∧
    (let s : State := up
     let t : TuftNo := 1023
     (TuftRuns s t.val)) ∧
    (let s : State := up
     let t : TuftNo := 1023
     (TuftRuns s t.val)) := by and_intros <;> decide +kernel

/-- What `Obligations.CopyEngine` assumes can hold. -/
theorem witness_CopyEngine :
    (let s : State := withCopy (aCopyRec 0) anEnt
     let entry : Nat := 0
     let e : CopyEnt := anEnt
     let c : CopyRec := aCopyRec 0
     let p : Piece := { src := 0, dst := 0x3000, len := 64 }
     let rest : List Piece := []
     let d := c.desc.toNat
     let moving := entMod entry (fun e => { e with moving := true }) s
     (DieRuns s (c.sward / 16)) ∧
      (entGet s entry = some e) ∧
      (copyGet s e.copy = some c) ∧
      (cpOp d = 0) ∧
      (e.stalled = false ∧ e.stale = false ∧ e.pieces = p :: rest) ∧
      (e.moving = true ∨ entMayStart s e = true) ∧
      (copyRemote d = true → rankCode moving (cpRank d) = 0) ∧
      (s.link.dState = 3 → burstToHost d p = false) ∧
      (readsHost d p = true → readsFull s = false)) ∧
    (let s : State := withCopy (aCopyRec 1) anEnt
     let entry : Nat := 0
     let e : CopyEnt := anEnt
     let c : CopyRec := aCopyRec 1
     let p : Piece := { src := 0, dst := 0x3000, len := 64 }
     let rest : List Piece := []
     let d := c.desc.toNat
     let moving := entMod entry (fun e => { e with moving := true }) s
     (DieRuns s (c.sward / 16)) ∧
      (entGet s entry = some e) ∧
      (copyGet s e.copy = some c) ∧
      (cpOp d = 1) ∧
      (e.stalled = false ∧ e.stale = false ∧ e.pieces = p :: rest) ∧
      (e.moving = true ∨ entMayStart s e = true) ∧
      (copyRemote d = true → rankCode moving (cpRank d) = 0) ∧
      (s.link.dState = 3 → burstToHost d p = false) ∧
      (readsHost d p = true → readsFull s = false)) ∧
    (let s : State := withCopy (aCopyRec 1) { anEnt with moving := true, pieces := [] }
     let entry : Nat := 0
     let e : CopyEnt := { anEnt with moving := true, pieces := [] }
     let c : CopyRec := aCopyRec 1
     let c' : CopyRec := aCopyRec 1
     let others := s.copies.ents.filter (fun x => x.id != entry)
     let t := creditFree c.sward c.sub { s with copies.ents := others }
     (DieRuns s (c.sward / 16)) ∧
      (entGet s entry = some e) ∧
      (copyGet s e.copy = some c) ∧
      (entOver c e = true) ∧
      (s.link.reads.any (fun r => r.2.1 == c.id) = false ∧ burstsOut s c = false) ∧
      (copyGet t e.copy = some c') ∧
      (c'.rest = []) ∧
      (t.copies.ents.any (fun x => x.copy == c'.id) = false)) ∧
    (let s : State := withCopy { aCopyRec 1 with desc := BitVec.ofNat 512 (packBits [(1, 139), (1, 143)]) } anEnt
     let entry : Nat := 0
     let e : CopyEnt := anEnt
     let c : CopyRec := { aCopyRec 1 with desc := BitVec.ofNat 512 (packBits [(1, 139), (1, 143)]) }
     let c' : CopyRec := { aCopyRec 1 with desc := BitVec.ofNat 512 (packBits [(1, 139), (1, 143)]), code := 0x0576 }
     let bad := e.whole.foldl (fun t p => poisonRange (poolKey c.sward p.dst) p.len t) s
     let told := pendErr { level := lvSward, unit := c.sward, reason := 0x0576, cls := 0x01 } (raise flLmStatusCheckErr c.sward bad)
     let t := creditFree c.sward c.sub (releaseSubmitter c.id (copyStops c 0x0576 told))
     (DieRuns s (c.sward / 16)) ∧
      (entGet s entry = some e) ∧
      (copyGet s e.copy = some c) ∧
      (cpDstSpace c.desc.toNat = 1 ∧ isExchange c.desc.toNat = false) ∧
      (copyGet t c.id = some c')) ∧
    (let s : State := obMap 0 1 0
     let u : UnitNo := 8
     let va : VA := 64
     let len : Nat := 4
     let rs : List (Nat × Nat × Nat) := [(64, 64, 4)]
     let t : State := (vruns { unit := 8, agent := 5, va := 64 } 64 4 (obMap 0 1 0)).2
     (DieRuns s (dieOfXunit u) ∧ 8 ≤ u.val) ∧
      (vruns { unit := u, agent := 5, va := va.toNat } va.toNat len s = (.runs rs, t))) ∧
    (let s : State := obMap 0 1 0
     let u : UnitNo := 8
     let va : VA := 64
     let len : Nat := 4
     let v : Nat := 0
     let bad : List Nat := []
     let t : State := vState (vreads { unit := 8, agent := 5, va := 64 } [(64, 4)] (obMap 0 1 0))
     (DieRuns s (dieOfXunit u) ∧ 8 ≤ u.val) ∧
      (vreads { unit := u, agent := 5, va := va.toNat } [(va.toNat, len)] s = .ok [v] [bad] t)) := by and_intros <;> decide +kernel

/-- What `Obligations.ExchangeSteps` assumes can hold. -/
theorem witness_ExchangeSteps :
    (let s : State := anExchange 2 5
     let entry : Nat := 0
     let e : CopyEnt := { anEnt with moving := true }
     let c : CopyRec := exchangeRec 2 5
     let x : Nat := 0
     let n : Nat := 1
     let m : Nat := 0
     let o : Nat := 0
     let d : Nat := 4096
     let start : Nat := 0
     let vs : List Nat := [0]
     let row : List Nat := [0]
     let bad0 : List (List Nat) := [[]]
     let bad1 : List (List Nat) := [[]]
     let t : State := vState (vreads (exAccess (anExchange 2 5) (exchangeRec 2 5)) [(128 + offsBytes 4096, 8)] (anExchange 2 5))
     let u : State := vState (vreads (exAccess (anExchange 2 5) (exchangeRec 2 5)) [(0, 64)] (vState (vreads (exAccess (anExchange 2 5) (exchangeRec 2 5)) [(128 + offsBytes 4096, 8)] (anExchange 2 5))))
     let b := c.block
     let a := exAccess s c
     let bad := allPieces (c.listBad || anyBad bad0) (exRowBytes b) ++ bad1.getD 0 []
     let told := if bad.isEmpty then u else raise flLmStatusPoison c.sward (copyMod c.id (fun c => { c with poison := true }) u)
     (DieRuns s (c.sward / 16)) ∧
      (entGet s entry = some e) ∧
      (copyGet s e.copy = some c) ∧
      (cpOp c.desc.toNat = 2 ∧ e.stalled = false ∧ e.spent = false ∧ e.moving = true) ∧
      (segmentsIn c = true) ∧
      (exInvocation s (exList b) = some (m, o, d)) ∧
      ((roundCounts c.offs).find? (fun p => c.offs.getD p.1 0 ≤ e.next && e.next < c.offs.getD p.1 0 + p.2) = some (x, n)) ∧
      (tget c.starts x = some start) ∧
      (vreads a [(exList b + 128 + exRound b * roundBytes d + offsBytes d + 8 * e.next, 8)] s = .ok vs bad0 t) ∧
      (vreads a [(exRows b + vs.getD 0 0 % 65536 * exRowStride b, exRowBytes b)] t = .ok row bad1 u) ∧
      (tgetD c.ranks x 0 ≠ ownRank told)) ∧
    (let s : State := anExchange 3 0
     let entry : Nat := 0
     let e : CopyEnt := { anEnt with moving := true }
     let c : CopyRec := exchangeRec 3 0
     let reply : List (Nat × List Nat) := []
     let m : Nat := 0
     let o : Nat := 0
     let d : Nat := 4096
     let vs : List Nat := [0]
     let bad0 : List (List Nat) := [[]]
     let rows : List (Nat × Nat × List Nat) := exRowsAt
     let rs : List (Nat × Nat × Nat) := [(0, 0, 64)]
     let t : State := exT1
     let u : State := exT2
     let w : State := (vruns (exAccess (anExchange 3 0) (exchangeRec 3 0)) 0 64 exT2).2
     let b := c.block
     let a := exAccess s c
     let words := (List.range (rtK d)).map (fun i => (i, (vs.getD 0 0 >>> (128 * i)) % 2 ^ 128))
     let fetched := combineRows a c d reply words t
     let fin := (fmtOfCode (exFmtIn b)).getD .fp32
     let fout := (fmtOfCode (exFmtOut b)).getD .fp32
     let n := exRowBytes b / (fmtBits fin / 8)
     (DieRuns s (c.sward / 16)) ∧
      (entGet s entry = some e) ∧
      (copyGet s e.copy = some c) ∧
      (cpOp c.desc.toNat = 3 ∧ e.stalled = false ∧ e.spent = false ∧ e.moving = true) ∧
      (exInvocation s (exList b) = some (m, o, d)) ∧
      (vreads a [(exList b + combineOff d + e.next * rtK d * 16, rtK d * 16)] s = .ok vs bad0 t) ∧
      (fetched.1.toOption = some rows ∧ fetched.2 = u) ∧
      (vruns a (exRows b + e.next * exRowStride b) (n * (fmtBits fout / 8)) u = (.runs rs, w))) ∧
    (let s : State := up
     (Running s)) ∧
    (let s : State := let t := anExchange 2 5; { t with copies.recs := [{ exchangeRec 2 5 with starts := [] }] }
     let entry : Nat := 0
     let expert : Nat := 0
     let e : CopyEnt := { anEnt with moving := true }
     let c : CopyRec := { exchangeRec 2 5 with starts := [] }
     let m : Nat := 0
     let o : Nat := 0
     let d : Nat := 4096
     let rank : Nat := 5
     let rs : List (Nat × Nat × Nat) := [(0, 0, 4)]
     let t : State := (vruns (exAccess mapped (exchangeRec 2 5)) 0 4 (let t := anExchange 2 5; { t with copies.recs := [{ exchangeRec 2 5 with starts := [] }] })).2
     let b := c.block
     let slot := exSegTab b + (exRound b * rtExperts d + expert) * 4
     (DieRuns s (c.sward / 16)) ∧
      (entGet s entry = some e) ∧
      (copyGet s e.copy = some c) ∧
      (cpOp c.desc.toNat = 2 ∧ e.moving = true) ∧
      (tget c.ranks expert = some rank ∧ rank ≠ ownRank s) ∧
      (tget c.starts expert = none) ∧
      (exInvocation s (exList b) = some (m, o, d)) ∧
      (vruns (exAccess s c) slot 4 s = (.runs rs, t))) := by and_intros <;> decide +kernel

/-- What `Obligations.RouterAndResidency` assumes can hold. -/
theorem witness_RouterAndResidency :
    (let s : State := withInv { id := 0, desc := aRouter, owner := .task 1 0 4 }
     let m : MeadowNo := 0
     let i : Invocation := { id := 0, desc := aRouter, owner := .task 1 0 4 }
     let rest : List Invocation := []
     let vs : List Nat := [0, 0, 0]
     let bad : List (List Nat) := [[], [], []]
     let out : List (Nat × Nat × Nat) := [(0, 0, outBytes aRouter.toNat)]
     let t : State := invT
     let u : State := (vruns (stileAccess (withInv { id := 0, desc := aRouter, owner := .task 1 0 4 }) 0 { id := 0, desc := aRouter, owner := .task 1 0 4 }) 0 (outBytes aRouter.toNat) invT).2
     let d := i.desc.toNat
     let a := stileAccess s m.val i
     let rows := (List.range (rtTokens d)).map (fun t => (rtLogits d + t * rtStride d, rtExperts d * rtLogitBytes d))
     let tags := vs.getD (rtTokens d + 1) 0
     (DieRuns s m.val) ∧
      (invQueue s m.val = i :: rest) ∧
      (i.started = false) ∧
      (NoneFails (routerChecks d)) ∧
      (rtCount d = 0 ∧ rtBias d = 0) ∧
      (i.res.parts = [] ∧ mergeable u m.val i = []) ∧
      (vreads a (rows ++ [(rtSeq d, 0)] ++ [(rtSeq d, 2 * rtTokens d)]) (pfSubmission a (rtLogits d) s) = .ok vs bad t) ∧
      (vruns a (rtOut d) (outBytes d) t = (.runs out, u)) ∧
      ((List.range (rtTokens d)).any (fun k => (tags >>> (16 * k)) % 65536 &&& 0x7E00 != 0) = false)) ∧
    (let s : State := withInv { id := 0, desc := aRouter, owner := .task 1 0 4 }
     let m : MeadowNo := 0
     let i : Invocation := { id := 0, desc := aRouter, owner := .task 1 0 4 }
     let rest : List Invocation := []
     let vs : List Nat := [0, 0, 0]
     let bad : List (List Nat) := [[], [], []]
     let out : List (Nat × Nat × Nat) := [(0, 0, outBytes aRouter.toNat)]
     let t : State := invT
     let u : State := (vruns (stileAccess (withInv { id := 0, desc := aRouter, owner := .task 1 0 4 }) 0 { id := 0, desc := aRouter, owner := .task 1 0 4 }) 0 (outBytes aRouter.toNat) invT).2
     let d := i.desc.toNat
     let a := stileAccess s m.val i
     let rows := (List.range (rtTokens d)).map (fun t => (rtLogits d + t * rtStride d, rtExperts d * rtLogitBytes d))
     let tags := vs.getD (rtTokens d + 1) 0
     (DieRuns s m.val) ∧
      (invQueue s m.val = i :: rest) ∧
      (i.started = false) ∧
      (NoneFails (routerChecks d)) ∧
      (rtCount d = 0 ∧ rtBias d = 0) ∧
      (i.res.parts = []) ∧
      (vreads a (rows ++ [(rtSeq d, 0)] ++ [(rtSeq d, 2 * rtTokens d)]) (pfSubmission a (rtLogits d) s) = .ok vs bad t) ∧
      (vruns a (rtOut d) (outBytes d) t = (.runs out, u)) ∧
      ((List.range (rtTokens d)).any (fun k => (tags >>> (16 * k)) % 65536 &&& 0x7E00 != 0) = false)) ∧
    (let s : State := withInv { id := 0, desc := aRouter, owner := .task 1 0 4, res := { parts := [(0, 1, 0)] } }
     let m : MeadowNo := 0
     let i : Invocation := { id := 0, desc := aRouter, owner := .task 1 0 4, res := { parts := [(0, 1, 0)] } }
     let rest : List Invocation := []
     let out : List (Nat × Nat × Nat) := [(0, 0, outBytes aRouter.toNat)]
     let u : State := (vruns (stileAccess (withInv { id := 0, desc := aRouter, owner := .task 1 0 4, res := { parts := [(0, 1, 0)] } }) 0 { id := 0, desc := aRouter, owner := .task 1 0 4, res := { parts := [(0, 1, 0)] } }) 0 (outBytes aRouter.toNat) (withInv { id := 0, desc := aRouter, owner := .task 1 0 4, res := { parts := [(0, 1, 0)] } })).2
     let d := i.desc.toNat
     (DieRuns s m.val) ∧
      (invQueue s m.val = i :: rest) ∧
      (i.started = false ∧ i.res.parts.isEmpty = false) ∧
      (NoneFails (routerChecks d)) ∧
      (rtCount d = 0) ∧
      (vruns (stileAccess s m.val i) (rtOut d) (outBytes d) s = (.runs out, u))) ∧
    (let s : State := withInv { id := 0, desc := aRouter, owner := .task 1 0 4, started := true }
     let m : MeadowNo := 0
     let i : Invocation := { id := 0, desc := aRouter, owner := .task 1 0 4, started := true }
     let rest : List Invocation := []
     let r := i.res
     (DieRuns s m.val) ∧
      (invQueue s m.val = i :: rest) ∧
      (i.started = true ∧ i.stalled = false ∧ i.stale = false) ∧
      (r.cntRuns = [])) ∧
    (let s : State := { withRegion with res.hints := [0] }
     let sw : SwardNo := 0
     let region : Fin 16 := 0
     let unit : Fin 4096 := 0
     let k := unitKey region unit
     (DieRuns s (sw.val / 16)) ∧
      (s.res.hints.contains k = true)) ∧
    (let s : State := { withRegion with copies.recs := [unitRec false] }
     let sw : SwardNo := 0
     let region : Fin 16 := 0
     let unit : Fin 4096 := 0
     let c : CopyRec := unitRec false
     (DieRuns s (sw.val / 16)) ∧
      (unitCopyDone s sw region unit false = some c) ∧
      (c.poison = false ∧ c.code = 0)) ∧
    (let s : State := { withRegion with res.wanted := [0] }
     let sw : SwardNo := 0
     let region : Fin 16 := 0
     let unit : Fin 4096 := 0
     (DieRuns s (sw.val / 16)) ∧
      (s.work.tasks.any (waitsFor s sw region unit) = true ∨ s.res.wanted.contains (unitKey region unit) = true)) ∧
    (let s : State := repPut 0 0 0 { st := .lifting, off := 0 } { withRegion with copies.recs := [unitRec true] }
     let sw : SwardNo := 0
     let region : Fin 16 := 0
     let unit : Fin 4096 := 0
     let c : CopyRec := unitRec true
     let p : Replica := { st := .lifting, off := 0 }
     (DieRuns s (sw.val / 16)) ∧
      (unitCopyDone s sw region unit true = some c) ∧
      (repGet s sw region unit = some p) ∧
      (c.poison = false ∧ c.code = 0)) := by and_intros <;> decide +kernel

/-- What `Obligations.TranslationEvents` assumes can hold. -/
theorem witness_TranslationEvents :
    (let s : State := table
     let u : UnitNo := 0
     let sward : Fin 16 := 0
     let tuft : TuftNo := 0
     let agent : Fin 7 := 0
     let va : VA := 64
     let r : Bool := true
     let w : Bool := false
     let x : Bool := false
     let l : Nat := 0
     let e : Nat := leafWord 0x20000 0 0 true true true
     let t : State := (walk 0 64 (bump atCountsWalks 0 1 table)).2
     let a : XAcc := { unit := u, sward := sward, tuft := tuft, agent := agent, va := va.toNat, r := r, w := w, x := x }
     let b := leafBuf va.toNat l e false
     (DieRuns s (dieOfXunit u)) ∧
      (walk u va.toNat (bump atCountsWalks u 1 s) = (.leaf l e, t)) ∧
      (rightsCode a b.r b.w b.x = 0)) ∧
    (let s : State := { up with xl.units := [(0, { noSlot := [(anAcc, 0x0201)] })] }
     let u : UnitNo := 0
     let nth : Nat := 0
     let code : Nat := 0x0201
     let a : XAcc := anAcc
     (DieRuns s (dieOfXunit u)) ∧
      ((xunit s u).noSlot[nth]? = some (a, code))) ∧
    (let s : State := { up with xl.units := [(0, { slots := [{ id := 4, page := 0, reason := 0x0201, accs := [anAcc] }] })] }
     let u : UnitNo := 0
     let fault : Nat := 4
     let nth : Nat := 0
     let f : FaultSlot := { id := 4, page := 0, reason := 0x0201, accs := [anAcc] }
     let a : XAcc := anAcc
     (DieRuns s (dieOfXunit u)) ∧
      ((xunit s u).slots.find? (fun f => f.id == fault) = some f) ∧
      (f.accs[nth]? = some a)) ∧
    (let s : State := { up with xl.inval := some { lo := 0, hi := 4096, await := 3 } }
     let u : UnitNo := 1
     let r : InvalRun := { lo := 0, hi := 4096, await := 3 }
     (DieRuns s (dieOfXunit u)) ∧
      (s.xl.inval = some r) ∧
      (r.await.testBit u = true) ∧
      (unitBusy s u r.lo r.hi = false) ∧
      (r.await - 2 ^ u.val ≠ 0)) ∧
    (let s : State := { up with xl.inval := some { lo := 0, hi := 4096, await := 2, cmd := some (5, 1) } }
     let u : UnitNo := 1
     let r : InvalRun := { lo := 0, hi := 4096, await := 2, cmd := some (5, 1) }
     let id : Nat := 5
     let n : Nat := 1
     (DieRuns s (dieOfXunit u)) ∧
      (s.xl.inval = some r) ∧
      (r.await = 2 ^ u.val) ∧
      (unitBusy s u r.lo r.hi = false) ∧
      (r.cmd = some (id, n))) := by and_intros <;> decide +kernel

/-- What `Obligations.CoreCommands` assumes can hold. -/
theorem witness_CoreCommands_a :
    (let s : State := coreOn 95
     let h : HartNo := 95
     let pa : PA := 0x100
     let size : Fin 4 := 3
     let n := 2 ^ size.val
     (Powered s) ∧
      (coreUp s h = true) ∧
      (coreMem s pa.toNat n = true)) ∧
    (let s : State := coreOn 95
     let h : HartNo := 95
     let pa : PA := 0x100
     let size : Fin 4 := 0
     let n := 2 ^ size.val
     let t := rangeAccess .rds (hartPort h) pa.toNat n s
     (Powered s) ∧
      (coreUp s h = true) ∧
      (coreMem s pa.toNat n = true) ∧
      (physPoison t pa.toNat n = false)) ∧
    (let s : State := coreOn 0
     let h : HartNo := 0
     let pa : PA := 0x3FFFFFFFFFFF0
     let size : Fin 4 := 0
     (Powered s) ∧
      (coreUp s h = true) ∧
      (coreMem s pa.toNat (2 ^ size.val) = false)) ∧
    (let s : State := coreOn 47
     let h : HartNo := 47
     let pa : PA := 0x100
     let op : CoreAmo := .add
     let dbl : Bool := true
     let n := if dbl then 8 else 4
     let t := rangeAccess .rdx (hartPort h) pa.toNat n s
     (Powered s) ∧
      (coreUp s h = true) ∧
      (op ≠ .lr ∧ op ≠ .sc) ∧
      (coreMem s pa.toNat n = true ∧ pa.toNat % n = 0) ∧
      (physPoison t pa.toNat n = false)) ∧
    (let s : State := coreOn 47
     let h : HartNo := 47
     let pa : PA := 0x100
     let dbl : Bool := false
     let n := if dbl then 8 else 4
     let t := rangeAccess .rdx (hartPort h) pa.toNat n s
     (Powered s) ∧
      (coreUp s h = true) ∧
      (coreMem s pa.toNat n = true ∧ pa.toNat % n = 0) ∧
      (physPoison t pa.toNat n = false)) ∧
    (let s : State := { coreOn 47 with cores.resv := [(47, 2)] }
     let h : HartNo := 47
     let pa : PA := 0x100
     let dbl : Bool := false
     let n := if dbl then 8 else 4
     (Powered s) ∧
      (coreUp s h = true) ∧
      (coreMem s pa.toNat n = true ∧ pa.toNat % n = 0) ∧
      (tget s.cores.resv h = some (pa.toNat / 128))) ∧
    (let s : State := coreOn 47
     let h : HartNo := 47
     let pa : PA := 0x100
     let dbl : Bool := false
     let n := if dbl then 8 else 4
     (Powered s) ∧
      (coreUp s h = true) ∧
      (coreMem s pa.toNat n = true ∧ pa.toNat % n = 0) ∧
      (tget s.cores.resv h ≠ some (pa.toNat / 128))) ∧
    (let s : State := coreOn 0
     let h : HartNo := 0
     let pa : PA := 0x1FF
     let a := pa.toNat / 64 * 64
     (Powered s) ∧
      (coreUp s h = true) ∧
      (coreMem s a 64 = true)) ∧
    (let s : State := setCacheLine 8 3 { st := .m } (coreOn 0)
     let h : HartNo := 0
     let pa : PA := 0x1FF
     (Powered s) ∧
      (coreUp s h = true) ∧
      (coreMem s pa.toNat 1 = true)) ∧
    (let s : State := setCacheLine 8 3 { st := .m } (coreOn 0)
     let h : HartNo := 0
     let pa : PA := 0x1FF
     let line := pa.toNat / 128
     let c := cacheLine s (hartPort h) line
     (Powered s) ∧
      (coreUp s h = true) ∧
      (coreMem s pa.toNat 1 = true) ∧
      (c.st = .m ∧ lineOpen s line = false ∧ lineStep line s = none)) := by and_intros <;> decide +kernel

theorem witness_CoreCommands_b :
    (let s : State := setCacheLine 8 3 { st := .m } (coreOn 0)
     let h : HartNo := 0
     let pa : PA := 0x1FF
     (Powered s) ∧
      (coreUp s h = true) ∧
      (coreMem s pa.toNat 1 = true)) ∧
    (let s : State := setCacheLine 8 3 { st := .m } (coreOn 0)
     let h : HartNo := 0
     let pa : PA := 0x1FF
     (Powered s) ∧
      (coreUp s h = true) ∧
      (coreMem s pa.toNat 1 = true)) ∧
    (let s : State := coreOn 0
     let h : HartNo := 0
     (Powered s) ∧
      (coreUp s h = true)) ∧
    (let s : State := coreOn 95
     let h : HartNo := 95
     (Powered s) ∧
      (coreUp s h = true)) ∧
    (let s : State := coreOn 0
     let h : HartNo := 0
     let d : Fin 2 := 1
     (Powered s) ∧
      (coreUp s h = true) ∧
      (DieRuns s (24 + d))) := by and_intros <;> decide +kernel

/-- What `Obligations.QueueAndRegisterCommands` assumes can hold. -/
theorem witness_QueueAndRegisterCommands_a :
    (let s : State := ob
     let c : Cmd := cmdOf 0x00 []
     (Accepts 0x00 c s)) ∧
    (let s : State := ob
     let c : Cmd := cmdOf 0x01 []
     (Accepts 0x01 c s)) ∧
    (let s : State := ob
     let c : Cmd := cmdOf 0x02 [0x80000, 0x10600, 5]
     let t := startedAt c s
     let q := wordBits c.words 2 7 0
     let d := wordBits c.words 2 11 8
     (Accepts 0x02 c s) ∧
      (wordBits c.words 2 16 16 = 1) ∧
      (getF t sqStateState q = 0 ∧ NoneFails (ringCodes t 0 q (wordAt c.words 1) d 64))) ∧
    (let s : State := ob
     let c : Cmd := cmdOf 0x03 [0x80000, 0x10701]
     let t := startedAt c s
     let q := wordBits c.words 2 5 0
     let d := wordBits c.words 2 11 8
     (Accepts 0x03 c s) ∧
      (wordBits c.words 2 16 16 = 1) ∧
      (flagSet t cqStateEn q = false ∧ NoneFails (ringCodes t 1 q (wordAt c.words 1) d 32))) ∧
    (let s : State := ob
     let c : Cmd := cmdOf 0x04 [0x80000, 0x10600]
     let t := startedAt c s
     let d := wordBits c.words 2 11 8
     (Accepts 0x04 c s) ∧
      (wordBits c.words 2 16 16 = 1) ∧
      (flagSet t eqStateEn 0 = false ∧ NoneFails (ringCodes t 2 0 (wordAt c.words 1) d 64))) ∧
    (let s : State := ob
     let c : Cmd := cmdOf 0x08 [0x0101]
     let r : Reg := .obId
     (Accepts 0x08 c s) ∧
      (regOfWord c.words = some r)) ∧
    (let s : State := ob
     let c : Cmd := cmdOf 0x09 [0x0104, 5, 0xFFFF]
     let t := startedAt c s
     let r : Reg := .obCtrl
     let n := wordBits c.words 1 31 16
     let m := wordAt c.words 3 % 2 ^ min 64 (regWidth r)
     (Accepts 0x09 c s) ∧
      (NamesReg r c) ∧
      (NoneFails (writeCodes t r n (regRaw t r n) (writtenBy r c t) (wordAt c.words 2) m))) ∧
    (let s : State := ob
     let c : Cmd := cmdOf 0x09 [0x00190, 0x20000, 0xFFE0000]
     let t := startedAt c s
     let n := wordBits c.words 1 31 16
     let v := writtenBy .evRoute c t
     (Accepts 0x09 c s) ∧
      (NamesReg .evRoute c) ∧
      (evRouteCode t (regRaw t .evRoute n) v = none)) ∧
    (let s : State := ob
     let c : Cmd := cmdOf 0x09 [0x00501, 16, 31]
     let t := startedAt c s
     let n := wordBits c.words 1 31 16
     let v := writtenBy .hayCtrl c t
     (Accepts 0x09 c s) ∧
      (NamesReg .hayCtrl c) ∧
      (hayCtrlCheck n v t = none) ∧
      (wordAt c.words 3 % 2 ^ 32 &&& fieldMask .hayCtrl requestable ≠ 0)) ∧
    (let s : State := ob
     let c : Cmd := cmdOf 0x09 [0x00520, 0x0A00, 0xFF00]
     let t := startedAt c s
     let n := wordBits c.words 1 31 16
     let v := writtenBy .coCtrl c t
     (Accepts 0x09 c s) ∧
      (NamesReg .coCtrl c) ∧
      (bitsOf v 15 8 ≠ 0) ∧
      (((wordAt c.words 3 % 2 ^ min 64 (regWidth .coCtrl)).testBit 0 && (wordAt c.words 2).testBit 0 != (regRaw t .coCtrl n).testBit 0) = false)) := by and_intros <;> decide +kernel

theorem witness_QueueAndRegisterCommands_b :
    (let s : State := ob
     let c : Cmd := cmdOf 0x09 [0x00201, 0xFFC, 0xFFC]
     let t := startedAt c s
     let v := writtenBy .atCtrl c t
     (Accepts 0x09 c s) ∧
      (NamesReg .atCtrl c) ∧
      (bitsOf v 11 2 ≠ 0)) ∧
    (let s : State := ob
     let c : Cmd := cmdOf 0x09 [0x00104, 5, 0xFFFF]
     let t := startedAt c s
     let v := writtenBy .obCtrl c t
     (Accepts 0x09 c s) ∧
      (NamesReg .obCtrl c) ∧
      (bitsOf v 15 0 ≠ 0)) ∧
    (let s : State := ob
     let c : Cmd := cmdOf 0x09 [0x00A61, 0x500, 0xFF00]
     let t := startedAt c s
     let v := writtenBy .mgCtrl c t
     (Accepts 0x09 c s) ∧
      (NamesReg .mgCtrl c) ∧
      (bitsOf v 15 8 ≠ 0)) ∧
    (let s : State := ob
     let c : Cmd := cmdOf 0x09 [0x00804, 0, 0]
     let t := startedAt c s
     let n := wordBits c.words 1 31 16
     let v := writtenBy .hlRpInwin c t
     (Accepts 0x09 c s) ∧
      (NamesReg .hlRpInwin c) ∧
      (inwinCode (regRaw t .hlRpInwin n) v = none)) ∧
    (let s : State := ob
     let c : Cmd := cmdOf 0x0A [0x0301]
     let t := startedAt c s
     let v : Nat := (cfgValue ob 0x0301).getD 0
     (Accepts 0x0A c s) ∧
      (cfgValue t (wordBits c.words 1 15 0) = some v)) ∧
    (let s : State := ob
     let c : Cmd := cmdOf 0x0B [0x0301, 2]
     let t := startedAt c s
     let k := wordBits c.words 1 15 0
     let v := wordAt c.words 2
     (Accepts 0x0B c s) ∧
      ((cfgValue t k).isSome = true ∧ cfgCode k v = none ∧ t.sec.writing = none)) := by and_intros <;> decide +kernel

/-- What `Obligations.JobCommands` assumes can hold. -/
theorem witness_JobCommands_a :
    (let s : State := obFree
     let c : Cmd := cmdOf 0x10 [5, 0, 0x1000000, 0x100000, 0x2000000, 0]
     let t := startedAt c s
     (Accepts 0x10 c s) ∧
      (NoneFails (jobCodes c.words t))) ∧
    (let s : State := ob
     let c : Cmd := cmdOf 0x11 [0]
     let t := startedAt c s
     (Accepts 0x11 c s) ∧
      (t.ob.destroying = none)) ∧
    (let s : State := obGraph
     let c : Cmd := cmdOf 0x18 [0]
     let want := graphResv c s
     let gt := startedAt c s want
     let go := openOf c s want
     let r := readGraph go.epoch (wordAt c.words 1) gt
     let g := r.1
     (Accepts 0x18 c s want) ∧
      (graphsFull c s = false) ∧
      (g.code = 0)) ∧
    (let s : State := ob
     let c : Cmd := cmdOf 0x19 [0]
     (Accepts 0x19 c s)) ∧
    (let s : State := ob
     let c : Cmd := cmdOf 0x1C [0x1000, 5]
     let t := startedAt c s
     let i : Nat := 0
     (Accepts 0x1C c s) ∧
      (flagSet t cqStateEn (wordBits c.words 2 13 8) = true) ∧
      ((List.range 512).find? (fun i => (seqGet t i).isNone) = some i)) ∧
    (let s : State := { ob with work.seqs := [(3, { kv := 0, prio := 0, cq := 0 })] }
     let c : Cmd := cmdOf 0x1D [3]
     let t := startedAt c s
     let e : SeqEnt := { kv := 0, prio := 0, cq := 0 }
     let i := wordBits c.words 1 8 0
     (Accepts 0x1D c s) ∧
      (seqGet t i = some e) ∧
      (e.st ≠ 6)) ∧
    (let s : State := ob
     let c : Cmd := cmdOf 0x20 [9, 0x100003]
     let t := startedAt c s
     let sw : Nat := 0
     let o : Nat := 0
     let name := wordBits c.words 1 31 0
     let n := wordBits c.words 2 10 0 + 1
     (Accepts 0x20 c s) ∧
      (name ≠ 0 ∧ bufNamed t name = none) ∧
      (n ≤ poolMax t) ∧
      (namedCount t < 4096) ∧
      (bufSward t (bufPlace c.words) = some sw) ∧
      (meadowUp t (sw / 16) = true ∧ swardUp t sw = true) ∧
      (poolFit t sw n = some o)) ∧
    (let s : State := { ob with work.pool := [{ sward := 0, off := 0, blocks := 2, name := some 9 }] }
     let c : Cmd := cmdOf 0x21 [9]
     let t := startedAt c s
     let name := wordBits c.words 1 31 0
     (Accepts 0x21 c s) ∧
      (bufNamed t name ≠ none)) ∧
    (let s : State := obMap 0 64 aRegion
     let c : Cmd := cmdOf 0x24 [0]
     let t := startedAt c s
     let oc := openOf c s
     let d : Nat := aRegion
     let m : Nat := 0
     let o : Nat := 2032 * 4096
     let va := wordAt c.words 1
     let r := cpRead oc.epoch va 64 0x0560 t
     let maps := if rgHomeMap d = 0 then (.ok 0, r.2) else cpRead oc.epoch (rgHomeMap d) (4 * rgUnits d) 0x0560 r.2
     let old := tget maps.2.res.regions (rgNumber d)
     (Accepts 0x24 c s) ∧
      (va % 64 = 0) ∧
      (r.1.toOption = some d) ∧
      (maps.1.toOption = some m) ∧
      (old.all (fun r => r.closing.isNone) = true) ∧
      (NoneFails (armCodes d maps.1 maps.2)) ∧
      (sharePlace maps.2 (rgShare d) = some o)) ∧
    (let s : State := { ob with res.regions := [(2, { desc := 0 })] }
     let c : Cmd := cmdOf 0x25 [2]
     let t := startedAt c s
     let r : ExpertRegion := { desc := 0 }
     let i := wordBits c.words 1 3 0
     (Accepts 0x25 c s) ∧
      (tget t.res.regions i = some r) ∧
      (r.closing = none ∧ r.armed = true)) := by and_intros <;> decide +kernel

theorem witness_JobCommands_b :
    (let s : State := { ob with res.regions := [(2, { desc := 0 })] }
     let c : Cmd := cmdOf 0x26 [2]
     let t := startedAt c s
     let r : ExpertRegion := { desc := 0 }
     let i := wordBits c.words 1 3 0
     (Accepts 0x26 c s) ∧
      (tget t.res.regions i = some r) ∧
      (r.closing = none)) := by decide +kernel

/-- What `Obligations.AddressSpaceCommands` assumes can hold. -/
theorem witness_AddressSpaceCommands_a :
    (let s : State := obTable
     let c : Cmd := cmdOf 0x30 [0x200000, 0x1000, 0x30000, aPage]
     let t := startedAt c s
     let oc := openOf c s
     let pas : List Nat := [0x30000]
     let u : State := startedAt (cmdOf 0x30 [0x200000, 0x1000, 0x30000, aPage]) obTable
     let n := wordAt c.words 2
     let w := wordAt c.words 4
     (Accepts 0x30 c s (ownRecord c.door c.words) tableGate) ∧
      (wordCode oc false t = 0) ∧
      (commandPages n (wordAt c.words 3) w t = (pas, u)) ∧
      (NoneFails (mapCodes c.words pas u))) ∧
    (let s : State := obTable
     let c : Cmd := cmdOf 0x31 [0, 0x1000, 0, 0]
     let t := startedAt c s
     let va := wordAt c.words 1
     let n := wordAt c.words 2
     let w := wordAt c.words 4
     (Accepts 0x31 c s (ownRecord c.door c.words) tableGate) ∧
      (wordChecks va n (wordAt c.words 3) w true = 0) ∧
      (mwAction w = 0) ∧
      (NoneFails (invalCodes c.words [] t))) ∧
    (let s : State := obTable
     let c : Cmd := cmdOf 0x31 [0, 0x1000, 0, aPage + 0x1000]
     let t := startedAt c s
     let va := wordAt c.words 1
     let n := wordAt c.words 2
     let w := wordAt c.words 4
     (Accepts 0x31 c s (ownRecord c.door c.words) tableGate) ∧
      (wordChecks va n (wordAt c.words 3) w true = 0) ∧
      (mwAction w = 1) ∧
      (NoneFails (invalCodes c.words [] t))) ∧
    (let s : State := obTable
     let c : Cmd := cmdOf 0x31 [0, 0x1000, 0x30000, aPage + 0x2000]
     let t := startedAt c s
     let oc := openOf c s
     let pas : List Nat := [0x30000]
     let u : State := startedAt (cmdOf 0x31 [0, 0x1000, 0x30000, aPage + 0x2000]) obTable
     let n := wordAt c.words 2
     let w := wordAt c.words 4
     (Accepts 0x31 c s (ownRecord c.door c.words) tableGate) ∧
      (wordCode oc true t = 0) ∧
      (mwAction w = 2) ∧
      (commandPages n (wordAt c.words 3) w t = (pas, u)) ∧
      (NoneFails (invalCodes c.words pas u))) ∧
    (let s : State := { ob with xl.units := [(0, { slots := [{ id := 4, page := 0, reason := 0x0201, accs := [anAcc] }] })] }
     let c : Cmd := cmdOf 0x32 [4]
     let t := startedAt c s
     let u : Nat := 0
     let id := wordBits c.words 1 15 0
     (Accepts 0x32 c s) ∧
      (wordBits c.words 1 16 16 = 0) ∧
      (faultUnit t id = some u)) ∧
    (let s : State := { ob with xl.units := [(0, { slots := [{ id := 4, page := 0, reason := 0x0201, accs := [anAcc] }] })] }
     let c : Cmd := cmdOf 0x32 [0x10004]
     let t := startedAt c s
     let u : Nat := 0
     let id := wordBits c.words 1 15 0
     (Accepts 0x32 c s) ∧
      (wordBits c.words 1 16 16 = 1) ∧
      (faultUnit t id = some u)) ∧
    (let s : State := obHosted
     let c : Cmd := cmdOf 0x33 [0, 0x1000, 0x40, 0]
     let t := startedAt c s
     let oc := openOf c s
     let dst : List Nat := [0x30000]
     let u : State := (readList 0x40 1 (startedAt (cmdOf 0x33 [0, 0x1000, 0x40, 0]) obHosted)).2
     let va := wordAt c.words 1
     let n := wordAt c.words 2
     let found := leavesIn t va (va + n)
     (Accepts 0x33 c s (ownRecord c.door c.words) tableGate) ∧
      (wordBits c.words 4 0 0 = 0) ∧
      (NoneFails [failIf (wordAt c.words 3 % 8 != 0) 0x0113,
       failIf (va % 4096 != 0 || n % 4096 != 0 || n == 0 || decide (vaTop < va + n)) 0x0210,
       failIf (selfHosted t) 0x0216, failIf (getF t hlStatusLinkUp 0 == 0) 0x0830, listCode oc.epoch (wordAt c.words 3) found.length t]) ∧
      (readList (wordAt c.words 3) found.length t = (dst, u)) ∧
      (NoneFails (prefetchCodes c.words found dst u))) ∧
    (let s : State := obDevice
     let c : Cmd := cmdOf 0x33 [0, 0x1000, 0x40, 1]
     let t := startedAt c s
     let oc := openOf c s
     let dst : List Nat := [hostPage]
     let u : State := (readList 0x40 1 (startedAt (cmdOf 0x33 [0, 0x1000, 0x40, 1]) obDevice)).2
     let va := wordAt c.words 1
     let n := wordAt c.words 2
     let found := leavesIn t va (va + n)
     (Accepts 0x33 c s (ownRecord c.door c.words) tableGate) ∧
      (wordBits c.words 4 0 0 = 1) ∧
      (NoneFails [failIf (wordAt c.words 3 % 8 != 0) 0x0113,
       failIf (va % 4096 != 0 || n % 4096 != 0 || n == 0 || decide (vaTop < va + n)) 0x0210,
       failIf (selfHosted t) 0x0216, failIf (getF t hlStatusLinkUp 0 == 0) 0x0830, listCode oc.epoch (wordAt c.words 3) found.length t]) ∧
      (readList (wordAt c.words 3) found.length t = (dst, u)) ∧
      (NoneFails (prefetchCodes c.words found dst u))) ∧
    (let s : State := obTable
     let c : Cmd := cmdOf 0x34 [0, 0x1000, 2]
     let t := startedAt c s
     let va := wordAt c.words 1
     let hi := va + wordAt c.words 2
     (Accepts 0x34 c s (ownRecord c.door c.words) tableGate) ∧
      (va % 4096 = 0 ∧ wordAt c.words 2 % 4096 = 0 ∧ wordAt c.words 2 ≠ 0 ∧ hi ≤ vaTop) ∧
      (distinct (splitNeed t va hi) ≤ pagesFree t)) ∧
    (let s : State := obBias
     let c : Cmd := cmdOf 0x38 [0x2000, 0x1000, 1]
     let t := startedAt c s
     let pa := wordAt c.words 1
     let n := wordAt c.words 2
     (Accepts 0x38 c s) ∧
      (wordBits c.words 3 0 0 = 1) ∧
      (pa % 4096 = 0 ∧ n % 4096 = 0 ∧ isDevMem pa n = true ∧ biasOn t = true)) := by and_intros <;> decide +kernel

theorem witness_AddressSpaceCommands_b :
    (let s : State := setBias 2 true obBias
     let c : Cmd := cmdOf 0x38 [0x2000, 0x1000, 0]
     let t := startedAt c s
     let pa := wordAt c.words 1
     let n := wordAt c.words 2
     let pages := (span (pa / 4096) (n / 4096)).filter (hostBias t)
     (Accepts 0x38 c s) ∧
      (wordBits c.words 3 0 0 = 0) ∧
      (pa % 4096 = 0 ∧ n % 4096 = 0 ∧ isDevMem pa n = true ∧ biasOn t = true) ∧
      (pages ≠ [])) ∧
    (let s : State := setF ddDieStatusState 25 2 ob
     let c : Cmd := cmdOf 0x40 [1, 0x1000, 7]
     let t := startedAt c s
     let d := 24 + wordBits c.words 1 0 0
     (Accepts 0x40 c s) ∧
      (dieUp t d = false ∧ isDevMem (wordAt c.words 2) 1 = true)) ∧
    (let s : State := ob
     let c : Cmd := cmdOf 0x41 [1]
     (Accepts 0x41 c s)) ∧
    (let s : State := ob
     let c : Cmd := cmdOf 0x48 [0]
     (Accepts 0x48 c s)) := by and_intros <;> decide +kernel

/-- What `Obligations.HayloftEvents` assumes can hold. -/
theorem witness_HayloftEvents :
    (let s : State := hayPut 0 { lines := [(0, {})], misses := [{ line := 0, todo := [3], after := 8 }], ctrlQueue := [{ id := 4, chan := chanOf (localOf 96 / 1024), addr := 96 }] } up
     let pa : PA := 0
     let sector : BitVec 2 := 3
     let r : CtrlReq := { id := 4, chan := chanOf (localOf 96 / 1024), addr := 96 }
     let w : Nat := 0
     let h := homeOf pa.toNat
     let chan := chanOf (localOf pa.toNat / 1024)
     let y := ctrlWrites (ctrlHolds s h) chan (hayGet s h).ctrlQueue.length (hayGet s h)
     let read := ctrlDo r y
     (Running s) ∧
      (ctrlPick (ctrlHolds s h) y chan = some r) ∧
      (r.write = false) ∧
      (r.addr = pa.toNat / 128 * 128 + 32 * sector.toNat) ∧
      (findWay read r.addr = some w)) ∧
    (let s : State := hayPut 0 { ctrlQueue := [{ id := 4, chan := 0, addr := 0 }, { id := 5, chan := 0, addr := 128 }] } up
     let h : HomeNo := 0
     let request : Nat := 5
     let q : CtrlReq := { id := 5, chan := 0, addr := 128 }
     (Running s) ∧
      ((hayGet s h).ctrlQueue.find? (fun q => q.id == request) = some q) ∧
      ((chanQueue (hayGet s h) q.chan).contains q = true)) ∧
    (let s : State := hayPut 15 { cleaning := 3, lines := [(1, {}), (2, {})] } up
     let h : HomeNo := 15
     let y := hayGet s h
     (Running s) ∧
      ((hayGet s h).cleaning ≠ 0) ∧
      (y.lines.any (fun e => y.cleaning.testBit (e.1 % 16) && locBusy y e.1) = false)) ∧
    (let s : State := hayPut 15 { powered := 4, waking := 3 } up
     let h : HomeNo := 15
     (Running s) ∧
      ((hayGet s h).waking ≠ 0)) ∧
    (let s : State := up
     let h : HomeNo := 0
     (Running s) ∧
      ((hayGet s h).band = .upTo85 ∨ (hayGet s h).band = .upTo95)) ∧
    (let s : State := hayPut 0 { band := .above105 } up
     let h : HomeNo := 0
     (Running s) ∧
      ((hayGet s h).band = .upTo105 ∨ (hayGet s h).band = .above105)) ∧
    (let s : State := hayPut 0 { band := .upTo95 } up
     let h : HomeNo := 0
     (Running s) ∧
      ((hayGet s h).band = .upTo85 ∨ (hayGet s h).band = .upTo95)) := by and_intros <;> decide +kernel

/-- What `Obligations.RequestSnoopsTheOwner` assumes can hold. -/
theorem witness_RequestSnoopsTheOwner :
    (let s : State := dirPut (dirBase 0 0) { st := 2, sharers := 2 } up
     let pa : PA := 0
     let a : Fin 10 := 0
     let key : Nat := dirBase 0 0
     let e : DirEnt := { st := 2, sharers := 2 }
     let line := pa.toNat / 128
     let meets := fun (u : State) (p : Nat) (caching : Bool) =>
       dirFind u line = some (key, e) ∧ e.st = 2 ∧ entryTxn u key e = none ∧ e.resv = none ∧ u.lostHomes.contains (homeOfLine line) = false ∧
       tget u.coh.sweeping (homeOfLine line) = none ∧ hostBias u (pageOf (line * 128)) = false ∧
       (caching = true → p < 10 ∧ e.sharers.testBit p = false)
     (Running s) ∧
      (hasHome pa.toNat = true) ∧
      (msgBehind .rds a line false s = false ∧ receiverUp s a line false = true) ∧
      (inBiasTable (recvMsg .rds a line false s) (line * 128) 128 = false) ∧
      (meets (arbiterTakes line a (recvMsg .rds a line false s)) a true)) ∧
    (let s : State := dirPut (dirBase 0 0) { st := 2, sharers := 2 } up
     let pa : PA := 0
     let a : Fin 10 := 0
     let key : Nat := dirBase 0 0
     let e : DirEnt := { st := 2, sharers := 2 }
     let line := pa.toNat / 128
     let meets := fun (u : State) (p : Nat) (caching : Bool) =>
       dirFind u line = some (key, e) ∧ e.st = 2 ∧ entryTxn u key e = none ∧ e.resv = none ∧ u.lostHomes.contains (homeOfLine line) = false ∧
       tget u.coh.sweeping (homeOfLine line) = none ∧ hostBias u (pageOf (line * 128)) = false ∧
       (caching = true → p < 10 ∧ e.sharers.testBit p = false)
     (Running s) ∧
      (hasHome pa.toNat = true) ∧
      (msgBehind .rdx a line false s = false ∧ receiverUp s a line false = true) ∧
      (inBiasTable (recvMsg .rdx a line false s) (line * 128) 128 = false) ∧
      (meets (arbiterTakes line a (recvMsg .rdx a line false s)) a true)) ∧
    (let s : State := dirPut (dirBase 0 0) { st := 2, sharers := 2 } up
     let pa : PA := 0
     let a : Fin 10 := 9
     let key : Nat := dirBase 0 0
     let e : DirEnt := { st := 2, sharers := 2 }
     let line := pa.toNat / 128
     let meets := fun (u : State) (p : Nat) (caching : Bool) =>
       dirFind u line = some (key, e) ∧ e.st = 2 ∧ entryTxn u key e = none ∧ e.resv = none ∧ u.lostHomes.contains (homeOfLine line) = false ∧
       tget u.coh.sweeping (homeOfLine line) = none ∧ hostBias u (pageOf (line * 128)) = false ∧
       (caching = true → p < 10 ∧ e.sharers.testBit p = false)
     (Running s) ∧
      (hasHome pa.toNat = true) ∧
      (msgBehind .upg a line false s = false ∧ receiverUp s a line false = true) ∧
      (inBiasTable (recvMsg .upg a line false s) (line * 128) 128 = false) ∧
      (meets (arbiterTakes line a (recvMsg .upg a line false s)) a true)) ∧
    (let s : State := dirPut (dirBase 0 0) { st := 2, sharers := 2 } up
     let pa : PA := 0
     let port : Fin 12 := 11
     let key : Nat := dirBase 0 0
     let e : DirEnt := { st := 2, sharers := 2 }
     let line := pa.toNat / 128
     let charged := fun (u : State) => loamStamp (loamStampOf u (portDie port)) (8 + homeOfLine line)
       { u with coh.credits := tput u.coh.credits (creditKey (homeOfLine line) port) (tgetD u.coh.credits (creditKey (homeOfLine line) port) 0 + 1) }
     let meets := fun (u : State) (p : Nat) (caching : Bool) =>
       dirFind u line = some (key, e) ∧ e.st = 2 ∧ entryTxn u key e = none ∧ e.resv = none ∧ u.lostHomes.contains (homeOfLine line) = false ∧
       tget u.coh.sweeping (homeOfLine line) = none ∧ hostBias u (pageOf (line * 128)) = false ∧
       (caching = true → p < 10 ∧ e.sharers.testBit p = false)
     (Running s) ∧
      (hasHome pa.toNat = true) ∧
      (tgetD s.coh.credits (creditKey (homeOfLine line) port) 0 < portCredits port) ∧
      (inBiasTable (charged s) (line * 128) 128 = false) ∧
      (meets (arbiterTakes line port (charged s)) port false)) ∧
    (let s : State := dirPut (dirBase 0 0) { st := 2, sharers := 2 } up
     let pa : PA := 0
     let port : Fin 12 := 1
     let key : Nat := dirBase 0 0
     let e : DirEnt := { st := 2, sharers := 2 }
     let line := pa.toNat / 128
     let charged := fun (u : State) => loamStamp (loamStampOf u (portDie port)) (8 + homeOfLine line)
       { u with coh.credits := tput u.coh.credits (creditKey (homeOfLine line) port) (tgetD u.coh.credits (creditKey (homeOfLine line) port) 0 + 1) }
     let meets := fun (u : State) (p : Nat) (caching : Bool) =>
       dirFind u line = some (key, e) ∧ e.st = 2 ∧ entryTxn u key e = none ∧ e.resv = none ∧ u.lostHomes.contains (homeOfLine line) = false ∧
       tget u.coh.sweeping (homeOfLine line) = none ∧ hostBias u (pageOf (line * 128)) = false ∧
       (caching = true → p < 10 ∧ e.sharers.testBit p = false)
     (Running s) ∧
      (hasHome pa.toNat = true) ∧
      (tgetD s.coh.credits (creditKey (homeOfLine line) port) 0 < portCredits port) ∧
      (inBiasTable (charged s) (line * 128) 128 = false) ∧
      (meets (arbiterTakes line port (charged s)) port false)) := by and_intros <;> decide +kernel

/-- What `Obligations.HomeMessages` assumes can hold. -/
theorem witness_HomeMessages :
    (let s : State := dirPut (dirBase 0 0) { st := 2, sharers := 2 } up
     let pa : PA := 0
     let a : Fin 10 := 1
     let key : Nat := dirBase 0 0
     let e : DirEnt := { st := 2, sharers := 2 }
     let line := pa.toNat / 128
     let got := fun (k : CohMsgKind) => recvMsg k a line false s
     let owned := fun (u : State) => dirFind u line = some (key, e) ∧ openTxn u line = none ∧ e.st = 2 ∧ e.sharers = 2 ^ a.val
     (Running s) ∧
      (msgBehind .wbm a line false s = false ∧ receiverUp s a line false = true) ∧
      (owned (got .wbm))) ∧
    (let s : State := dirPut (dirBase 0 0) { st := 2, sharers := 2 } up
     let pa : PA := 0
     let a : Fin 10 := 1
     let key : Nat := dirBase 0 0
     let e : DirEnt := { st := 2, sharers := 2 }
     let line := pa.toNat / 128
     let got := fun (k : CohMsgKind) => recvMsg k a line false s
     let owned := fun (u : State) => dirFind u line = some (key, e) ∧ openTxn u line = none ∧ e.st = 2 ∧ e.sharers = 2 ^ a.val
     (Running s) ∧
      (msgBehind .wbc a line false s = false ∧ receiverUp s a line false = true) ∧
      (owned (got .wbc))) ∧
    (let s : State := dirPut (dirBase 0 0) { st := 1, sharers := 3 } up
     let pa : PA := 0
     let a : Fin 10 := 1
     let key : Nat := dirBase 0 0
     let e : DirEnt := { st := 1, sharers := 3 }
     let line := pa.toNat / 128
     let got := fun (k : CohMsgKind) => recvMsg k a line false s
     (Running s) ∧
      (msgBehind .evs a line false s = false ∧ receiverUp s a line false = true) ∧
      (dirFind (got .evs) line = some (key, e)) ∧
      (e.st = 1) ∧
      (openTxn (got .evs) line = none) ∧
      (e.sharers.testBit a = true) ∧
      (withBits e.sharers a a 0 ≠ 0)) ∧
    (let s : State := dirPut (dirBase 0 0) { st := 2, sharers := 6, txn := some 0 } (txnPut (dirBase 0 0) { txn := some 0 } { req := { kind := .rds, port := 0, line := 0 }, phase := .os, await := 6 } up)
     let pa : PA := 0
     let a : Fin 10 := 1
     let key : Nat := dirBase 0 0
     let e : DirEnt := { st := 2, sharers := 6, txn := some 0 }
     let t : Txn := { req := { kind := .rds, port := 0, line := 0 }, phase := .os, await := 6 }
     let line := pa.toNat / 128
     let got := fun (k : CohMsgKind) => recvMsg k a line false s
     let awaited := fun (u : State) => openTxn u line = some (key, e, t) ∧ t.phase = .os ∧ t.await.testBit a = true ∧
       withBits t.await a a 0 ≠ 0
     (Running s) ∧
      (msgBehind .rsps a line false s = false ∧ receiverUp s a line false = true) ∧
      (awaited (got .rsps))) ∧
    (let s : State := dirPut (dirBase 0 0) { st := 2, sharers := 6, txn := some 0 } (txnPut (dirBase 0 0) { txn := some 0 } { req := { kind := .rds, port := 0, line := 0 }, phase := .os, await := 6 } up)
     let pa : PA := 0
     let a : Fin 10 := 1
     let key : Nat := dirBase 0 0
     let e : DirEnt := { st := 2, sharers := 6, txn := some 0 }
     let t : Txn := { req := { kind := .rds, port := 0, line := 0 }, phase := .os, await := 6 }
     let line := pa.toNat / 128
     let got := fun (k : CohMsgKind) => recvMsg k a line false s
     let awaited := fun (u : State) => openTxn u line = some (key, e, t) ∧ t.phase = .os ∧ t.await.testBit a = true ∧
       withBits t.await a a 0 ≠ 0
     (Running s) ∧
      (msgBehind .rspi a line false s = false ∧ receiverUp s a line false = true) ∧
      (awaited (got .rspi))) ∧
    (let s : State := dirPut (dirBase 0 0) { st := 2, sharers := 6, txn := some 0 } (txnPut (dirBase 0 0) { txn := some 0 } { req := { kind := .rds, port := 0, line := 0 }, phase := .os, await := 6 } up)
     let pa : PA := 0
     let a : Fin 10 := 1
     let key : Nat := dirBase 0 0
     let e : DirEnt := { st := 2, sharers := 6, txn := some 0 }
     let t : Txn := { req := { kind := .rds, port := 0, line := 0 }, phase := .os, await := 6 }
     let line := pa.toNat / 128
     let got := fun (k : CohMsgKind) => recvMsg k a line false s
     let awaited := fun (u : State) => openTxn u line = some (key, e, t) ∧ t.phase = .os ∧ t.await.testBit a = true ∧
       withBits t.await a a 0 ≠ 0
     (Running s) ∧
      (msgBehind .rspsd a line false s = false ∧ receiverUp s a line false = true) ∧
      (awaited (got .rspsd))) ∧
    (let s : State := dirPut (dirBase 0 0) { st := 2, sharers := 6, txn := some 0 } (txnPut (dirBase 0 0) { txn := some 0 } { req := { kind := .rds, port := 0, line := 0 }, phase := .os, await := 6 } up)
     let pa : PA := 0
     let a : Fin 10 := 1
     let key : Nat := dirBase 0 0
     let e : DirEnt := { st := 2, sharers := 6, txn := some 0 }
     let t : Txn := { req := { kind := .rds, port := 0, line := 0 }, phase := .os, await := 6 }
     let line := pa.toNat / 128
     let got := fun (k : CohMsgKind) => recvMsg k a line false s
     let awaited := fun (u : State) => openTxn u line = some (key, e, t) ∧ t.phase = .os ∧ t.await.testBit a = true ∧
       withBits t.await a a 0 ≠ 0
     (Running s) ∧
      (msgBehind .rspid a line false s = false ∧ receiverUp s a line false = true) ∧
      (awaited (got .rspid))) ∧
    (let s : State := dirPut (dirBase 0 0) { st := 1, sharers := 1, txn := some 0 } (txnPut (dirBase 0 0) { txn := some 0 } { req := { kind := .rds, port := 0, line := 0 }, phase := .oa } up)
     let pa : PA := 0
     let a : Fin 10 := 0
     let key : Nat := dirBase 0 0
     let e : DirEnt := { st := 1, sharers := 1, txn := some 0 }
     let t : Txn := { req := { kind := .rds, port := 0, line := 0 }, phase := .oa }
     let line := pa.toNat / 128
     let got := fun (k : CohMsgKind) => recvMsg k a line false s
     (Running s) ∧
      (msgBehind .cmpack a line false s = false ∧ receiverUp s a line false = true) ∧
      (openTxn (got .cmpack) line = some (key, e, t)) ∧
      (transientMode (got .cmpack) = false) ∧
      (t.phase = .oa) ∧
      (t.req.port = a.val)) ∧
    (let s : State := dirPut (dirBase 0 0) { st := 1, sharers := 1, txn := some 0 } (txnPut (dirBase 0 0) { txn := some 0 } { req := { kind := .rds, port := 1, line := 0 }, phase := .om } up)
     let pa : PA := 0
     let key : Nat := dirBase 0 0
     let e : DirEnt := { st := 1, sharers := 1, txn := some 0 }
     let t : Txn := { req := { kind := .rds, port := 1, line := 0 }, phase := .om }
     let line := pa.toNat / 128
     (Running s) ∧
      (openTxn s line = some (key, e, t)) ∧
      (t.phase = .om) ∧
      (sliceReady (reqSlice t.req) s = true)) ∧
    (let s : State := setF ddDieStatusState 8 2 up
     let pa : PA := 0
     let a : Fin 10 := 1
     let line := pa.toNat / 128
     (Running s) ∧
      (msgBehind .wbm a line false s = false ∧ receiverUp s a line false = false)) := by and_intros <;> decide +kernel

/-- What `Obligations.AgentAnswersHome` assumes can hold. -/
theorem witness_AgentAnswersHome_a :
    (let s : State := setCacheLine 2 0 { st := .m } up
     let pa : PA := 0
     let a : Fin 10 := 2
     let line := pa.toNat / 128
     let got := fun (k : CohMsgKind) => recvMsg k a line true s
     let copyAt := fun (k : CohMsgKind) => cacheLine (got k) a line
     (Running s) ∧
      (msgBehind .snps a line true s = false ∧ receiverUp s a line true = true) ∧
      ((copyAt .snps).st = .m)) ∧
    (let s : State := setCacheLine 2 0 { st := .e } up
     let pa : PA := 0
     let a : Fin 10 := 2
     let line := pa.toNat / 128
     let got := fun (k : CohMsgKind) => recvMsg k a line true s
     let copyAt := fun (k : CohMsgKind) => cacheLine (got k) a line
     (Running s) ∧
      (msgBehind .snps a line true s = false ∧ receiverUp s a line true = true) ∧
      ((copyAt .snps).st = .e)) ∧
    (let s : State := setCacheLine 9 0 { st := .m } up
     let pa : PA := 0
     let a : Fin 10 := 9
     let line := pa.toNat / 128
     let got := fun (k : CohMsgKind) => recvMsg k a line true s
     let copyAt := fun (k : CohMsgKind) => cacheLine (got k) a line
     (Running s) ∧
      (msgBehind .snpi a line true s = false ∧ receiverUp s a line true = true) ∧
      ((copyAt .snpi).st = .m)) ∧
    (let s : State := setCacheLine 9 0 { st := .s } up
     let pa : PA := 0
     let a : Fin 10 := 9
     let line := pa.toNat / 128
     let got := fun (k : CohMsgKind) => recvMsg k a line true s
     let copyAt := fun (k : CohMsgKind) => cacheLine (got k) a line
     (Running s) ∧
      (msgBehind .snpi a line true s = false ∧ receiverUp s a line true = true) ∧
      ((copyAt .snpi).st = .s)) ∧
    (let s : State := setCacheLine 2 0 { req := some .rds } up
     let pa : PA := 0
     let a : Fin 10 := 2
     let line := pa.toNat / 128
     let got := fun (k : CohMsgKind) => recvMsg k a line true s
     let copyAt := fun (k : CohMsgKind) => cacheLine (got k) a line
     (Running s) ∧
      (msgBehind .datas a line true s = false ∧ receiverUp s a line true = true) ∧
      (msgFlag .datas a line s = false) ∧
      ((copyAt .datas).st = .i) ∧
      ((copyAt .datas).req = some .rds)) ∧
    (let s : State := setCacheLine 2 0 { req := some .rds } up
     let pa : PA := 0
     let a : Fin 10 := 2
     let line := pa.toNat / 128
     let got := fun (k : CohMsgKind) => recvMsg k a line true s
     let copyAt := fun (k : CohMsgKind) => cacheLine (got k) a line
     (Running s) ∧
      (msgBehind .datax a line true s = false ∧ receiverUp s a line true = true) ∧
      ((copyAt .datax).st = .i) ∧
      ((copyAt .datax).req = some .rds)) ∧
    (let s : State := setCacheLine 2 0 { req := some .upg } up
     let pa : PA := 0
     let a : Fin 10 := 2
     let line := pa.toNat / 128
     let got := fun (k : CohMsgKind) => recvMsg k a line true s
     let copyAt := fun (k : CohMsgKind) => cacheLine (got k) a line
     (Running s) ∧
      (msgBehind .datax a line true s = false ∧ receiverUp s a line true = true) ∧
      ((copyAt .datax).st = .i) ∧
      ((copyAt .datax).req = some .rdx ∨ (copyAt .datax).req = some .upg)) ∧
    (let s : State := setCacheLine 2 0 { st := .s, req := some .upg } up
     let pa : PA := 0
     let a : Fin 10 := 2
     let line := pa.toNat / 128
     let got := fun (k : CohMsgKind) => recvMsg k a line true s
     let copyAt := fun (k : CohMsgKind) => cacheLine (got k) a line
     (Running s) ∧
      (msgBehind .gntx a line true s = false ∧ receiverUp s a line true = true) ∧
      ((copyAt .gntx).st = .s) ∧
      ((copyAt .gntx).req = some .upg)) ∧
    (let s : State := sendMsg .ncdata 11 0 true up
     let pa : PA := 0
     let port : Fin 12 := 11
     let line := pa.toNat / 128
     let m : CohMsg := (msgFind .ncdata 11 0 true (sendMsg .ncdata 11 0 true up)).getD { kind := .nack, port := 0, line := 0, toAgent := true }
     (Running s) ∧
      (msgBehind .ncdata port line true s = false ∧ receiverUp s port line true = true) ∧
      (msgFind .ncdata port line true s = some m) ∧
      (m.answer.by_ = .row)) ∧
    (let s : State := sendMsg .ncack 11 0 true up
     let pa : PA := 0
     let port : Fin 12 := 11
     let line := pa.toNat / 128
     let m : CohMsg := (msgFind .ncack 11 0 true (sendMsg .ncack 11 0 true up)).getD { kind := .nack, port := 0, line := 0, toAgent := true }
     (Running s) ∧
      (msgBehind .ncack port line true s = false ∧ receiverUp s port line true = true) ∧
      (msgFind .ncack port line true s = some m) ∧
      (m.answer.by_ = .row)) := by and_intros <;> decide +kernel

theorem witness_AgentAnswersHome_b :
    (let s : State := sendMsg .nack 2 0 true (setCacheLine 2 0 { st := .s, req := some .upg } up)
     let pa : PA := 0
     let a : Fin 10 := 2
     let port : Fin 12 := 2
     let line := pa.toNat / 128
     let got := fun (k : CohMsgKind) => recvMsg k a line true s
     let copyAt := fun (k : CohMsgKind) => cacheLine (got k) a line
     let m : CohMsg := (msgFind .nack 2 0 true (sendMsg .nack 2 0 true up)).getD { kind := .nack, port := 0, line := 0, toAgent := true }
     (Running s) ∧
      (msgBehind .nack a line true s = false ∧ receiverUp s a line true = true) ∧
      (msgFind .nack a line true s = some m) ∧
      (m.flag = false) ∧
      (transientMode (got .nack) = false) ∧
      ((copyAt .nack).req.isSome = true)) ∧
    (let s : State := sendMsg .nack 11 0 true up true
     let pa : PA := 0
     let port : Fin 12 := 11
     let line := pa.toNat / 128
     let m : CohMsg := (msgFind .nack 11 0 true (sendMsg .nack 11 0 true up true)).getD { kind := .nack, port := 0, line := 0, toAgent := true }
     (Running s) ∧
      (msgBehind .nack port line true s = false ∧ receiverUp s port line true = true) ∧
      (msgFind .nack port line true s = some m) ∧
      (m.flag = true)) ∧
    (let s : State := setCacheLine 2 0 { st := .w } up
     let pa : PA := 0
     let a : Fin 10 := 2
     let line := pa.toNat / 128
     let got := fun (k : CohMsgKind) => recvMsg k a line true s
     let copyAt := fun (k : CohMsgKind) => cacheLine (got k) a line
     (Running s) ∧
      (msgBehind .wback a line true s = false ∧ receiverUp s a line true = true) ∧
      ((copyAt .wback).st = .w) ∧
      ((copyAt .wback).stores = []) ∧
      ((copyAt .wback).loads = 0)) ∧
    (let s : State := setF ddDieStatusState 25 2 up
     let pa : PA := 0
     let a : Fin 10 := 9
     let line := pa.toNat / 128
     (Running s) ∧
      (msgBehind .snpi a line true s = false ∧ receiverUp s a line true = false)) := by and_intros <;> decide +kernel

/-- What `Obligations.AgentActs` assumes can hold. -/
theorem witness_AgentActs_a :
    (let s : State := setCacheLine 2 0 { st := .e } up
     let pa : PA := 0
     let a : Fin 10 := 2
     let line := pa.toNat / 128
     let c := cacheLine s a line
     (Running s) ∧
      (dieUp s (portDie a) = true) ∧
      (hasHome pa.toNat = true) ∧
      (c.st = .s ∨ c.st = .e ∨ c.st = .m)) ∧
    (let s : State := up
     let pa : PA := 0
     let a : Fin 10 := 2
     let line := pa.toNat / 128
     let c := cacheLine s a line
     (Running s) ∧
      (dieUp s (portDie a) = true) ∧
      (hasHome pa.toNat = true) ∧
      (c.st = .i) ∧
      (c.req = none)) ∧
    (let s : State := setCacheLine 2 0 { st := .m } up
     let pa : PA := 0
     let a : Fin 10 := 2
     let line := pa.toNat / 128
     let c := cacheLine s a line
     (Running s) ∧
      (dieUp s (portDie a) = true) ∧
      (hasHome pa.toNat = true) ∧
      (c.st = .m)) ∧
    (let s : State := setCacheLine 2 0 { st := .e } up
     let pa : PA := 0
     let a : Fin 10 := 2
     let line := pa.toNat / 128
     let c := cacheLine s a line
     (Running s) ∧
      (dieUp s (portDie a) = true) ∧
      (hasHome pa.toNat = true) ∧
      (c.st = .e)) ∧
    (let s : State := setCacheLine 2 0 { st := .s } up
     let pa : PA := 0
     let a : Fin 10 := 2
     let line := pa.toNat / 128
     let c := cacheLine s a line
     (Running s) ∧
      (dieUp s (portDie a) = true) ∧
      (hasHome pa.toNat = true) ∧
      (c.st = .s) ∧
      (c.req = none)) ∧
    (let s : State := up
     let pa : PA := 0
     let a : Fin 10 := 2
     let line := pa.toNat / 128
     let c := cacheLine s a line
     (Running s) ∧
      (dieUp s (portDie a) = true) ∧
      (hasHome pa.toNat = true) ∧
      (c.st = .i) ∧
      (c.req = none)) ∧
    (let s : State := setCacheLine 2 0 { st := .s } up
     let pa : PA := 0
     let a : Fin 10 := 2
     let line := pa.toNat / 128
     let c := cacheLine s a line
     (Running s) ∧
      (dieUp s (portDie a) = true) ∧
      (hasHome pa.toNat = true) ∧
      (c.req = none) ∧
      (s.lostHomes.contains (homeOfLine line) = false) ∧
      (c.st = .s)) ∧
    (let s : State := setCacheLine 2 0 { st := .e } up
     let pa : PA := 0
     let a : Fin 10 := 2
     let line := pa.toNat / 128
     let c := cacheLine s a line
     (Running s) ∧
      (dieUp s (portDie a) = true) ∧
      (hasHome pa.toNat = true) ∧
      (c.req = none) ∧
      (s.lostHomes.contains (homeOfLine line) = false) ∧
      (c.st = .e)) ∧
    (let s : State := setCacheLine 2 0 { st := .m } up
     let pa : PA := 0
     let a : Fin 10 := 2
     let line := pa.toNat / 128
     let c := cacheLine s a line
     (Running s) ∧
      (dieUp s (portDie a) = true) ∧
      (hasHome pa.toNat = true) ∧
      (c.req = none) ∧
      (s.lostHomes.contains (homeOfLine line) = false) ∧
      (c.st = .m)) ∧
    (let s : State := setCacheLine 2 0 { req := some .upg, nacked := true } up
     let pa : PA := 0
     let a : Fin 10 := 2
     let line := pa.toNat / 128
     let c := cacheLine s a line
     let k : ReqKind := .upg
     (Running s) ∧
      (dieUp s (portDie a) = true) ∧
      (c.req = some k) ∧
      (c.nacked = true)) := by and_intros <;> decide +kernel

theorem witness_AgentActs_b :
    (let s : State := { up with coh.ncNacked := [{ kind := .ncrd, port := 2, line := 0 }] }
     let pa : PA := 0
     let a : Fin 10 := 2
     let line := pa.toNat / 128
     let c := cacheLine s a line
     let r : HomeReq := { kind := .ncrd, port := 2, line := 0 }
     (Running s) ∧
      (dieUp s (portDie a) = true) ∧
      (c.nacked = false) ∧
      (s.coh.ncNacked.find? (fun r => r.port == a.val && r.line == line) = some r) ∧
      (msgFind .nack a line true s = none)) := by decide +kernel

/-- What `Obligations.MemoryErrorEvents` assumes can hold. -/
theorem witness_MemoryErrorEvents_a :
    (let s : State := setF hayStatusThermHold 3 1 up
     let h : HomeNo := 3
     (HomeRuns s h) ∧
      (flagSet s hayStatusThermHold h = true)) ∧
    (let s : State := up
     let pa : PA := 0
     let h := homeOf pa.toNat
     let y := hayGet s h
     let times := (cpTime s :: tgetD y.ceTimes (rowKey pa.toNat) []).filter (fun x => cpTime s - x < dayNs)
     (HomeRuns s h) ∧
      (rowPending s pa.toNat = none) ∧
      (times.length < 16)) ∧
    (let s : State := hayPut 0 { ceTimes := [(rowKey 0, List.replicate 15 0)] } up
     let pa : PA := 0
     let h := homeOf pa.toNat
     let y := hayGet s h
     let times := (cpTime s :: tgetD y.ceTimes (rowKey pa.toNat) []).filter (fun x => cpTime s - x < dayNs)
     (HomeRuns s h) ∧
      (rowPending s pa.toNat = none) ∧
      (times.length = 16)) ∧
    (let s : State := up
     let pa : PA := 0x1000
     (HomeRuns s (homeOf pa.toNat))) ∧
    (let s : State := up
     let pa : PA := 0x1000
     let h := homeOf pa.toNat
     (HomeRuns s h)) ∧
    (let s : State := hayPut 7 { scrubPos := 0xBFFFFFFF } up
     let h : HomeNo := 7
     let y := hayGet s h
     let addr := physLine h (y.scrubPos / 4) * 128 + y.scrubPos % 4 * 32
     (HomeRuns s h) ∧
      (ctrlHolds s h (bankOfRow (rowKey addr)) = false)) ∧
    (let s : State := setF hayStatusThermHold 7 1 up
     let h : HomeNo := 7
     let y := hayGet s h
     let addr := physLine h (y.scrubPos / 4) * 128 + y.scrubPos % 4 * 32
     (HomeRuns s h) ∧
      (ctrlHolds s h (bankOfRow (rowKey addr)) = true)) ∧
    (let s : State := rowRecord 0 0x0510 0x03 up
     let pa : PA := 0
     let badSectors : W64 := 0
     let corrected : W64 := 3
     let p : ErrRec := (rowPending (rowRecord 0 0x0510 0x03 up) 0).getD {}
     let t := bump hayCountsCeCount (homeOf pa.toNat) (popCount corrected.toNat 64) s
     (HomeRuns s (homeOf pa.toNat)) ∧
      (rowPending s pa.toNat = some p) ∧
      (badSectors = 0) ∧
      ((passes p (rowKey pa.toNat + 1) t).1 = true)) ∧
    (let s : State := rowRecord 0 0x0510 0x03 up
     let pa : PA := 0
     let badSectors : W64 := 0
     let p : ErrRec := (rowPending (rowRecord 0 0x0510 0x03 up) 0).getD {}
     (HomeRuns s (homeOf pa.toNat)) ∧
      (rowPending s pa.toNat = some p) ∧
      (badSectors = 0)) ∧
    (let s : State := pendAs (fun _ => false) (hayRec 0 0x0514 0x02 vPending (locWord 0)) up
     let pa : PA := 0
     let p : ErrRec := { hayRec 0 0x0514 0x02 vPending (locWord 0) with id := 0, link := 0, time := 0 }
     let h := homeOf pa.toNat
     (HomeRuns s h) ∧
      (s.err.pend.find? (fun p => p.level == lvPackage && p.unit == 8 + h && p.reason == 0x0514 && p.detail == locWord pa.toNat) = some p)) := by and_intros <;> decide +kernel

theorem witness_MemoryErrorEvents_b :
    (let s : State := pendAs (fun _ => false) (hayRec 0 0x0514 0x02 vPending (locWord 0)) up
     let pa : PA := 0
     let way : Fin 16 := 3
     let p : ErrRec := { hayRec 0 0x0514 0x02 vPending (locWord 0) with id := 0, link := 0, time := 0 }
     let h := homeOf pa.toNat
     let loc := sliceSet pa.toNat * 16 + way.val
     (HomeRuns s h) ∧
      (s.err.pend.find? (fun p => p.level == lvPackage && p.unit == 8 + h && p.reason == 0x0514 && p.detail == locWord pa.toNat) = some p) ∧
      ((passes p (loc + 2 ^ 40) s).1 = true)) := by decide +kernel

/-- What `Obligations.HomeFailures` assumes can hold. -/
theorem witness_HomeFailures :
    (let s : State := dirPut (dirBase 0 0) { st := 2, sharers := 6, txn := some 0 } (txnPut (dirBase 0 0) { txn := some 0 } { req := { kind := .rds, port := 0, line := 0 }, phase := .os, await := 6 } up)
     let pa : PA := 0
     let key : Nat := dirBase 0 0
     let e : DirEnt := { st := 2, sharers := 6, txn := some 0 }
     let t : Txn := { req := { kind := .rds, port := 0, line := 0 }, phase := .os, await := 6 }
     let line := pa.toNat / 128
     let late := agentsOf t.await
     let e' := { e with sharers := late.foldl (fun m a => withBits m a a 0) e.sharers }
     (HomeRuns s (homeOf pa.toNat)) ∧
      (openTxn s line = some (key, e, t)) ∧
      (t.phase = .os) ∧
      (t.d2h = false)) ∧
    (let s : State := up
     let h : HomeNo := 15
     let set : Fin 32768 := 32767
     let way : Fin 16 := 15
     (HomeRuns s h) ∧
      (tget s.coh.dir (dirBase h set + way) = none)) ∧
    (let s : State := dirPut (dirBase 0 0) { st := 1, sharers := 6 } up
     let h : HomeNo := 0
     let set : Fin 32768 := 0
     let way : Fin 16 := 0
     let e : DirEnt := { st := 1, sharers := 6 }
     (HomeRuns s h) ∧
      (tget s.coh.dir (dirBase h set + way) = some e) ∧
      (entryTxn s (dirBase h set + way) e = none) ∧
      (e.st = 1)) ∧
    (let s : State := { up with coh.sweeping := [(4, 8)] }
     let h : HomeNo := 4
     let a : Nat := 3
     (HomeRuns s h) ∧
      (tget s.coh.sweeping h = some (2 ^ a)) ∧
      (agentsOf (2 ^ a) = [a])) := by and_intros <;> decide +kernel

/-- What `Obligations.HostMemoryRequests` assumes can hold. -/
theorem witness_HostMemoryRequests :
    (let s : State := setF hlStatusLinkUp 0 1 up
     (LinkRuns s) ∧
      (selfHosted s = false) ∧
      (flagSet s hlStatusLinkUp 0 = true) ∧
      (getF s hlStatusMemActive 0 = 0)) ∧
    (let s : State := setF hlStatusMemActive 0 1 (setF hlStatusLinkUp 0 1 up)
     let pa : PA := 0
     (LinkRuns s) ∧
      (selfHosted s = false) ∧
      (flagSet s hlStatusLinkUp 0 = true) ∧
      (getF s hlStatusMemActive 0 ≠ 0 ∧ isDevMem pa.toNat 64 = true ∧ inBiasTable s pa.toNat 64 = false)) ∧
    (let s : State := setF hlStatusMemActive 0 1 (setF hlStatusLinkUp 0 1 up)
     let pa : PA := 0
     (LinkRuns s) ∧
      (selfHosted s = false) ∧
      (flagSet s hlStatusLinkUp 0 = true) ∧
      (getF s hlStatusMemActive 0 ≠ 0 ∧ isDevMem pa.toNat 64 = true ∧ inBiasTable s pa.toNat 64 = false) ∧
      (s.coh.flips = [])) ∧
    (let s : State := setF coCtrlBiasEn 0 1 (setF hlStatusMemActive 0 1 (setF hlStatusLinkUp 0 1 up))
     let pa : PA := 0
     (LinkRuns s) ∧
      (selfHosted s = false) ∧
      (flagSet s hlStatusLinkUp 0 = true) ∧
      (getF s hlStatusMemActive 0 ≠ 0 ∧ isDevMem pa.toNat 64 = true) ∧
      (inBiasTable s pa.toNat 64 = true)) ∧
    (let s : State := setF hlStatusMemActive 0 1 (setF hlStatusLinkUp 0 1 up)
     let pa : PA := 0x8000000000000
     (LinkRuns s) ∧
      (selfHosted s = false) ∧
      (flagSet s hlStatusLinkUp 0 = true) ∧
      (getF s hlStatusMemActive 0 ≠ 0 ∧ isDevMem pa.toNat 64 = false)) ∧
    (let s : State := setF hlStatusLinkUp 0 1 up
     (Running s) ∧
      (selfHosted s = false) ∧
      (flagSet s hlStatusLinkUp 0 = true)) ∧
    (let s : State := dirPut (dirBase 0 0) { txn := some 0 } (txnPut (dirBase 0 0) { txn := some 0 } { req := { kind := .rds, port := 0, line := 0 }, phase := .os, d2h := true } up)
     let pa : PA := 0
     let key : Nat := dirBase 0 0
     let e : DirEnt := { txn := some 0 }
     let t : Txn := { req := { kind := .rds, port := 0, line := 0 }, phase := .os, d2h := true }
     (HomeRuns s (homeOf pa.toNat)) ∧
      (openTxn s (pa.toNat / 128) = some (key, e, t)) ∧
      (t.d2h = true)) ∧
    (let s : State := dirPut (dirBase 0 0) { txn := some 0 } (txnPut (dirBase 0 0) { txn := some 0 } { req := { kind := .rds, port := 0, line := 0 }, phase := .os, d2h := true } up)
     let pa : PA := 0
     let key : Nat := dirBase 0 0
     let e : DirEnt := { txn := some 0 }
     let t : Txn := { req := { kind := .rds, port := 0, line := 0 }, phase := .os, d2h := true }
     (HomeRuns s (homeOf pa.toNat)) ∧
      (openTxn s (pa.toNat / 128) = some (key, e, t)) ∧
      (t.d2h = true)) := by and_intros <;> decide +kernel

/-- What `Obligations.StartAndSecurityCommands` assumes can hold. -/
theorem witness_StartAndSecurityCommands :
    (let s : State := { ob with start.due := none }
     let c : Cmd := cmdOf 0x60 [0]
     let t := startedAt c s
     (Accepts 0x60 c s) ∧
      (wordBits c.words 1 1 0 = 0) ∧
      (t.start.due = none)) ∧
    (let s : State := { ob with start.due := none }
     let c : Cmd := cmdOf 0x60 [1]
     let t := startedAt c s
     (Accepts 0x60 c s) ∧
      (wordBits c.words 1 1 0 = 1) ∧
      (t.start.due = none)) ∧
    (let s : State := { ob with start.due := none }
     let c : Cmd := cmdOf 0x60 [2]
     let t := startedAt c s
     (Accepts 0x60 c s) ∧
      (wordBits c.words 1 1 0 = 2) ∧
      (t.start.due = none)) ∧
    (let s : State := ob
     let c : Cmd := cmdOf 0x61 [0x100000, 20000]
     let t := startedAt c s
     let oc := openOf c s
     let pa := wordAt c.words 1
     let n := wordAt c.words 2
     (Accepts 0x61 c s) ∧
      (gorseUp t = true ∧ t.sec.writing = none) ∧
      (imgHead ≤ n ∧ n ≤ imgMax ∧ cpReach pa n = true) ∧
      ((cpReadCode oc pa n t).1 = 0)) ∧
    (let s : State := ob
     let c : Cmd := cmdOf 0x62 [5]
     let t := startedAt c s
     let mask := wordBits c.words 1 6 0
     (Accepts 0x62 c s) ∧
      (t.sec.writing = none ∧ stagingFailed t mask = false)) ∧
    (let s : State := obBanks
     let c : Cmd := cmdOf 0x63 [64]
     let t := startedAt c s
     let v := wordBits c.words 1 6 0
     (Accepts 0x63 c s) ∧
      (gorseUp t = true ∧ v ≤ bankSvn t recoveryKey) ∧
      (∀ i ∈ List.range 7, v ≤ bankSvn t (bankKey i (activeB t i)))) ∧
    (let s : State := ob
     let c : Cmd := cmdOf 0x64 [0x100000]
     let t := startedAt c s
     let oc := openOf c s
     let pa := wordAt c.words 1
     (Accepts 0x64 c s) ∧
      (gorseUp t = true ∧ cpReach pa 384 = true ∧ cpWriteCode oc pa 384 t = 0)) ∧
    (let s : State := ob
     let c : Cmd := cmdOf 0x65 [0x100000, 1, 2]
     let t := startedAt c s
     let oc := openOf c s
     let pa := wordAt c.words 1
     (Accepts 0x65 c s) ∧
      (gorseUp t = true ∧ cpReach pa 17032 = true ∧ cpWriteCode oc pa 17032 t = 0)) ∧
    (let s : State := obFree
     let c : Cmd := cmdOf 0x66 [0, 0]
     let t := startedAt c s
     (Accepts 0x66 c s) ∧
      (wordBits c.words 1 0 0 = 0) ∧
      (gorseUp t = true ∧ jobExists t = false)) ∧
    (let s : State := obFree
     let c : Cmd := cmdOf 0x66 [1, 0x100040000000]
     let t := startedAt c s
     let oc := openOf c s
     let pa := wordAt c.words 2
     let r := cpReadPa pa tokenBytes t
     (Accepts 0x66 c s) ∧
      (wordBits c.words 1 0 0 = 1) ∧
      (gorseUp t = true ∧ jobExists t = false ∧ cpReach pa tokenBytes = true) ∧
      ((cpReadCode oc pa tokenBytes t).1 = 0) ∧
      (r.2.1 = false)) := by and_intros <;> decide +kernel

/-- What `Obligations.FabricCommands` assumes can hold. -/
theorem witness_FabricCommands_a :
    (let s : State := setF tfPosSparePlane 0 8 (setF tfPosStrapValid 0 1 ob)
     let c : Cmd := cmdOf 0x70 [0x10, 1, 10]
     let t := startedAt c s
     (Accepts 0x70 c s) ∧
      (partBad c.words t = false ∧ flagSet t tfPosStrapValid 0 = true)) ∧
    (let s : State := obPart ob
     let c : Cmd := cmdOf 0x71 []
     (Accepts 0x71 c s)) ∧
    (let s : State := obWhole
     let c : Cmd := cmdOf 0x72 [5]
     let t := startedAt c s
     let p : Partition := wholePart
     let f := wordBits c.words 1 3 0
     (Accepts 0x72 c s) ∧
      (t.fab.part = some p) ∧
      (p.whole = true ∧ f ≠ sparePlane t ∧ p.planeOf.contains f = true ∧ flagSet t tfPosPartUp 0 = true ∧ t.fab.barrier = none) ∧
      (ownPlane t ≠ f)) ∧
    (let s : State := obWhole
     let c : Cmd := cmdOf 0x72 [0]
     let t := startedAt c s
     let p : Partition := wholePart
     let f := wordBits c.words 1 3 0
     (Accepts 0x72 c s) ∧
      (t.fab.part = some p) ∧
      (p.whole = true ∧ f ≠ sparePlane t ∧ p.planeOf.contains f = true ∧ flagSet t tfPosPartUp 0 = true ∧ t.fab.barrier = none) ∧
      (ownPlane t = f)) ∧
    (let s : State := { obWhole with fab := { obWhole.fab with barrier := some { cmd := 7, want := [1] } } }
     let c : Cmd := cmdOf 0x72 [5]
     let t := startedAt c s
     let p : Partition := wholePart
     let f := wordBits c.words 1 3 0
     (Accepts 0x72 c s) ∧
      (t.fab.part = some p) ∧
      (p.whole = true ∧ f ≠ sparePlane t ∧ p.planeOf.contains f = true ∧ flagSet t tfPosPartUp 0 = true ∧ t.fab.barrier ≠ none)) ∧
    (let s : State := ob
     let c : Cmd := cmdOf 0x73 [3]
     let t := startedAt c s
     let p := wordBits c.words 1 3 0
     (Accepts 0x73 c s) ∧
      (wordBits c.words 1 5 4 = 0 ∧ (fabPort t p).cmd = none) ∧
      (flagSet t tfPortStatusDisabled p = false)) ∧
    (let s : State := ob
     let c : Cmd := cmdOf 0x73 [0x1F]
     let t := startedAt c s
     let p := wordBits c.words 1 3 0
     (Accepts 0x73 c s) ∧
      (wordBits c.words 1 5 4 = 1 ∧ (fabPort t p).cmd = none)) ∧
    (let s : State := ob
     let c : Cmd := cmdOf 0x73 [0x2F]
     let t := startedAt c s
     let p := wordBits c.words 1 3 0
     (Accepts 0x73 c s) ∧
      (wordBits c.words 1 5 4 = 2 ∧ (fabPort t p).cmd = none)) ∧
    (let s : State := setF tfPortStatusWidth 3 1 (setF tfPortStatusLanesUsed 3 6 ob)
     let c : Cmd := cmdOf 0x73 [0x33]
     let t := startedAt c s
     let p := wordBits c.words 1 3 0
     (Accepts 0x73 c s) ∧
      (wordBits c.words 1 5 4 = 3 ∧ (fabPort t p).cmd = none) ∧
      (portUp t p = true)) ∧
    (let s : State := fabPortMod 3 (fun x => { x with cmd := some 7 }) ob
     let c : Cmd := cmdOf 0x73 [3]
     let t := startedAt c s
     let i : Instr := .portCtrlRetrain c
     let p := wordBits c.words 1 3 0
     ((wordBits c.words 1 5 4, i) ∈ [(0, Instr.portCtrlRetrain c), (1, .portCtrlDisable c), (2, .portCtrlEnable c), (3, .portCtrlLaneTest c)]) ∧
      (Accepts 0x73 c s) ∧
      ((fabPort t p).cmd.isSome = true)) := by and_intros <;> decide +kernel

theorem witness_FabricCommands_b :
    (let s : State := obPart (obMap 0 1 0)
     let c : Cmd := cmdOf 0x74 [0, 0, 0, 4, 0]
     let t := startedAt c s
     let oc := openOf c s
     let i : Instr := .collBarrier c
     let src : List (Nat × Nat × Nat) := []
     let dst : List (Nat × Nat × Nat) := []
     let u : State := startedAt c s
     let v : State := startedAt c s
     let w := wordAt c.words 4
     let r := getF t tfPosRank 0
     let g := groupRanks w ((t.fab.part.map (·.planes)).getD 1) r
     let sizes := collSizes w (wordAt c.words 3) g.length r
     let a : XAcc := { unit := 8, agent := 2, va := wordAt c.words 1, r := true, who := .cmd oc.id }
     ((clOp w, i) ∈ [(0, Instr.collAllReduce c), (1, .collReduceScatter c), (2, .collAllGather c), (3, .collBroadcast c), (4, .collBarrier c)]) ∧
      (Accepts 0x74 c s (ownRecord c.door c.words) collGate) ∧
      (collBad c.words t = false ∧ rankOk t r = true) ∧
      (readOrCode (some oc.epoch) (translateRange a sizes.1 t) = (.runs src, u)) ∧
      (runsOrCode (some oc.epoch) (translateRange { a with va := wordAt c.words 2, r := false, w := true } sizes.2 u) = (.runs dst, v))) ∧
    (let s : State := setF tfPortStatusFenced 4 1 ob
     let c : Cmd := cmdOf 0x75 [4, 0]
     let t := startedAt c s
     let p := wordBits c.words 1 3 0
     (Accepts 0x75 c s) ∧
      (flagSet t tfPortStatusFenced p = true ∧ portInPart t p = false ∧ (fabPort t p).pattern = none)) ∧
    (let s : State := fabPortMod 4 (fun x => { x with pattern := some 7 }) ob
     let c : Cmd := cmdOf 0x75 [4, 0]
     let t := startedAt c s
     let p := wordBits c.words 1 3 0
     (Accepts 0x75 c s) ∧
      (portInPart t p = false ∧ (fabPort t p).pattern.isSome = true)) := by and_intros <;> decide +kernel

/-- What `Obligations.NetworkCommands` assumes can hold. -/
theorem witness_NetworkCommands :
    (let s : State := ob
     let c : Cmd := cmdOf 0x78 [3, 1, 2, 3, 9216]
     let mtu := wordBits c.words 5 13 0
     (Accepts 0x78 c s) ∧
      (mtu ≠ 0 ∧ mtu ≤ 9216)) ∧
    (let s : State := obNet
     let c : Cmd := cmdOf 0x79 [0x10002, 1, 2, 3]
     let t := startedAt c s
     let w := wordAt c.words 1
     let p := bitsOf w 13 12
     (Accepts 0x79 c s) ∧
      (w.testBit 16 = false ∨ (ethPort t p).mtu ≠ 0)) ∧
    (let s : State := obNet
     let c : Cmd := cmdOf 0x7A [1, 0, 0, 8]
     let t := startedAt c s
     let p : Nat := 0
     let q := wordBits c.words 1 11 0
     (Accepts 0x7A c s) ∧
      (wordBits c.words 1 17 16 = 0) ∧
      ((qpGet t q).en = true) ∧
      (qpPath t q = some p)) ∧
    (let s : State := obNet
     let c : Cmd := cmdOf 0x7A [0x10001, 0, 0, 8]
     let t := startedAt c s
     let oc := openOf c s
     let p : Nat := 0
     let rs : List (Nat × Nat × Nat) := [(0, 0, 8)]
     let u : State := (translateRange { unit := 8, agent := 6, va := 0, r := true } 8 (failoverBits (qpMod 1 (fun x => { x with now := 0 }) (startedAt c s)))).2
     let q := wordBits c.words 1 11 0
     let len := wordAt c.words 4
     let on := failoverBits (qpMod q (fun x => { x with now := p }) t)
     let a : XAcc := { unit := unitOfEth p, agent := 6, va := wordAt c.words 2, r := true }
     let d := ioRead (unitOfEth p) rs u
     (Accepts 0x7A c s) ∧
      (wordBits c.words 1 17 16 = 1) ∧
      ((qpGet t q).en = true) ∧
      (qpPath t q = some p) ∧
      (readOrCode (some oc.epoch) (translateRange a len on) = (.runs rs, u)) ∧
      (d.2.1 = false)) ∧
    (let s : State := obNet
     let c : Cmd := cmdOf 0x7A [0x20001, 0, 0, 8]
     let t := startedAt c s
     let oc := openOf c s
     let p : Nat := 0
     let rs : List (Nat × Nat × Nat) := [(0, 0, 8)]
     let u : State := (translateRange { unit := 8, agent := 6, va := 0, r := true } 8 (failoverBits (qpMod 1 (fun x => { x with now := 0 }) (startedAt c s)))).2
     let q := wordBits c.words 1 11 0
     let len := wordAt c.words 4
     let on := failoverBits (qpMod q (fun x => { x with now := p }) t)
     let a : XAcc := { unit := unitOfEth p, agent := 6, va := wordAt c.words 2, r := true }
     let d := ioRead (unitOfEth p) rs u
     (Accepts 0x7A c s) ∧
      (wordBits c.words 1 17 16 = 2) ∧
      ((qpGet t q).en = true) ∧
      (qpPath t q = some p) ∧
      (readOrCode (some oc.epoch) (translateRange a len on) = (.runs rs, u)) ∧
      (d.2.1 = false)) ∧
    (let s : State := ob
     let c : Cmd := cmdOf 0x7B [1, 100, 0, 0, 0, 0, 0, 0, 0, 0, 0, 0, 0]
     let t := startedAt c s
     (Accepts 0x7B c s) ∧
      (wordBits c.words 1 1 0 = 1) ∧
      (t.net.fetch = none)) ∧
    (let s : State := obMap 0 1 0
     let c : Cmd := cmdOf 0x7B [0, 64, 0, 0, 0, 0, 0, 0, 0, 0, 0, 0, 0]
     let t := startedAt c s
     let oc := openOf c s
     let rs : List (Nat × Nat × Nat) := [(0, 0, 64)]
     let u : State := (translateRange (cpAccess 0 true false) 64 (startedAt c s)).2
     let len := wordAt c.words 2
     let d := ioRead 8 rs u
     (Accepts 0x7B c s) ∧
      (wordBits c.words 1 1 0 = 0) ∧
      (t.net.fetch = none) ∧
      (readOrCode (some oc.epoch) (translateRange (cpAccess (wordAt c.words 4) true false) len t) = (.runs rs, u)) ∧
      (d.2.1 = false)) ∧
    (let s : State := obMap 0 1 0
     let c : Cmd := cmdOf 0x7C [9, 2, 64]
     let t := startedAt c s
     let oc := openOf c s
     let rs : List (Nat × Nat × Nat) := [(64, 64, 32)]
     let u : State := (translateRange (cpAccess 64 true false) 32 (startedAt c s)).2
     let n := wordBits c.words 2 6 0
     let d := ioRead 8 rs u
     (Accepts 0x7C c s) ∧
      (n ≠ 0 ∧ n ≤ 64 ∧ wordBits c.words 2 13 8 < n) ∧
      ((tget t.net.groups (wordBits c.words 1 31 0)).any (fun x => x.cmd.isSome) = false) ∧
      (readOrCode (some oc.epoch) (translateRange (cpAccess (wordAt c.words 3) true false) (16 * n) t) = (.runs rs, u)) ∧
      (d.2.1 = false)) ∧
    (let s : State := { ob with net := { ob.net with groups := [(9, { aNetGroup with cmd := some 7 })] } }
     let c : Cmd := cmdOf 0x7C [9, 2, 64]
     let t := startedAt c s
     let n := wordBits c.words 2 6 0
     (Accepts 0x7C c s) ∧
      (n ≠ 0 ∧ n ≤ 64 ∧ wordBits c.words 2 13 8 < n) ∧
      ((tget t.net.groups (wordBits c.words 1 31 0)).any (fun x => x.cmd.isSome) = true)) ∧
    (let s : State := obNet
     let c : Cmd := cmdOf 0x7D [3, 0, 64, 4, 0, 0]
     let t := startedAt c s
     let oc := openOf c s
     let i : Instr := .xcollAllReduce c
     let x : NetGroup := aNetGroup
     let src : List (Nat × Nat × Nat) := [(0, 0, 16)]
     let dst : List (Nat × Nat × Nat) := [(64, 64, 16)]
     let u : State := (translateRange { unit := 8, agent := 6, va := 0, r := true } 16 (startedAt c s)).2
     let v : State := (translateRange { unit := 8, agent := 6, va := 64, w := true } 16 u).2
     let w := wordAt c.words 5
     let sizes := collSizes w (wordAt c.words 4) x.members.length x.own
     let a : XAcc := { unit := 8, agent := 6, va := wordAt c.words 2, r := true }
     ((clOp w, i) ∈ [(0, Instr.xcollAllReduce c), (1, .xcollReduceScatter c), (2, .xcollAllGather c), (3, .xcollBroadcast c), (4, .xcollBarrier c)]) ∧
      (Accepts 0x7D c s) ∧
      (tget t.net.groups (wordBits c.words 1 31 0) = some x) ∧
      (xcollBad c.words x = false) ∧
      (readOrCode (some oc.epoch) (translateRange a sizes.1 t) = (.runs src, u)) ∧
      (runsOrCode (some oc.epoch) (translateRange { a with va := wordAt c.words 3, r := false, w := true } sizes.2 u) = (.runs dst, v)) ∧
      (runsPoison src v = [])) := by and_intros <;> decide +kernel

/-- What `Obligations.ServiceCommands` assumes can hold. -/
theorem witness_ServiceCommands_a :
    (let s : State := ob
     let c : Cmd := cmdOf 0x80 [0x1051068]
     let w := wordBits c.words 1 15 0
     (Accepts 0x80 c s) ∧
      (1500 ≤ w ∧ w ≤ 4200)) ∧
    (let s : State := obMap 0 1 0
     let c : Cmd := cmdOf 0x81 [0x400]
     let t := startedAt c s
     let oc := openOf c s
     let rs : List (Nat × Nat × Nat) := [(0x400, 0x400, 0x400)]
     let u : State := (translateRange (cpAccess 0x400 false true) 1024 (startedAt c s)).2
     (Accepts 0x81 c s) ∧
      (translateRange (cpAccess (wordAt c.words 1) false true) 1024 t = (.runs rs, u)) ∧
      (hostCode (some oc.epoch) rs u = 0)) ∧
    (let s : State := obMap 0 8 1
     let c : Cmd := cmdOf 0x82 [0]
     let t := startedAt c s
     let oc := openOf c s
     let x : Nat := 1
     let r := cpRead oc.epoch (wordAt c.words 1) 1024 0x0602 t
     let entry := fun (n : Nat) => (x >>> (128 * n)) % 2 ^ 128
     (Accepts 0x82 c s) ∧
      (r.1.toOption = some x) ∧
      ((List.range 64).any (fun n => phaseBad (entry n)) = false)) ∧
    (let s : State := ob
     let c : Cmd := cmdOf 0x83 []
     (Accepts 0x83 c s)) ∧
    (let s : State := obLog
     let c : Cmd := cmdOf 0x88 [0x100000, 0x20000]
     let t := startedAt c s
     let oc := openOf c s
     let pa := wordAt c.words 1
     let rs := logPicked t (wordBits c.words 2 15 0) (wordBits c.words 2 31 16)
     let n := 32 * rs.length
     (Accepts 0x88 c s) ∧
      (t.err.logCount ≠ 0) ∧
      (n ≠ 0 → cpReach pa n = true ∧ cpWriteCode oc pa n t = 0)) ∧
    (let s : State := ob
     let c : Cmd := cmdOf 0x89 [0x50000]
     let t := startedAt c s
     let w := wordAt c.words 1
     (Accepts 0x89 c s) ∧
      (unitExists (teLevel w) (teUnit w) = true ∧ unitOut t (teLevel w) (teUnit w) = false) ∧
      (teLevel w ≠ lvPackage)) ∧
    (let s : State := setF tfPortStatusFenced 2 1 ob
     let c : Cmd := cmdOf 0x89 [0x1820003]
     let t := startedAt c s
     let w := wordAt c.words 1
     let p := teUnit w - 0x180
     (Accepts 0x89 c s) ∧
      (unitOut t lvPackage (teUnit w) = false) ∧
      (teLevel w = lvPackage ∧ 0x180 ≤ teUnit w ∧ teUnit w ≤ 0x18F ∧ flagSet t tfPortStatusFenced p = true)) ∧
    (let s : State := ob
     let c : Cmd := cmdOf 0x8A [0x50000]
     let t := startedAt c s
     let w := wordAt c.words 1
     (Accepts 0x8A c s) ∧
      (wordBits c.words 1 2 2 = 0 ∧ w.testBit 2 = false) ∧
      (unitExists (teLevel w) (teUnit w) = true ∧ unitOut t (teLevel w) (teUnit w) = false)) ∧
    (let s : State := { ob with err.out := [{ level := 0, unit := 5, software := true }] }
     let c : Cmd := cmdOf 0x8A [0x50004]
     let t := startedAt c s
     let o : OutUnit := { level := 0, unit := 5, software := true }
     let w := wordAt c.words 1
     let mine := fun (o : OutUnit) => o.level == teLevel w && o.unit == teUnit w
     (Accepts 0x8A c s) ∧
      (wordBits c.words 1 2 2 = 1 ∧ w.testBit 2 = true) ∧
      (unitExists (teLevel w) (teUnit w) = true) ∧
      (t.err.out.find? mine = some o) ∧
      (o.software = true)) ∧
    (let s : State := setF ddStatusDebugLocked 0 0 ob
     let c : Cmd := cmdOf 0x8B [0x50000, 0x0430]
     let t := startedAt c s
     let cls : Nat := 1
     let w := wordAt c.words 1
     let reason := wordBits c.words 2 15 0
     (Accepts 0x8B c s) ∧
      (injectable reason = some (teLevel w, cls)) ∧
      (flagSet t ddStatusDebugLocked 0 = false) ∧
      (unitExists (teLevel w) (teUnit w) = true ∧ unitOut t (teLevel w) (teUnit w) = false) ∧
      (injectUnitOk reason (teUnit w) (teSub w) = true)) := by and_intros <;> decide +kernel

theorem witness_ServiceCommands_b :
    (let s : State := { obFree with start.due := none }
     let c : Cmd := cmdOf 0x90 [0]
     let t := startedAt c s
     (Accepts 0x90 c s) ∧
      (wordBits c.words 1 0 0 = 0) ∧
      (t.start.due = none)) ∧
    (let s : State := setF mgStatusPanel 0 1 ob
     let c : Cmd := cmdOf 0x90 [1]
     let t := startedAt c s
     (Accepts 0x90 c s) ∧
      (wordBits c.words 1 0 0 = 1) ∧
      (getF t mgStatusPanel 0 = 1)) := by and_intros <;> decide +kernel

/-- What `Obligations.DoorsAndRestart` assumes can hold. -/
theorem witness_DoorsAndRestart :
    (let s : State := obQueue 1 {}
     let host : List W64 := []
     let ws : List W64 := [0x100]
     let q : Nat := 1
     let n : Nat := 1
     let t := headReads (q % 256) host s
     let door := Door.sq (Fin.ofNat 256 q)
     (Powered s) ∧
      (flagSet s obStatusReady 0 = true ∧ larkWaits s = none) ∧
      (nextQueue s host = some q) ∧
      (readHead t (q % 256) host = .cmd n false ws) ∧
      (limitsReached door ws t = false ∧ recordsLack door ws t = false) ∧
      ((cmdShape (cmdOpcode ws)).isSome = true)) ∧
    (let s : State := obLark 0
     let k : Nat := 2
     (Powered s) ∧
      (flagSet s obStatusReady 0 = true) ∧
      (larkWaits s = some k) ∧
      (larkPasses (larkGet s k) = true)) ∧
    (let s : State := { ob with link.lark := [(2, { busy := true })] }
     let k : Nat := 2
     (Powered s) ∧
      (flagSet s obStatusReady 0 = true) ∧
      (larkWaits s = some k) ∧
      (larkPasses (larkGet s k) = false)) ∧
    (let s : State := obQueue 3 { rereads := 8 }
     let q : Fin 256 := 1
     let host : List W64 := []
     let v : Nat := packBits [(0x100, 0), (0xA4, 488)]
     let k := tgetD s.ob.sq q.val {}
     (Powered s) ∧
      (flagSet s obStatusReady 0 = true) ∧
      (k.rereads ≠ 0) ∧
      (ringEntry s q.val k.entry host = some v)) ∧
    (let s : State := obLark 8
     let k : Fin 64 := 2
     let l := larkGet s k.val
     (Powered s) ∧
      (flagSet s obStatusReady 0 = true) ∧
      (l.busy = true ∧ l.taken = false ∧ l.rereads ≠ 0) ∧
      (larkPasses l = true)) ∧
    (let s : State := { obQueue 3 { rereads := 8 } with mem := [] }
     let q : Fin 256 := 1
     let host : List W64 := []
     let k := tgetD s.ob.sq q.val {}
     (Powered s) ∧
      (flagSet s obStatusReady 0 = true) ∧
      (1 < k.rereads) ∧
      (ringEntry s q.val k.entry host = none)) ∧
    (let s : State := ob
     let i : Instr := .cpFault
     let t := { setF obStatusReady 0 0 s with ob.restarting := true, ob.lastRestart := some (cpTime s) }
     (Powered s) ∧
      (i ∈ [.cpFault, .cpWatchdogExpire]) ∧
      (DieRuns s 26) ∧
      (s.ob.restarting = false ∧ flagSet s obStatusReady 0 = true) ∧
      (s.ob.lastRestart.all (fun t => 1000000000 ≤ cpTime s - t) = true)) ∧
    (let s : State := { ob with ob.lastRestart := some 0 }
     let i : Instr := .cpWatchdogExpire
     let last : Nat := 0
     (Powered s) ∧
      (i ∈ [.cpFault, .cpWatchdogExpire]) ∧
      (DieRuns s 26) ∧
      (s.ob.restarting = false ∧ flagSet s obStatusReady 0 = true) ∧
      (s.ob.lastRestart = some last) ∧
      (cpTime s - last < 1000000000)) ∧
    (let s : State := { ob with ob.restarting := true, start.due := none, ob.openCmds := [{ id := 0, door := .sq 0, words := [0x100], started := true }] }
     (Powered s) ∧
      (DieRuns s 26) ∧
      (s.ob.restarting = true ∧ s.start.due = none)) := by and_intros <;> decide +kernel

/-- What `Obligations.HostLinkEvents` assumes can hold. -/
theorem witness_HostLinkEvents_a :
    (let s : State := setF hlStatusLinkUp 0 0 up
     let speed : Fin 7 := 6
     let width : Fin 17 := 16
     (LinkRuns s) ∧
      (flagSet s hlStatusLinkUp 0 = false) ∧
      (speed.val ≠ 0 ∧ speed.val ≤ capSpeed s ∧ widthOk width.val = true)) ∧
    (let s : State := setF hlStatusLinkUp 0 1 up
     let speed : Fin 7 := 5
     let width : Fin 17 := 8
     (LinkRuns s) ∧
      (flagSet s hlStatusLinkUp 0 = true) ∧
      (speed.val ≠ 0 ∧ speed.val ≤ capSpeed s ∧ widthOk width.val = true)) ∧
    (let s : State := setF hlStatusLinkUp 0 1 ob
     (LinkRuns s) ∧
      (flagSet s hlStatusLinkUp 0 = true) ∧
      (dieUp s 26 = true)) ∧
    (let s : State := { withCopy (aCopyRec 0) anEnt with link.reads := [(4, (0, { src := 0, dst := 0x3000, len := 64 }))] }
     let tag : Nat := 4
     (LinkRuns s) ∧
      (tget s.link.reads tag ≠ none)) ∧
    (let s : State := { withCopy (aCopyRec 0) anEnt with link.reads := [(4, (0, { src := 0, dst := 0x3000, len := 64 }))] }
     let tag : Nat := 4
     (LinkRuns s) ∧
      (tget s.link.reads tag ≠ none)) ∧
    (let s : State := { withCopy (aCopyRec 0) anEnt with link.reads := [(4, (0, { src := 0, dst := 0x3000, len := 64 }))] }
     let tag : Nat := 4
     (LinkRuns s) ∧
      (tget s.link.reads tag ≠ none)) ∧
    (let s : State := up
     (LinkRuns s) ∧
      (selfHosted s = false)) ∧
    (let s : State := up
     (LinkRuns s) ∧
      (selfHosted s = false)) ∧
    (let s : State := up
     (LinkRuns s) ∧
      (selfHosted s = false)) ∧
    (let s : State := setF hlStatusLinkUp 0 1 up
     (LinkRuns s) ∧
      (selfHosted s = false ∧ flagSet s hlStatusLinkUp 0 = true)) := by and_intros <;> decide +kernel

theorem witness_HostLinkEvents_b :
    (let s : State := setF hlStatusLinkUp 0 1 up
     (LinkRuns s) ∧
      (selfHosted s = false ∧ flagSet s hlStatusLinkUp 0 = true)) := by decide +kernel

/-- What `Obligations.HostAccesses` assumes can hold. -/
theorem witness_HostAccesses_a :
    (let s : State := setF hlStatusLinkUp 0 1 (obQueue 1 {})
     let q : Fin 256 := 1
     let word : W32 := 5
     let tail := word.toNat % 65536
     let k := tgetD s.ob.sq q.val {}
     (LinkRuns s) ∧
      (barOpen s = true) ∧
      (getF s sqStateState q.val ≠ 0) ∧
      ((tail + 65536 - getF s sqStateHead q.val) % 65536 ≤ 2 ^ getF s sqStateDepthLog2 q.val) ∧
      (tail ≠ getF s sqStateTail q.val) ∧
      (k.gone = false ∧ k.rereads = 0)) ∧
    (let s : State := setF hlStatusLinkUp 0 1 up
     let q : Fin 256 := 255
     (LinkRuns s) ∧
      (barOpen s = true) ∧
      (getF s sqStateState q.val = 0)) ∧
    (let s : State := setF hlStatusLinkUp 0 1 up
     let slot : Fin 64 := 63
     let off : Fin 32 := 31
     let words : List W64 := [1]
     let l := larkGet s slot.val
     (LinkRuns s) ∧
      (barOpen s = true) ∧
      (words ≠ [] ∧ off.val + words.length ≤ 32) ∧
      (l.busy = false)) ∧
    (let s : State := setF hlStatusLinkUp 0 1 (obLark 0)
     let slot : Fin 64 := 2
     let off : Fin 32 := 0
     let words : List W64 := [1]
     (LinkRuns s) ∧
      (barOpen s = true) ∧
      (words ≠ [] ∧ off.val + words.length ≤ 32) ∧
      ((larkGet s slot.val).busy = true)) ∧
    (let s : State := setF hlStatusLinkUp 0 1 up
     let off : BitVec 41 := 0x1000
     let len : Nat := 8
     (LinkRuns s) ∧
      (selfHosted s = false ∧ barOpen s = true) ∧
      (isDevMem off.toNat len = true ∧ inBiasTable s off.toNat len = false)) ∧
    (let s : State := setF hlStatusLinkUp 0 1 up
     let off : BitVec 41 := 0x1000
     let len : Nat := 8
     (LinkRuns s) ∧
      (selfHosted s = false ∧ barOpen s = true) ∧
      (isDevMem off.toNat len = true ∧ inBiasTable s off.toNat len = false)) ∧
    (let s : State := setF coCtrlBiasEn 0 1 (setF hlStatusLinkUp 0 1 up)
     let off : BitVec 41 := 0x1000
     let len : Nat := 8
     (LinkRuns s) ∧
      (selfHosted s = false ∧ barOpen s = true) ∧
      (inBiasTable s off.toNat len = true)) ∧
    (let s : State := setF hlStatusRole 0 1 up
     let fn : Fin 256 := 0
     let off : Fin 1024 := 4
     (LinkRuns s) ∧
      (selfHosted s = true) ∧
      (fn = 0 ∧ rpFixed off.val = false)) ∧
    (let s : State := setF hlStatusLinkUp 0 1 (setF hlStatusRole 0 1 up)
     let bus : Fin 16 := 15
     (LinkRuns s) ∧
      (selfHosted s = true ∧ flagSet s hlStatusLinkUp 0 = true) ∧
      (bus.val ≠ 0)) ∧
    (let s : State := setF hlStatusLinkUp 0 1 (setF hlStatusRole 0 1 up)
     let bus : Fin 16 := 1
     (LinkRuns s) ∧
      (selfHosted s = true ∧ flagSet s hlStatusLinkUp 0 = true) ∧
      (bus.val ≠ 0)) := by and_intros <;> decide +kernel

theorem witness_HostAccesses_b :
    (let s : State := setF hlRpInwinEn 0 1 (setF hlRpInwinLimit 0 1 (setF hlStatusLinkUp 0 1 (setF hlStatusRole 0 1 up)))
     let addr : W64 := 0x1FFFF8
     let len : Nat := 8
     (LinkRuns s) ∧
      (selfHosted s = true ∧ flagSet s hlStatusLinkUp 0 = true) ∧
      (inWindow s addr.toNat len = true)) ∧
    (let s : State := setF hlStatusLinkUp 0 1 (setF hlStatusRole 0 1 up)
     let addr : W64 := 0x200000
     let len : Nat := 8
     (LinkRuns s) ∧
      (selfHosted s = true ∧ flagSet s hlStatusLinkUp 0 = true) ∧
      (inWindow s addr.toNat len = false ∧ isImsic addr.toNat len = false)) ∧
    (let s : State := setF hlStatusLinkUp 0 1 up
     (LinkRuns s) ∧
      (barOpen s = true)) ∧
    (let s : State := setF hlStatusLinkUp 0 1 ob
     let q : Fin 64 := 0
     let head : W16 := 0
     (LinkRuns s) ∧
      (barOpen s = true) ∧
      (pastTail 65536 head.toNat (getF s cqStateHead q.val) (getF s cqStateTail q.val) = false)) ∧
    (let s : State := setF hlStatusLinkUp 0 1 ob
     let head : W16 := 0
     (LinkRuns s) ∧
      (barOpen s = true) ∧
      (pastTail 65536 head.toNat (getF s eqStateHead 0) (getF s eqStateTail 0) = false)) ∧
    (let s : State := setF hlStatusLinkUp 0 1 ob
     let head : BitVec 13 := 0
     (LinkRuns s) ∧
      (barOpen s = true) ∧
      (pastTail 8192 head.toNat (getF s atFqPtrHead 0) (getF s atFqPtrTail 0) = false)) ∧
    (let s : State := setF hlStatusLinkUp 0 1 ob
     let head : W16 := 1
     (LinkRuns s) ∧
      (barOpen s = true) ∧
      (pastTail 65536 head.toNat (getF s eqStateHead 0) (getF s eqStateTail 0) = true)) := by and_intros <;> decide +kernel

/-- What `Obligations.FabricEvents` assumes can hold. -/
theorem witness_FabricEvents_a :
    (let s : State := setF tfPosStrapValid 0 1 ob
     let p : PortNo := 0
     let n : NbrIdent := { heath := 0, plane := 1, y := 0, z := 0, spare := 8, part := 0 }
     let lanes : BitVec 10 := 1023
     let good := lanes.toNat &&& (1023 - (fabPort s p).bad)
     let t := fabPortMod p (fun x => { x with nbrPart := n.part.toNat, failed := false }) (sendHello p s)
     let u := setF tfPortStatusLanesUsed p (lowLanes good 8) (setF tfPortStatusWidth p 2 t)
     (DieRuns s (26 + p / 8)) ∧
      (flagSet s tfPosStrapValid 0 = true ∧ inRecovery s = false ∧ flagSet s tfPortStatusDisabled p = false) ∧
      (8 ≤ popCount good 10) ∧
      (n.heath.toNat = getF s tfPosHeathId 0 ∧ (n.plane.val, n.y.val, n.z.val) = neighbour s p ∧ n.spare.val = sparePlane s) ∧
      (u.fab.part = none)) ∧
    (let s : State := setF tfPortStatusWidth 15 2 up
     let p : PortNo := 15
     (DieRuns s (26 + p / 8))) ∧
    (let s : State := { obPart ob with fab.barrier := some { cmd := 0, want := [0, 1], got := [0] } }
     let part : W16 := 1
     let plane : Fin 9 := 0
     let y : Fin 4 := 0
     let z : Fin 4 := 1
     let b : FabBarrier := { cmd := 0, want := [0, 1], got := [0] }
     let p : Partition := aPart
     let t := learnPart part.toNat (memberCode plane y z) s
     (Running s) ∧
      (p.id = part.toNat) ∧
      (t.fab.barrier = some b ∧ t.fab.part = some p)) ∧
    (let s : State := setF tfPosPartUp 0 0 { obPart ob with fab.barrier := some { cmd := 0, want := [0, 1], got := [0] } }
     let b : FabBarrier := { cmd := 0, want := [0, 1], got := [0] }
     (Running s) ∧
      (s.fab.barrier = some b) ∧
      (flagSet s tfPosPartUp 0 = false)) ∧
    (let s : State := { obPart ob with fab.colls := [aColl] }
     let rank : Fin 128 := 1
     let fields : List W64 := [0, 4, 0]
     let val : Nat := 0
     let poison : List Nat := []
     let k : CollRun := aColl
     let x : CollPart := { rank := rank, fields := fields.map (·.toNat), data := val, poison := poison }
     let c := { k with parts := k.parts ++ [x] }
     (Running s) ∧
      (s.fab.lateColl.any (fun e => e.1 == clGroup (x.fields.getD 1 0) && e.2.contains x.rank) = false) ∧
      (s.fab.colls.find? (fun c => c.xgroup.isNone && clGroup (wordAt c.words 4) == clGroup (x.fields.getD 1 0) && !c.parts.any (fun p => p.rank == x.rank)) = some k)) ∧
    (let s : State := up
     let rank : Fin 128 := 127
     let fields : List W64 := [0, 4, 0]
     let val : Nat := 0
     let poison : List Nat := []
     let x : CollPart := { rank := rank, fields := fields.map (·.toNat), data := val, poison := poison }
     (Running s) ∧
      (s.fab.lateColl.any (fun e => e.1 == clGroup (x.fields.getD 1 0) && e.2.contains x.rank) = false) ∧
      (s.fab.colls.find? (fun c => c.xgroup.isNone && clGroup (wordAt c.words 4) == clGroup (x.fields.getD 1 0) && !c.parts.any (fun p => p.rank == x.rank)) = none)) ∧
    (let s : State := { up with fab.lateColl := [(0, [5])] }
     let rank : Fin 128 := 5
     let fields : List W64 := [0, 0, 0]
     let g := clGroup ((fields.map (·.toNat)).getD 1 0)
     (Running s) ∧
      (s.fab.lateColl.any (fun e => e.1 == g && e.2.contains rank.val) = true)) ∧
    (let s : State := fabPortMod 3 (fun x => { x with pattern := some 7 }) ob
     let p : PortNo := 3
     let id : Nat := 7
     (DieRuns s (26 + p / 8)) ∧
      ((fabPort s p).pattern = some id)) ∧
    (let s : State := openPorts <| obPart { mapped with xl.units := [(8, { sward := [(0, [{ va := 0, size := 4096, pa := 0, r := true, w := true, x := true }])] })] }
     let u : UnitNo := 8
     let rank : Fin 128 := 1
     let burst : Nat := 4
     let va : VA := 0x100
     let len : Nat := 32
     let rs : List (Nat × Nat × Nat) := [(0x100, 0x100, 32)]
     let t : State := (vruns { unit := 8, agent := 5, va := 0x100 } 0x100 32 { s with fab.seen := (1, 4) :: s.fab.seen }).2
     let r := { s with fab.seen := (rank.val, burst) :: s.fab.seen }
     (DieRuns s (dieOfXunit u) ∧ 8 ≤ u.val) ∧
      (burstFenced s rank = false) ∧
      (s.fab.seen.contains (rank.val, burst) = false) ∧
      (vruns { unit := u, agent := 5, va := va.toNat } va.toNat len r = (.runs rs, t))) ∧
    (let s : State := { openPorts (obPart up) with fab.seen := [(1, 4)] }
     let u : UnitNo := 8
     let rank : Fin 128 := 1
     let burst : Nat := 4
     (DieRuns s (dieOfXunit u) ∧ 8 ≤ u.val) ∧
      (burstFenced s rank = false) ∧
      (s.fab.seen.contains (rank.val, burst) = true)) := by and_intros <;> decide +kernel

theorem witness_FabricEvents_b :
    (let s : State := { up with fab.unacked := [.burst 1 4 0 32 0 [] []] }
     (Running s)) ∧
    (let s : State := setF tfPortStatusFenced 8 1 up
     let p : PortNo := 8
     (DieRuns s (26 + p / 8)) ∧
      (flagSet s tfPortStatusFenced p = true)) ∧
    (let s : State := obPart ob
     let rank : Fin 128 := 15
     (Running s) ∧
      (rankOk s rank = true)) ∧
    (let s : State := setF tfPortStatusWidth 3 2 (setF tfPortStatusLanesUsed 3 0x2FF up)
     let p : PortNo := 3
     let lane : Fin 10 := 9
     (DieRuns s (26 + p / 8)) ∧
      (portUp s p = true ∧ (getF s tfPortStatusLanesUsed p).testBit lane = true) ∧
      ((fabPort s p).testing ≠ some lane.val)) ∧
    (let s : State := fabPortMod 3 (fun x => { x with testing := some 1 }) (setF tfPortStatusWidth 3 2 (setF tfPortStatusLanesUsed 3 0xFF up))
     let p : PortNo := 3
     let l : Nat := 1
     (DieRuns s (26 + p / 8)) ∧
      ((fabPort s p).testing = some l)) ∧
    (let s : State := fabPortMod 3 (fun x => { x with testing := some 1 }) (setF tfPortStatusWidth 3 2 (setF tfPortStatusLanesUsed 3 0xFF up))
     let p : PortNo := 3
     let l : Nat := 1
     let t := bump reCountsTests 0 1 (fabPortMod p (fun x => { x with testing := none }) s)
     (DieRuns s (26 + p / 8)) ∧
      ((fabPort s p).testing = some l) ∧
      (recentTransients t lvPackage (26 + p / 8) (p * 16 + l + 1) 0x05 < 2)) ∧
    (let s : State := setF tfPortStatusWidth 3 2 up
     let p : PortNo := 3
     (DieRuns s (26 + p / 8)) ∧
      (portUp s p = true)) := by and_intros <;> decide +kernel

/-- What `Obligations.NetworkEvents` assumes can hold. -/
theorem witness_NetworkEvents_a :
    (let s : State := obNet
     let p : EthNo := 0
     let qp : Fin 4096 := 1
     let va : VA := 0x100
     let len : Nat := 8
     let rs : List (Nat × Nat × Nat) := [(0x100, 0x100, 8)]
     let t : State := (translateRange { unit := 8, agent := 6, va := 0x100, w := true } 8 obNet).2
     let a : XAcc := { unit := unitOfEth p, agent := 6, va := va.toNat, w := true }
     (DieRuns s (26 + p / 2) ∧ (qpGet s qp).en = true) ∧
      (translateRange a len s = (.runs rs, t))) ∧
    (let s : State := obNet
     let p : EthNo := 0
     let qp : Fin 4096 := 1
     let va : VA := 0x100
     let len : Nat := 8
     let rs : List (Nat × Nat × Nat) := [(0x100, 0x100, 8)]
     let t : State := (translateRange { unit := 8, agent := 6, va := 0x100, r := true } 8 obNet).2
     let a : XAcc := { unit := unitOfEth p, agent := 6, va := va.toNat, r := true }
     let d := ioRead (unitOfEth p) rs t
     (DieRuns s (26 + p / 2) ∧ (qpGet s qp).en = true) ∧
      (translateRange a len s = (.runs rs, t)) ∧
      (d.2.1 = false)) ∧
    (let s : State := obNet
     let p : EthNo := 3
     let qp : Fin 4096 := 1
     (DieRuns s (26 + p / 2) ∧ (qpGet s qp).en = true)) ∧
    (let s : State := { obNet with net.posts := [{ cmd := 0, qp := 1, kind := 1, va := 0, len := 8 }] }
     let p : EthNo := 0
     let qp : Fin 4096 := 1
     (DieRuns s (26 + p / 2) ∧ (qpGet s qp).en = true)) ∧
    (let s : State := { obNet with net.posts := [{ cmd := 0, qp := 1, kind := 1, va := 0, len := 8 }] }
     let p : EthNo := 0
     let qp : Fin 4096 := 1
     (DieRuns s (26 + p / 2) ∧ (qpGet s qp).en = true)) ∧
    (let s : State := obNet
     let qp : Fin 4096 := 1
     (Running s) ∧
      ((qpGet s qp).en = true)) ∧
    (let s : State := obNet
     let qp : Fin 4096 := 1
     (Running s) ∧
      ((qpGet s qp).en = true)) ∧
    (let s : State := obNet
     let p : EthNo := 0
     (DieRuns s (26 + p / 2)) ∧
      (getF s netPortStatusState p ≠ 0)) ∧
    (let s : State := up
     let p : EthNo := 3
     (DieRuns s (26 + p / 2))) ∧
    (let s : State := { obNet with net.posts := [{ cmd := 0, qp := 1, kind := 1, va := 0, len := 8 }] }
     (Running s)) := by and_intros <;> decide +kernel

theorem witness_NetworkEvents_b :
    (let s : State := { ob with net.fetch := some { cmd := 0, words := [] }, ob.openCmds := [{ id := 0, door := .sq 0, words := [] }] }
     let f : Fetch := { cmd := 0, words := [] }
     let oc : OpenCmd := { id := 0, door := .sq 0, words := [] }
     (Running s) ∧
      (s.net.fetch = some f ∧ f.man = none) ∧
      (s.ob.openCmds.find? (fun o => o.id == f.cmd) = some oc)) ∧
    (let s : State := obFetch
     let src : ChunkFrom := .store
     let chunk : Fin 1048576 := 0
     let bytes : List Byte := List.replicate 64 1
     let f : Fetch := aFetch
     let m : Manifest := aMan
     let rs : List (Nat × Nat × Nat) := [(0, 0, 64)]
     let t : State := (translateRange (chunkAccess aFetch aMan 0) (chunkLen aMan 0) obFetch).2
     (Running s) ∧
      (s.net.fetch = some f ∧ f.man = some m) ∧
      (chunkFrom src = f.parent ∧ f.asked.contains chunk.val = true) ∧
      (chunkGood m chunk bytes = true) ∧
      (runsOrCode (cmdEpoch s f.cmd) (translateRange (chunkAccess f m chunk) (chunkLen m chunk) s) = (.runs rs, t))) ∧
    (let s : State := obFetch
     let src : ChunkFrom := .store
     let chunk : Fin 1048576 := 0
     let bytes : List Byte := [1]
     let f : Fetch := aFetch
     let m : Manifest := aMan
     (Running s) ∧
      (s.net.fetch = some f ∧ f.man = some m) ∧
      (chunkFrom src = f.parent ∧ f.asked.contains chunk.val = true) ∧
      (chunkGood m chunk bytes = false)) ∧
    (let s : State := obFetch
     let node : Fin 4096 := 1
     let chunk : Fin 1048576 := 0
     let f : Fetch := aFetch
     let m : Manifest := aMan
     (Running s) ∧
      (s.net.fetch = some f ∧ f.man = some m) ∧
      (node.val < m.nodes.length ∧ chunk.val < m.hashes.length) ∧
      (f.kids.any (fun k => k.node == node.val) = true)) ∧
    (let s : State := { obNet with net.fetch := some { aFetch with parent := some 1 } }
     let node : Fin 4096 := 1
     let f : Fetch := { aFetch with parent := some 1 }
     (Running s) ∧
      (s.net.fetch = some f) ∧
      (f.parent = some node.val)) ∧
    (let s : State := obFetch
     let node : Fin 4096 := 1
     let f : Fetch := aFetch
     (Running s) ∧
      (s.net.fetch = some f) ∧
      (f.parent ≠ some node.val)) ∧
    (let s : State := obFetch
     let f : Fetch := aFetch
     (Running s) ∧
      (s.net.fetch = some f)) ∧
    (let s : State := { obNet with net.fetch := some { aFetch with parent := some 5, words := (cmdOf 0x7B [0x10000, 64, 0, 0, 0, 0, 0, 0, 0, 0, 0, 0, 0]).words } }
     let f : Fetch := { aFetch with parent := some 5, words := (cmdOf 0x7B [0x10000, 64, 0, 0, 0, 0, 0, 0, 0, 0, 0, 0, 0]).words }
     let m : Manifest := aMan
     let p : Nat := 5
     let alt := (m.nodes[wordBits f.words 1 27 16]?.map (·.alt)).getD 0xFFFF
     (Running s) ∧
      (s.net.fetch = some f ∧ f.man = some m ∧ f.parent = some p) ∧
      (alt ≠ 0xFFFF ∧ (f.failed ++ [p]).contains alt = false)) ∧
    (let s : State := obFetch
     (Running s)) ∧
    (let s : State := { ob with net.groups := [(3, { cmd := some 0, members := [0, 1, 2], own := 0 })] }
     let group : W32 := 3
     let x : NetGroup := { cmd := some 0, members := [0, 1, 2], own := 0 }
     (Running s) ∧
      (tget s.net.groups group.toNat = some x) ∧
      (x.cmd ≠ none)) := by and_intros <;> decide +kernel

theorem witness_NetworkEvents_c :
    (let s : State := { ob with net.groups := [(3, { cmd := some 0, members := [0, 1], own := 0 })] }
     let group : W32 := 3
     let x : NetGroup := { cmd := some 0, members := [0, 1], own := 0 }
     let id : Nat := 0
     (Running s) ∧
      (tget s.net.groups group.toNat = some x) ∧
      (x.cmd = some id)) ∧
    (let s : State := { ob with fab.colls := [{ aColl with xgroup := some 3 }], net.groups := [(3, aNetGroup)] }
     let group : W32 := 3
     let x : NetGroup := aNetGroup
     (Running s) ∧
      (tget s.net.groups group.toNat = some x)) := by and_intros <;> decide +kernel

/-- What `Obligations.LoamAndRings` assumes can hold. -/
theorem witness_LoamAndRings_a :
    (let s : State := setF timerStatusLocked 0 1 up
     (Powered s) ∧
      (flagSet s timerStatusLocked 0 = true)) ∧
    (let s : State := { up with timer.skew := [(7, -9)] }
     let d : DieNo := 7
     (Powered s) ∧
      (dieUp s d = true ∧ d.val ≠ 26)) ∧
    (let s : State := loamBuf
     let l : LinkNo := 2
     let ba : Bool := true
     let frame : Nat := 7
     let x := loamLink s l
     (Powered s) ∧
      (moduleRuns s = true) ∧
      (linkCarries s l = true ∧ x.move = none) ∧
      (x.buf.find? (fun e => e.1 == bit ba && e.2.1 == frame) = none ∧ (x.buf.filter (fun e => e.1 == bit ba)).length < 64)) ∧
    (let s : State := loamBuf
     (Powered s) ∧
      (moduleRuns s = true)) ∧
    (let s : State := loamBuf
     let l : LinkNo := 2
     let ba : Bool := false
     let frame : Nat := 7
     (Powered s) ∧
      (moduleRuns s = true) ∧
      ((loamLink s l).buf.any (fun e => e.1 == bit ba && e.2.1 == frame) = true ∧ linkCarries s l = true)) ∧
    (let s : State := up
     let i : Instr := .loamLaneError 2 true 135
     let l : LinkNo := 2
     let ba : Bool := true
     let lane : Fin 136 := 135
     let x := loamLink s l
     let k := laneKey ba lane
     (Powered s) ∧
      (i ∈ [.loamLaneError l ba lane, .loamHandshakeTimeout l ba lane]) ∧
      (moduleRuns s = true) ∧
      (linkCarries s l = true ∧ x.degraded = false ∧ x.gone.contains k = false ∧ x.tests = [] ∧ x.move = none)) ∧
    (let s : State := loamTest
     let l : LinkNo := 2
     let ba : Bool := false
     let lane : Fin 136 := 5
     let x := loamLink s l
     let k := laneKey ba lane
     (Powered s) ∧
      (moduleRuns s = true) ∧
      (x.tests.head? = some k ∧ x.optical = true ∧ x.move = none ∧ linkCarries s l = true)) ∧
    (let s : State := loamMoving true
     let l : LinkNo := 2
     (Powered s) ∧
      (moduleRuns s = true) ∧
      ((loamLink s l).move = some true ∧ (loamLink s l).buf = [])) ∧
    (let s : State := loamMoving false
     let l : LinkNo := 2
     (Powered s) ∧
      (moduleRuns s = true) ∧
      ((loamLink s l).move = some false ∧ (loamLink s l).buf = [] ∧ (loamLink s l).tests = [])) ∧
    (let s : State := setF ddRingStatusStopUp 1 0xFFFFFFF up
     let r : RingNo := 1
     let d : Fin 28 := 26
     let ch : Fin 34 := 25
     let x := loamRing s r
     let k := chanKey d ch
     (Powered s) ∧
      (moduleRuns s = true) ∧
      (ch.val < stopChannels d + 2 ∧ (getF s ddRingStatusStopUp r).testBit d = true ∧ flagSet s ddRingStatusLost r = false) ∧
      (x.failed.contains k = false ∧ x.tests.contains k = false)) := by and_intros <;> decide +kernel

theorem witness_LoamAndRings_b :
    (let s : State := ringTest
     let r : RingNo := 1
     let d : Fin 28 := 3
     let ch : Fin 34 := 4
     let k := chanKey d ch
     (Powered s) ∧
      (moduleRuns s = true) ∧
      ((loamRing s r).tests.contains k = true)) ∧
    (let s : State := ringTest
     let r : RingNo := 1
     let d : Fin 28 := 3
     let ch : Fin 34 := 4
     let k := chanKey d ch
     let t := bump reCountsTests 0 1 (ringMod r (fun y => { y with tests := y.tests.filter (· != k) }) s)
     let u := raise flDdRingStatusChanFail r (ringMod r (fun y => { y with failed := setAdd y.failed k }) t)
     (Powered s) ∧
      (moduleRuns s = true) ∧
      ((loamRing s r).tests.contains k = true) ∧
      (failedAt u r d ≤ 2)) ∧
    (let s : State := up
     let r : RingNo := 3
     (Powered s) ∧
      (moduleRuns s = true) ∧
      (flagSet s ddRingStatusLost r = false)) ∧
    (let s : State := up
     let d : DieNo := 4
     (Powered s) ∧
      (moduleRuns s = true) ∧
      (d.val ≠ 28)) ∧
    (let s : State := { up with loam.down := [(3, 5, 40)] }
     let h : HomeNo := 3
     let d : DieNo := 5
     let a : Nat := 5
     let stamp : Nat := 40
     (Powered s) ∧
      (moduleRuns s = true) ∧
      (s.loam.down.find? (fun e => e.1 == h.val && e.2.1 == d.val) = some (h.val, d.val, stamp)) ∧
      (portOfDie d = some a)) ∧
    (let s : State := { up with loam.down := [(16, 25, 7)] }
     let d : DieNo := 25
     let stamp : Nat := 7
     (Powered s) ∧
      (moduleRuns s = true) ∧
      (s.loam.down.find? (fun e => e.1 == 16 && e.2.1 == d.val) = some (16, d.val, stamp))) ∧
    (let s : State := up
     (Powered s) ∧
      (moduleRuns s = true)) := by and_intros <;> decide +kernel

/-- What `Obligations.TestAccess` assumes can hold. -/
theorem witness_TestAccess :
    (let s : State := up
     let tap : TapId := .module
     ((match tap with | .die d => dieInChain s d.val | _ => true) = true)) ∧
    (let s : State := up
     let tap : TapId := .loam
     ((match tap with | .die d => dieInChain s d.val | _ => true) = true)) ∧
    (let s : State := { up with pins.testReset := true }
     let tap : TapId := .module
     ((match tap with | .die d => dieInChain s d.val | _ => true) = true) ∧
      (s.pins.testReset = true)) ∧
    (let s : State := up
     let tap : TapId := .module
     ((match tap with | .die d => dieInChain s d.val | _ => true) = true) ∧
      (s.pins.testReset = false)) ∧
    (let s : State := setF ddStatusDebugLocked 0 0 up
     let d : Fin 28 := 27
     (flagSet s ddStatusDebugLocked 0 = false ∧ dieUp s d.val = true)) ∧
    (let s : State := setF ddStatusDebugLocked 0 1 up
     (flagSet s ddStatusDebugLocked 0 = true)) ∧
    (let s : State := ob
     (s.pins.testReset = false)) ∧
    (let s : State := { ob with pins.testReset := true, tap.ready := true }
     (s.pins.testReset = true)) ∧
    (let s : State := ob
     (s.pins.service = false)) ∧
    (let s : State := { ob with pins.service := true }
     (s.pins.service = true)) := by and_intros <;> decide +kernel

/-- What `Obligations.PowerAndHeat` assumes can hold. -/
theorem witness_PowerAndHeat_a :
    (let s : State := { up with elec := {} }
     (s.pins.present = true ∧ s.elec.input = false)) ∧
    (let s : State := up
     (s.elec.input = true)) ∧
    (let s : State := { up with elec.rails := 9 }
     (Powered s) ∧
      (railsDue s = true ∧ s.elec.rails < 10)) ∧
    (let s : State := { up with elec.rails := 9 }
     let ty : Nat := 0
     let cause : Nat := 0
     (Powered s) ∧
      (s.start.due = some (ty, cause)) ∧
      (railsDue s = true ∧ s.elec.rails < 10)) ∧
    (let s : State := up
     let r : Rail := .tuft
     let u : FedUnit := .sward 5
     (Powered s) ∧
      (2 < railNo r ∧ railFeeds r u = true)) ∧
    (let s : State := up
     let r : Rail := .io
     (Powered s) ∧
      (railNo r ≤ 2)) ∧
    (let s : State := { up with start.due := none, elec.latches := [2] }
     (Powered s) ∧
      (s.elec.rails = 0 ∧ s.start.due = none) ∧
      (s.elec.latches.any (fun r => r ≤ 2) = true)) ∧
    (let s : State := up
     let sw : SwardNo := 127
     (Powered s) ∧
      (meadowUp s (sw / 16) = true) ∧
      (s.err.out.any (fun o => o.level == lvSward && o.unit == sw.val) = false ∧ s.err.remaps.any (fun x => x.1 == sw.val) = false)) ∧
    (let s : State := { up with err.out := [{ level := lvSward, unit := 5, software := true }] }
     let sw : SwardNo := 5
     (Powered s) ∧
      (meadowUp s (sw / 16) = true) ∧
      (s.err.out.any (fun o => o.level == lvSward && o.unit == sw.val) = true)) ∧
    (let s : State := up
     let d : DieNo := 3
     (Powered s) ∧
      (dieUp s d = true ∧ d.val ≠ 28)) := by and_intros <;> decide +kernel

theorem witness_PowerAndHeat_b :
    (let s : State := up
     (Powered s) ∧
      (dieUp s 28 = true)) ∧
    (let s : State := { up with pw.fires := [(3, List.replicate 16 0)] }
     let u : Fin 148 := 3
     let steps : W32 := 95
     let expected : W32 := 100
     let fires := ((tgetD s.pw.fires u.val []).filter (fun x => cpTime s - x < 100000)).length
     (Running s) ∧
      (u.val < 128 ∧ steps.toNat * 100 ≤ expected.toNat * 95 ∧ 16 ≤ fires)) ∧
    (let s : State := up
     (Running s) ∧
      (pwAlive s = true)) ∧
    (let s : State := phasePut 5 (2 ^ 127) up
     let levels : BitVec 24 := 0
     let n : Nat := 5
     (Running s) ∧
      (pwAlive s = true) ∧
      (phaseMatch s levels.toNat = some n)) ∧
    (let s : State := up
     let levels : BitVec 24 := 0
     (Running s) ∧
      (pwAlive s = true) ∧
      (phaseMatch s levels.toNat = none)) ∧
    (let s : State := up
     let sw : SwardNo := 127
     (DieRuns s (sw.val / 16)) ∧
      (flagSet s swardPwGuard sw = false)) ∧
    (let s : State := setF swardPwGuard 5 1 up
     let sw : SwardNo := 5
     (DieRuns s (sw.val / 16))) ∧
    (let s : State := up
     let t : TuftNo := 1023
     let percent : Fin 101 := 5
     let new := agedCeil (getF s tuftCeilFused t) percent
     let now := tgetD s.pw.dueCeil t.val (getF s tuftCeilCeil t)
     (TuftRuns s t.val) ∧
      (pwAlive s = true ∧ getF s tuftCeilState t ≠ 3 ∧ new < now)) ∧
    (let s : State := setF pwCtrlGateIdleUs 0 5 (setF tuftCeilState 1023 1 up)
     let t : TuftNo := 1023
     (TuftRuns s t.val) ∧
      (pwAlive s = true ∧ getF s pwCtrlGateIdleUs 0 ≠ 0) ∧
      (getF s tuftCeilState t = 1 ∧ (tuft s t).task = none)) ∧
    (let s : State := setF tuftCeilState 0 2 grp
     let t : TuftNo := 0
     (TuftRuns s t.val) ∧
      (getF s tuftCeilState t = 2 ∧ (tuft s t).task ≠ none)) := by and_intros <;> decide +kernel

theorem witness_PowerAndHeat_c :
    (let s : State := up
     let d : DieNo := 8
     let temp : Byte := 100
     let laser : Byte := 0
     let sensors : Fin 5 := 4
     let c := if d.val = 28 then laser.toNat else temp.toNat
     let b := heatBand d c
     (Powered s) ∧
      (pwAlive s = true ∧ sensors.val ≠ 0) ∧
      (b ≠ 3)) ∧
    (let s : State := up
     let d : DieNo := 0
     let temp : Byte := 110
     (Powered s) ∧
      ((heatLimits d).2.2 ≤ temp.toNat) ∧
      (pwAlive s = true ∧ s.pw.tripped = false ∧ s.start.halted = false)) ∧
    (let s : State := up
     (Powered s) ∧
      (pwAlive s = true ∧ s.pw.tripped = false ∧ s.start.halted = false)) := by and_intros <;> decide +kernel

/-- What `Obligations.ErrorsAndStarts` assumes can hold. -/
theorem witness_ErrorsAndStarts :
    (let s : State := aFault
     let level : Fin 4 := 0
     let unit : W16 := 5
     let p : ErrRec := aFault.err.pend.headD {}
     (Running s) ∧
      (nextTest s (handlerOf level unit.toNat) = some p) ∧
      (p.level = level.val ∧ p.unit = unit.toNat ∧ unitIdle s level unit.toNat = true)) ∧
    (let s : State := { up with err.remaps := [(9, (0xFFFF, 0, 0x0A51))] }
     let sw : SwardNo := 9
     let x : Nat × Nat × Nat × Nat := (9, 0xFFFF, 0, 0x0A51)
     (DieRuns s (sw.val / 16)) ∧
      (s.err.remaps.find? (fun x => x.1 == sw.val) = some x) ∧
      ((span (8 * sw.val) 8).all (fun t => (tuft s t).task.isNone) = true)) ∧
    (let s : State := up
     let i : StartIn := {}
     let go : Instr := .coldStart {}
     let ty : Nat := typeCold
     let cause : Nat := 0
     ((ty, go) ∈ [(typeCold, .coldStart i), (typeWarm, .warmStart i), (typeRecovery, .recoveryStart i)]) ∧
      (Powered s) ∧
      (s.start.due = some (ty, cause)) ∧
      (startReady s = true)) ∧
    (let s : State := up
     (Running s)) ∧
    (let s : State := { ob with sec.writing := some (.config 4 0x0301 2), ob.openCmds := [{ id := 4, door := .sq 0, words := [0x10B] }] }
     let cmd : Nat := 4
     let k : Nat := 0x0301
     let v : Nat := 2
     (Powered s) ∧
      (s.sec.writing = some (.config cmd k v))) ∧
    (let s : State := { ob with sec.writing := some (.stage (some 4) 3 5 20000), ob.openCmds := [{ id := 4, door := .sq 0, words := [0x161] }] }
     let cmd : Nat := 4
     let key : Nat := 3
     let h : Nat := 5
     let n : Nat := 20000
     (Powered s) ∧
      (s.sec.writing = some (.stage (some cmd) key h n))) := by and_intros <;> decide +kernel

/-- What `Obligations.SecurityRequests` assumes can hold. -/
theorem witness_SecurityRequests :
    (let s : State := spdmUp
     let mctp : Bool := false
     (SpdmHears mctp s)) ∧
    (let s : State := spdmUp
     let mctp : Bool := true
     (SpdmHears mctp s)) ∧
    (let s : State := spdmUp
     let mctp : Bool := true
     (SpdmHears mctp s)) ∧
    (let s : State := spdmUp
     let mctp : Bool := true
     (SpdmHears mctp s)) ∧
    (let s : State := spdmUp
     let mctp : Bool := true
     let slot : Fin 8 := 1
     (SpdmHears mctp s) ∧
      (slot.val ≤ 1)) ∧
    (let s : State := spdmUp
     let mctp : Bool := true
     let slot : Fin 8 := 1
     (SpdmHears mctp s) ∧
      (slot.val ≤ 1)) ∧
    (let s : State := spdmUp
     let mctp : Bool := true
     let block : Byte := 8
     (SpdmHears mctp s) ∧
      (block.toNat ≠ 0 ∧ block.toNat ≤ 8)) ∧
    (let s : State := spdmUp
     let mctp : Bool := true
     let block : Byte := 1
     (SpdmHears mctp s) ∧
      (block.toNat ≠ 0 ∧ block.toNat ≤ 8)) ∧
    (let s : State := { spdmUp with sec.transcript := some 9 }
     let mctp : Bool := true
     let command : W16 := 1
     let hash : Nat := 9
     (SpdmHears mctp s) ∧
      (command = 1) ∧
      (s.sec.transcript = some hash)) := by and_intros <;> decide +kernel

/-- What `Obligations.Management` assumes can hold. -/
theorem witness_Management_a :
    (let s : State := up
     (Powered s ∧ mgmtUp s = true)) ∧
    (let s : State := up
     (Powered s ∧ mgmtUp s = true)) ∧
    (let s : State := up
     let id : W16 := 31
     (Powered s ∧ mgmtUp s = true) ∧
      (3 ≤ id.toNat ∧ id.toNat ≤ 31)) ∧
    (let s : State := up
     (Powered s ∧ mgmtUp s = true)) ∧
    (let s : State := up
     (Powered s ∧ mgmtUp s = true)) ∧
    (let s : State := up
     (Powered s ∧ mgmtUp s = true)) ∧
    (let s : State := up
     (Powered s ∧ mgmtUp s = true)) ∧
    (let s : State := setF mgCtrlButtonEn 0 1 up
     (Powered s ∧ mgmtUp s = true) ∧
      (getF s mgStatusPanel 0 = 0 ∧ s.start.halted = false ∧ flagSet s mgCtrlButtonEn 0 = true)) ∧
    (let s : State := { up with start.due := none }
     (Powered s ∧ mgmtUp s = true) ∧
      (getF s mgStatusPanel 0 ≠ 2 ∧ s.start.due = none)) ∧
    (let s : State := up
     (Powered s ∧ mgmtUp s = true) ∧
      (gorseUp s = true ∧ s.sec.writing = none)) := by and_intros <;> decide +kernel

theorem witness_Management_b :
    (let s : State := up
     let mask : BitVec 7 := 5
     (Powered s ∧ mgmtUp s = true) ∧
      (s.sec.writing = none ∧ stagingFailed s mask.toNat = false)) ∧
    (let s : State := { up with pins.buttonHeld := true }
     (mgmtUp s = true)) ∧
    (let s : State := { up with pins.buttonHeld := true }
     (mgmtUp s = true) ∧
      (getF s mgStatusPanel 0 < 2)) ∧
    (let s : State := setF mgStatusPanel 0 1 up
     (Powered s) ∧
      (getF s mgStatusPanel 0 = 1)) ∧
    (let s : State := setF mgStatusPanel 0 2 { up with mg.linkDown := true }
     (Powered s) ∧
      (getF s mgStatusPanel 0 = 2 ∧ s.mg.linkDown = true ∧ s.mg.start = none)) ∧
    (let s : State := up
     (s.pins.latchOpen = false ∧ s.elec.input = true) ∧
      (getF s mgStatusPanel 0 ≠ 3)) ∧
    (let s : State := setF mgStatusPanel 0 3 up
     (getF s mgStatusPanel 0 = 3)) ∧
    (let s : State := { up with pins.latchOpen := true, mg.early := true }
     (s.pins.latchOpen = true ∧ s.mg.early = true ∧ s.elec.input = true)) ∧
    (let s : State := up
     (s.pins.present = true ∧ s.elec.input = true)) := by and_intros <;> decide +kernel

/-- What `Obligations.StepRunsTheFrontCommand` assumes can hold. -/
theorem witness_StepRunsTheFrontCommand :
    (let s : State := setF timerStatusLocked 0 1 up
     (s.pending = [] ∧ s.wq = [] ∧ s.elec.input = true) ∧
      (flagSet s timerStatusLocked 0 = true ∨ flagSet s timerStatusBackup 0 = true)) ∧
    (let s : State := { up with elec.input := false }
     (s.pending = [] ∧ s.wq = []) ∧
      (s.elec.input = false ∨ (flagSet s timerStatusLocked 0 = false ∧ flagSet s timerStatusBackup 0 = false))) := by and_intros <;> decide +kernel

theorem witness_StepKeepsSound_1 : Sound up ∧ ∃ t, step up = .next t := ⟨by decide, _, rfl⟩

/-- What `Obligations.NothingFollows` assumes can hold. -/
theorem witness_NothingFollows :
    (let t : State := up
     (NothingWaits t)) := by decide +kernel

/-- What `Obligations.MemoryAndPoison` assumes can hold. -/
theorem witness_MemoryAndPoison :
    (let m : List Host.Cell := [(3, 1), (9, 2)]
     (memWf m = true)) ∧
    (let s : State := up
     let a : Nat := 5
     let n : Nat := 0
     (∀ i, i < n → deadAddr s (a + i) = false)) ∧
    (let s : State := up
     let n : Nat := 1
     (0 < n ∧ s.lostHomes = [] ∧ s.retired = [])) := by and_intros <;> decide +kernel

theorem witness_MemoryAndPoison_2 : memWf [(1, 2)] = true ∧ ∀ a, memGet [(1, 2)] a = memGet [(1, 2)] a := ⟨by decide, fun _ => rfl⟩

/-- What `Obligations.RegisterFields` assumes can hold. -/
theorem witness_RegisterFields :
    (let f : Field := pwCtrlCapW
     (f.lo ≤ f.hi ∧ f.hi < 128)) ∧
    (let f : Field := pwCtrlCapW
     let g : Field := pwCtrlLearn
     (f.lo ≤ f.hi ∧ f.hi < 128 ∧ g.lo ≤ g.hi ∧ g.hi < 128) ∧
      (f.reg = g.reg ∧ (f.hi < g.lo ∨ g.hi < f.lo))) ∧
    (let f : Field := pwCtrlCapW
     let g : Field := hlStatusBme
     let u : Nat := 0
     let v : Nat := 0
     (u < 65536 ∧ v < 65536) ∧
      (f.reg ≠ g.reg ∨ u ≠ v)) ∧
    (let f : Field := hlStatusBarErr
     let g : Field := hlCountsBarErrCount
     let u : Nat := 0
     (f.lo ≤ f.hi ∧ f.hi < 128 ∧ g.lo ≤ g.hi ∧ g.hi < 128 ∧ u < 65536) ∧
      (f.reg ≠ g.reg ∨ f.hi < g.lo ∨ g.hi < f.lo)) := by and_intros <;> decide +kernel

/-- What `Obligations.LowestReasonReported` assumes can hold. -/
theorem witness_LowestReasonReported :
    (let l : List (Option Nat) := [none, some 3, some 2]
     (lowest l ≠ 0)) ∧
    (let l : List (Option Nat) := [none, some 3, some 2]
     let c : Nat := 3
     (some c ∈ l ∧ c ≠ 0)) ∧
    (let l : List (Option Nat) := [none, some 3, some 2]
     let m : List (Option Nat) := [some 2, none, some 3]
     (l.Perm m)) := by and_intros <;> decide +kernel

/-- What `Obligations.StochasticRounding` assumes can hold. -/
theorem witness_StochasticRounding :
    (let f : Fmt := .fp64
     (f = .fp32 ∨ f = .fp64)) ∧
    (let a : Arith := {}
     (a.rmode ≠ .sr)) := by and_intros <;> decide +kernel

/-- What `Obligations.SubnormalHandling` assumes can hold. -/
theorem witness_SubnormalHandling :
    (let f : Fmt := .xf16
     let bits : Nat := 0x81FF
     let m := bits % 2 ^ manBits f
     (f = .fp32 ∨ f = .fp64 ∨ f = .xf16) ∧
      (bitsOf bits (expBits f + manBits f - 1) (manBits f) = 0 ∧ m ≠ 0)) ∧
    (let f : Fmt := .fp64
     let bits : Nat := 0x10000000000000
     (f = .fp32 ∨ f = .fp64 ∨ f = .xf16) ∧
      (bitsOf bits (expBits f + manBits f - 1) (manBits f) ≠ 0 ∨ bits % 2 ^ manBits f = 0)) ∧
    (let f : Fmt := .fp32
     (f = .fp32 ∨ f = .fp64 ∨ f = .xf16)) ∧
    (let f : Fmt := .xf4
     (f = .xf8a ∨ f = .xf8b ∨ f = .xf6 ∨ f = .xf4)) := by and_intros <;> decide +kernel

/-- What `Obligations.Idcodes` assumes can hold. -/
theorem witness_Idcodes :
    (let s : State := up
     let tap : TapId := .module
     ((match tap with | .die d => dieInChain s d.val | _ => true) = true)) := by decide +kernel

/-- What `Obligations.LarkAnswerWords` assumes can hold. -/
theorem witness_LarkAnswerWords :
    (let oc : OpenCmd := { id := 0, door := .lark 2, words := [1] }
     let e : CmdEnd := { status := 1, reason := 0x100 }
     let k : Fin 64 := 2
     (oc.door = .lark k) ∧
      (e.status < 4 ∧ e.reason < 65536)) := by decide +kernel

/-- What `Obligations.EventsToTheHost` assumes can hold. -/
theorem witness_EventsToTheHost :
    (let s : State := setF evRouteEn 3 1 (setF evRouteToHost 3 1 up)
     let src : Nat := 3
     (getF s evRouteEn src = 1 ∧ getF s evRouteToHost src = 1)) ∧
    (let v : Nat := 5
     (v ≠ 0)) ∧
    (let s : State := { setF hlStatusLinkUp 0 1 (setF hlStatusBme 0 1 up) with link.msixEn := true, link.pba := [5] }
     let v : Fin 256 := 5
     (LinkRuns s ∧ selfHosted s = false ∧ msixReady s = true) ∧
      (s.link.pba = [v.val])) ∧
    (let s : State := up
     (LinkRuns s ∧ selfHosted s = false)) ∧
    (let s : State := setF hlStatusLinkUp 0 0 up
     let speed : Fin 7 := 1
     let width : Fin 17 := 16
     (LinkRuns s ∧ flagSet s hlStatusLinkUp 0 = false ∧ speed.val ≠ 0 ∧ speed.val ≤ capSpeed s ∧ widthOk width.val = true)) := by and_intros <;> decide +kernel

theorem witness_EventsToTheHost_5 : let s := { setF evRoutePend 3 1 (setF evRouteEn 3 1 (setF evRouteToHost 3 1 (setF hlStatusLinkUp 0 1 (setF hlStatusBme 0 1 up)))) with link.msixEn := true }
       ((3 < 72 ∧ getF s evRoutePend 3 = 1 ∧ getF s evRouteEn 3 = 1 ∧ getF s evRouteToHost 3 = 1 ∧ msixReady s = true) ∧
       ∀ n : Fin 72, n.val ≠ 3 → getF s evRoutePend n.val = 0) := by decide +kernel

/-- What `Obligations.RefusedInstructions` assumes can hold. -/
theorem witness_RefusedInstructions :
    (let r : Nat := 40
     (r < 256)) ∧
    (let s : State := grp
     let i : Issue := aWord 0 [(40, 37)]
     let c : ICtx := aCtx
     let op : IntOp := .add
     let wide : Bool := false
     let n := if wide then 2 else 1
     let use : RegUse := { vd := n, va := if op == .mov then 0 else n, vb := n }
     let checks := useChecks i c use ++ opReserved (op == .reserved)
     (Reaches 0 i c s) ∧
      (lowest checks ≠ 0)) ∧
    (let s : State := grp
     let i : Issue := aWord 1 [(5, 37)]
     let c : ICtx := aCtx
     let op : FpOp := .div
     let dbl : Bool := true
     let n := if dbl then 2 else 1
     let use : RegUse := { vd := n, va := n, vb := if op == .sqrt || op == .rcp then 0 else n, vc := if op == .fma then n else 0 }
     let checks := useChecks i c use ++ opReserved (op == .reserved || (dbl && (op == .div || op == .sqrt || op == .rcp)))
     (Reaches 1 i c s) ∧
      (lowest checks ≠ 0)) ∧
    (let s : State := grp
     let i : Issue := aWord 3 []
     let c : ICtx := aCtx
     let ty : CmpTy := .fp64
     let n := if ty == .s64 || ty == .u64 || ty == .fp64 then 2 else 1
     let checks := useChecks i c { va := n, vb := n, pd := true }
     (Reaches 3 i c s) ∧
      (lowest checks ≠ 0)) ∧
    (let s : State := grp
     let i : Issue := aWord 14 [(64, 37)]
     let c : ICtx := aCtx
     let op : IntOp := .sub
     let checks := useChecks i c { sd := true, sa := op != .mov, sb := true } ++ opReserved (op == .reserved)
     (Reaches 14 i c s) ∧
      (lowest checks ≠ 0)) ∧
    (let s : State := grp
     let i : Issue := aWord 5 [(30, 37), (4, 29)]
     let c : ICtx := aCtx
     let m : MemMod := { store := true, size := 4 }
     let n := memBytes m
     let as := laneAddrs i c false
     let checks := useChecks i c (memUse m 1) ++ (scopeChecks i ++
       [failIf (as.any (fun a => a.2 % n != 0)) 0x0462, failIf (as.any (fun a => decide (tkLimit c.task.d < a.2 + n))) 0x0463])
     (Reaches 5 i c s) ∧
      (lowest checks ≠ 0)) ∧
    (let s : State := grp
     let i : Issue := aWord 6 [(30, 37), (31, 29)]
     let c : ICtx := aCtx
     let m : MemMod := { store := true, size := 4 }
     let n := memBytes m
     let checks := useChecks i c (memUse m 2) ++ (scopeChecks i ++ [failIf ((laneAddrs i c true).any (fun a => a.2 % n != 0)) 0x0462])
     (Reaches 6 i c s) ∧
      (lowest checks ≠ 0)) ∧
    (let s : State := grp
     let i : Issue := aWord 8 []
     let c : ICtx := aCtx
     let reserved : Bool := true
     let checks := useChecks i c {} ++ (opReserved reserved ++ scopeChecks i)
     (Reaches 8 i c s) ∧
      (lowest checks ≠ 0)) := by and_intros <;> decide +kernel

/-- What `Obligations.CapLimits` assumes can hold. -/
theorem witness_CapLimits :
    (let s : State := ob
     let c : Cmd := cmdOf 0x80 [0x1050001]
     (Accepts 0x80 c s) ∧
      (wordBits c.words 1 15 0 < 1500 ∨ 4200 < wordBits c.words 1 15 0)) ∧
    (let s : State := up
     (getF s pwCtrlMgmtCapW 0 = 0)) ∧
    (let s : State := setF pwCtrlMgmtCapW 0 1 up
     (0 < getF s pwCtrlMgmtCapW 0 ∧ getF s pwCtrlMgmtCapW 0 < 1500)) ∧
    (let s : State := setF pwCtrlMgmtCapW 0 1500 up
     (1500 ≤ getF s pwCtrlMgmtCapW 0)) := by and_intros <;> decide +kernel

/-- What `Obligations.CacheBlocks` assumes can hold. -/
theorem witness_CacheBlocks :
    (let s : State := coreOn 3
     let h : HartNo := 3
     let pa : PA := 0x1FF
     let a := pa.toNat / 64 * 64
     let got := rangeAccess .rdx (hartPort h) a 64 s
     (Powered s ∧ coreUp s h.val = true) ∧
      (coreMem s a 64 = true) ∧
      (biasLost got a 64 = false ∧ got.coh.stuck = none)) ∧
    (let s : State := coreOn 3
     let h : HartNo := 3
     (Powered s ∧ coreUp s h.val = true)) ∧
    (let s : State := setCacheLine 8 3 { st := .m } (coreOn 0)
     let h : HartNo := 0
     let pa : PA := 0x1FF
     let line := pa.toNat / 128
     let t := agentGivesUp (hartPort h) line s
     (Powered s ∧ coreUp s h.val = true) ∧
      (coreMem s pa.toNat 1 = true ∧ t.coh.stuck = none)) ∧
    (let s : State := setCacheLine 8 3 { st := .m } (coreOn 0)
     let h : HartNo := 0
     let pa : PA := 0x1FF
     let line := pa.toNat / 128
     let t := agentCleans (hartPort h) line s
     (Powered s ∧ coreUp s h.val = true) ∧
      (coreMem s pa.toNat 1 = true ∧ t.coh.stuck = none)) ∧
    (let s : State := setCacheLine 8 3 { st := .m } (coreOn 0)
     let h : HartNo := 0
     let agent : Nat := 8
     let line : Nat := 3
     let c := cacheLine s agent line
     (Powered s ∧ coreUp s h.val = true) ∧
      (c.st = .m ∧ c.req = none ∧ s.lostHomes.contains (homeOfLine line) = false)) := by and_intros <;> decide +kernel

/-- What `Obligations.HostWrites` assumes can hold. -/
theorem witness_HostWrites :
    (let s : State := setF hlStatusLinkUp 0 1 up
     let len : Nat := 8
     let off : BitVec 41 := 0x1000
     let a := off.toNat
     let got := rangeAccess .ncwr 10 a len s
     (LinkRuns s ∧ barOpen s = true) ∧
      (selfHosted s = false ∧ isDevMem a len = true ∧ inBiasTable s a len = false) ∧
      (biasLost got a len = false ∧ got.coh.stuck = none)) ∧
    (let s : State := setF hlRpInwinEn 0 1 (setF hlRpInwinLimit 0 1 (setF hlStatusLinkUp 0 1 (setF hlStatusRole 0 1 up)))
     let len : Nat := 8
     let addr : W64 := 0x1FFFF8
     let a := addr.toNat
     let got := rangeAccess .ncwr 10 a len s
     (LinkRuns s ∧ barOpen s = true) ∧
      (selfHosted s = true ∧ flagSet s hlStatusLinkUp 0 = true) ∧
      (inWindow s a len = true) ∧
      (biasLost got a len = false ∧ got.coh.stuck = none)) := by and_intros <;> decide +kernel

/-- What `Obligations.ThreadFrames` assumes can hold. -/
theorem witness_ThreadFrames :
    (let s : State := grp
     let i : Issue := aWord 0 [(5, 37)]
     let c : ICtx := aCtx
     let op : IntOp := .add
     let wide : Bool := false
     let n := if wide then 2 else 1
     (Sound s ∧ NothingWaits s) ∧
      (Issues 0 i c s) ∧
      (NoneFails (useChecks i c { vd := n, va := if op == .mov then 0 else n, vb := n } ++ opReserved (op == .reserved)))) ∧
    (let s : State := grp
     let i : Issue := aWord 1 [(5, 37)]
     let c : ICtx := aCtx
     let op : FpOp := .add
     let dbl : Bool := false
     let n := if dbl then 2 else 1
     let use : RegUse := { vd := n, va := n, vb := if op == .sqrt || op == .rcp then 0 else n, vc := if op == .fma then n else 0 }
     (Sound s ∧ NothingWaits s) ∧
      (Issues 1 i c s) ∧
      (NoneFails (useChecks i c use ++ opReserved (op == .reserved || (dbl && (op == .div || op == .sqrt || op == .rcp)))))) ∧
    (let s : State := grp
     let i : Issue := aWord 3 [(1, 37)]
     let c : ICtx := aCtx
     let ty : CmpTy := .fp64
     let n := if ty == .s64 || ty == .u64 || ty == .fp64 then 2 else 1
     (Sound s ∧ NothingWaits s) ∧
      (Issues 3 i c s) ∧
      (NoneFails (useChecks i c { va := n, vb := n, pd := true }))) ∧
    (let s : State := grp
     let i : Issue := aWord 14 [(5, 37), (1, 29), (2, 21)]
     let c : ICtx := aCtx
     let op : IntOp := .sub
     (Sound s ∧ NothingWaits s) ∧
      (Issues 14 i c s) ∧
      (NoneFails (useChecks i c { sd := true, sa := op != .mov, sb := true } ++ opReserved (op == .reserved)))) ∧
    (let s : State := grp
     let i : Issue := aWord 5 [(8, 37), (4, 29)]
     let c : ICtx := aCtx
     let size : Fin 5 := 2
     let signed : Bool := false
     let m : MemMod := { store := true, size := size, signed := signed }
     let n := 2 ^ size.val
     let as := laneAddrs i c false
     (Sound s ∧ NothingWaits s) ∧
      (Issues 5 i c s) ∧
      (NoneFails (useChecks i c (memUse m 1) ++ scopeChecks i ++ [failIf (as.any (fun a => a.2 % n != 0)) 0x0462, failIf (as.any (fun a => decide (tkLimit c.task.d < a.2 + n))) 0x0463]))) := by and_intros <;> decide +kernel

theorem witness_RefusedCommands_1 : let s := ob; let c := cmdOf 0x00 [1]
       ((0x00, nopBody, Instr.nop) ∈ [(0x00, nopBody, Instr.nop), (0x01, queryBody, Instr.query), (0x02, sqConfigBody, Instr.sqConfig), (0x03, cqConfigBody, Instr.cqConfig),
       (0x04, eqConfigBody, Instr.eqConfig), (0x08, regReadBody, Instr.regRead), (0x09, regWriteBody, Instr.regWrite), (0x0A, cfgReadBody, Instr.cfgRead),
       (0x0B, cfgWriteBody, Instr.cfgWrite), (0x10, jobCreateBody, Instr.jobCreate), (0x11, jobDestroyBody, Instr.jobDestroy), (0x19, graphCancelBody, Instr.graphCancel),
       (0x1C, seqOpenBody, Instr.seqOpen), (0x1D, seqCloseBody, Instr.seqClose), (0x20, bufCreateBody, Instr.bufCreate), (0x21, bufFreeBody, Instr.bufFree),
       (0x24, regionArmBody, Instr.regionArm), (0x25, regionQuiesceBody, Instr.regionQuiesce), (0x26, regionReleaseBody, Instr.regionRelease),
       (0x40, coresStartBody, Instr.coresStart), (0x41, hostDieResetBody, Instr.hostDieReset), (0x48, dirReadBody, Instr.dirRead), (0x61, imageStageBody, Instr.imageStage),
       (0x62, imageActivateBody, Instr.imageActivate), (0x63, svnCommitBody, Instr.svnCommit), (0x64, measureReadBody, Instr.measureRead), (0x65, attestBody, Instr.attest),
       (0x70, partCreateBody, Instr.partCreate), (0x71, partDestroyBody, Instr.partDestroy), (0x72, spareSwapBody, Instr.spareSwap), (0x75, patternBody, Instr.pattern),
       (0x78, netConfigBody, Instr.netConfig), (0x79, qpConfigBody, Instr.qpConfig), (0x7B, imageFetchBody, Instr.imageFetch), (0x7C, xgroupBody, Instr.xgroupOpen),
       (0x80, capSetBody, Instr.capSet), (0x81, phaseReadBody, Instr.phaseRead), (0x82, phaseLoadBody, Instr.phaseLoad), (0x83, pwReadBody, Instr.pwRead),
       (0x88, logReadBody, Instr.errLogRead), (0x89, selfTestBody, Instr.selfTest), (0x8B, injectBody, Instr.errInject)] ∧
       Powered s ∧ cmdOpcode c.words = 0x00 ∧ flagSet s obStatusReady 0 = true ∧
       (s.ob.openCmds.find? (fun o => o.door == c.door && o.words == c.words && !o.started)) = none ∧
       s.ob.openCmds.length < 1024 ∧ recordsFit (ownRecord c.door c.words) s = true ∧
       mayStart (openOf c s) (takeCmd c.door c.words (ownRecord c.door c.words) s).2 = true ∧
       lowest [failIf (afterDestroy (openOf c s) (startedAt c s)) 0x0102, some (commonCode c.door c.words (ownRecord c.door c.words) (startedAt c s))] ≠ 0) :=
       ⟨List.Mem.head _, by decide +kernel⟩

theorem witness_RefusedCommands_2 : (0x00, Instr.nop) ∈ [(0x00, Instr.nop), (0x01, Instr.query), (0x02, Instr.sqConfig), (0x03, Instr.cqConfig),
       (0x04, Instr.eqConfig), (0x08, Instr.regRead), (0x09, Instr.regWrite), (0x0A, Instr.cfgRead),
       (0x0B, Instr.cfgWrite), (0x10, Instr.jobCreate), (0x11, Instr.jobDestroy), (0x19, Instr.graphCancel),
       (0x1C, Instr.seqOpen), (0x1D, Instr.seqClose), (0x20, Instr.bufCreate), (0x21, Instr.bufFree),
       (0x24, Instr.regionArm), (0x25, Instr.regionQuiesce), (0x26, Instr.regionRelease),
       (0x40, Instr.coresStart), (0x41, Instr.hostDieReset), (0x48, Instr.dirRead), (0x61, Instr.imageStage),
       (0x62, Instr.imageActivate), (0x63, Instr.svnCommit), (0x64, Instr.measureRead), (0x65, Instr.attest),
       (0x70, Instr.partCreate), (0x71, Instr.partDestroy), (0x72, Instr.spareSwap), (0x75, Instr.pattern),
       (0x78, Instr.netConfig), (0x79, Instr.qpConfig), (0x7B, Instr.imageFetch), (0x7C, Instr.xgroupOpen),
       (0x80, Instr.capSet), (0x81, Instr.phaseRead), (0x82, Instr.phaseLoad), (0x83, Instr.pwRead),
       (0x88, Instr.errLogRead), (0x89, Instr.selfTest), (0x8B, Instr.errInject)] ∧ Powered up ∧ flagSet up obStatusReady 0 = false := ⟨List.Mem.head _, by decide +kernel⟩

/-- What `Obligations.InterleaveInverts` assumes can hold. -/
theorem witness_InterleaveInverts :
    (let pa : Nat := 0x3A5C6D40
     (pa < 2 ^ 41)) ∧
    (let pa : Nat := 0x3A5C6D40
     let qa : Nat := 0x3A5C6D5F
     (pa < 2 ^ 41) ∧
      (qa < 2 ^ 41) ∧
      (homeOf pa = homeOf qa ∧ locWord pa = locWord qa)) := by and_intros <;> decide +kernel

/-- What `Obligations.RoutesAndPaths` assumes can hold. -/
theorem witness_RoutesAndPaths :
    (let spare : Fin 9 := 3
     let a : Fin 9 × Fin 4 × Fin 4 := (2, 0, 3)
     let b : Fin 9 × Fin 4 × Fin 4 := (8, 3, 1)
     (a.1 ≠ spare ∧ b.1 ≠ spare)) ∧
    (let spare : Fin 9 := 3
     let p : Fin 9 := 2
     let q : Fin 9 := 8
     (p ≠ spare ∧ q ≠ spare)) ∧
    (let s : State := up
     let a : Nat := 0
     let b : Nat := 8
     let l : Nat := 0
     (linkJoining a b = some l ∧ linkCarries s l = true)) ∧
    (let s : State := up
     let a : Fin 28 := 1
     let b : Fin 28 := 27
     ((linkJoining a b).filter (linkCarries s) = none)) ∧
    (let s : State := up
     let p : EthNo := 0
     let waiting : List NetClass := [.host, .coll]
     let c : NetClass := .coll
     (nextClass s p waiting = some c)) ∧
    (let s : State := up
     let p : EthNo := 0
     let waiting : List NetClass := [.host, .ctrl]
     (NetClass.ctrl ∈ waiting) ∧
      (classSent s p 0 * 50 ≤ classSent s p 0 + classSent s p 1 + classSent s p 2 + classSent s p 3 + classSent s p 4)) := by and_intros <;> decide +kernel

/-- What `Obligations.CoreFloatingPoint` assumes can hold. -/
theorem witness_CoreFloatingPoint :
    (let s : State := up
     let h : Nat := 3
     let rm : Nat := 7
     let x := hart s h
     let mode : RMode := .rne
     (coreMode x.fcsr rm = some mode)) := by decide +kernel
end

section
/-! PROOFS. Device memory as bytes and numbers, poison by sectors: one law for each operation, then O43. -/
namespace Sys2Proof.Machine

/-! ## Device memory after a command's writes -/

/-- A write puts its own byte, or zero, over what memory held. -/
theorem memGet_op (o : MemOp) {m : List Host.Cell} (h : memWf m = true) (a : Nat) :
    memGet (memOp o m) a = (wqGet [o] a).getD (memGet m a) := by
  cases o with
  | put j b =>
    simp only [memOp, memGet_put h, wqGet]
    split <;> rfl
  | zero j n =>
    simp only [memOp, memGet_zero h, wqGet]
    split <;> rfl

/-- The newest write answers first. -/
theorem wqGet_cons (o : MemOp) (w : List MemOp) (a : Nat) : wqGet (o :: w) a = (wqGet [o] a).or (wqGet w a) := by
  cases o <;> simp only [wqGet] <;> split <;> rfl

theorem memGet_commit (w : List MemOp) {m : List Host.Cell} (h : memWf m = true) (a : Nat) :
    memGet (memCommit w m) a = (wqGet w a).getD (memGet m a) := by
  induction w with
  | nil => rfl
  | cons o w ih =>
    calc memGet (memCommit (o :: w) m) a
        = (wqGet [o] a).getD (memGet (memCommit w m) a) := memGet_op o (memWf_commit h) a
      _ = (wqGet (o :: w) a).getD (memGet m a) := by
          rw [ih, wqGet_cons o w]
          cases wqGet [o] a <;> rfl

theorem memGet_head (j : Nat) (b : Byte) (t : List Host.Cell) : memGet ((j, b) :: t) j = b := by simp [memGet]

/-- Below its first address a canonical memory reads zero. -/
theorem memGet_before {j k : Nat} {c : Byte} {t : List Host.Cell} (h : memWf ((k, c) :: t) = true) (hjk : j < k) :
    memGet ((k, c) :: t) j = 0 := by
  obtain ⟨_, habove, _⟩ := memWf_cons.mp h
  exact memGet_above (memAbove_cons.mpr ⟨hjk, memAbove_mono hjk habove⟩) (Nat.le_refl j)

/-- The tails of two canonical memories with the same first address read alike where the memories do. -/
theorem memGet_tail_congr {j : Nat} {b c : Byte} {t u : List Host.Cell} (ht : memAbove j t) (hu : memAbove j u)
    (h : ∀ a, memGet ((j, b) :: t) a = memGet ((j, c) :: u) a) (a : Nat) : memGet t a = memGet u a := by
  by_cases ha : a ≤ j
  · rw [memGet_above ht ha, memGet_above hu ha]
  · simpa [memGet, show j ≠ a by omega] using h a

/-- Canonical form is canonical: memories that read alike are equal. -/
theorem memWf_ext {m n : List Host.Cell} (hm : memWf m = true) (hn : memWf n = true)
    (h : ∀ a, memGet m a = memGet n a) : m = n := by
  induction m generalizing n with
  | nil =>
    cases n with
    | nil => rfl
    | cons d u =>
      obtain ⟨k, c⟩ := d
      exact absurd ((memGet_head k c u).symm.trans (h k).symm) (memWf_cons.mp hn).1
  | cons d t ih =>
    obtain ⟨j, b⟩ := d
    obtain ⟨hb, hjt, ht⟩ := memWf_cons.mp hm
    cases n with
    | nil => exact absurd ((memGet_head j b t).symm.trans (h j)) hb
    | cons e u =>
      obtain ⟨k, c⟩ := e
      obtain ⟨hc, hku, hu⟩ := memWf_cons.mp hn
      rcases Nat.lt_trichotomy j k with hjk | rfl | hkj
      · exact absurd (((memGet_head j b t).symm.trans (h j)).trans (memGet_before hn hjk)) hb
      · have hbc : b = c := by simpa [memGet_head] using h j
        rw [hbc, ih ht hu (memGet_tail_congr hjt hku h)]
      · exact absurd (((memGet_head k c u).symm.trans (h k).symm).trans (memGet_before hm hkj)) hc

/-! ## Numbers in memory -/

/-- The last byte of a number is written last, unless its address is dead. -/
theorem writeNum_wq_succ (a n v : Nat) (s : State) :
    (writeNum a (n + 1) v s).wq =
      if deadAddr s (a + n) then (writeNum a n v s).wq
      else .put (a + n) (BitVec.ofNat 8 (v >>> (8 * n))) :: (writeNum a n v s).wq := by
  simp only [writeNum, unpoison_wq, List.range_succ, List.filterMap_append, List.reverse_append, List.filterMap_cons,
    List.filterMap_nil]
  cases deadAddr s (a + n) <;> rfl

theorem wqGet_writeNum (a n v x : Nat) (s : State) :
    wqGet (writeNum a n v s).wq x =
      if a ≤ x ∧ x < a + n ∧ deadAddr s x = false then some (BitVec.ofNat 8 (v >>> (8 * (x - a)))) else wqGet s.wq x := by
  induction n with
  | zero => rw [if_neg (by omega)]; rfl
  | succ n ih =>
    rw [writeNum_wq_succ]
    by_cases hx : x = a + n
    · subst hx
      rw [if_neg (by omega)] at ih
      cases hd : deadAddr s (a + n) <;> simp [wqGet, ih]
    · have hrange : x < a + n ↔ x < a + (n + 1) := by omega
      simp only [hrange] at ih
      split
      · exact ih
      · rw [wqGet, if_neg (Ne.symm hx), ih]

theorem readByte_writeNum (a n v x : Nat) (s : State) :
    readByte (writeNum a n v s) x =
      if a ≤ x ∧ x < a + n ∧ deadAddr s x = false then BitVec.ofNat 8 (v >>> (8 * (x - a))) else readByte s x := by
  simp only [readByte, wqGet_writeNum, writeNum_mem]
  split <;> rfl

theorem readByte_zeroMem (a n x : Nat) (s : State) :
    readByte (zeroMem a n s) x = if a ≤ x ∧ x < a + n then 0 else readByte s x := by
  simp only [readByte, zeroMem_wq, zeroMem_mem, wqGet]
  split <;> rfl

/-- Bytes that are the places of a number, in little-endian order, read as that number. -/
theorem readNum_of_bytes {s : State} {a n v : Nat}
    (h : ∀ i, i < n → readByte s (a + i) = BitVec.ofNat 8 (v >>> (8 * i))) : readNum s a n = v % 256 ^ n := by
  induction n with
  | zero => simp [readNum, Nat.mod_one]
  | succ n ih =>
    have hlow : readNum s a n = v % 256 ^ n := ih fun i hi => h i (by omega)
    have hplace : (readByte s (a + n)).toNat = v / 256 ^ n % 256 := by
      rw [h n (by omega), BitVec.toNat_ofNat, Nat.shiftRight_eq_div_pow, Nat.pow_mul]
    rw [readNum, hlow, hplace, Nat.mod_pow_succ, Nat.mul_comm]

theorem readNum_writeNum {s : State} {a n : Nat} (v : Nat) (h : ∀ i, i < n → deadAddr s (a + i) = false) :
    readNum (writeNum a n v s) a n = v % 256 ^ n :=
  readNum_of_bytes fun i hi => by
    rw [readByte_writeNum, if_pos ⟨by omega, by omega, h i hi⟩, Nat.add_sub_cancel_left]

/-! ## Poison by sectors -/

theorem mem_setAdd (l : List Nat) (j k : Nat) : k ∈ setAdd l j ↔ k ∈ l ∨ k = j := by
  induction l with
  | nil => simp [setAdd]
  | cons x t ih =>
    simp only [setAdd]
    split
    · rw [List.mem_cons, or_comm]
    · split
      · rename_i hjx
        exact (or_iff_left_of_imp fun hk => hk.trans hjx ▸ List.mem_cons_self).symm
      · simp only [List.mem_cons, ih, or_assoc]

theorem mem_foldl_setAdd (js l : List Nat) (k : Nat) : k ∈ js.foldl setAdd l ↔ k ∈ l ∨ k ∈ js := by
  induction js generalizing l with
  | nil => simp
  | cons j t ih => simp only [List.foldl_cons, ih, mem_setAdd, List.mem_cons, or_assoc]

theorem mem_span (a n k : Nat) : k ∈ span a n ↔ a ≤ k ∧ k < a + n := by
  simp only [span, List.mem_map, List.mem_range]
  exact ⟨fun ⟨i, hi, hk⟩ => by omega, fun ⟨hl, hr⟩ => ⟨k - a, by omega, by omega⟩⟩

/-- The sectors a range touches are those it meets. -/
theorem mem_sectorsOf (a n k : Nat) : k ∈ sectorsOf a n ↔ 0 < n ∧ a < 32 * k + 32 ∧ 32 * k < a + n := by
  unfold sectorsOf
  split
  · simp only [List.not_mem_nil, false_iff]
    omega
  · rw [mem_span]
    omega

theorem mem_poisonRange (a n k : Nat) (s : State) :
    k ∈ (poisonRange a n s).poison ↔ k ∈ s.poison ∨ (0 < n ∧ a < 32 * k + 32 ∧ 32 * k < a + n) := by
  rw [poisonRange_poison, mem_foldl_setAdd, mem_sectorsOf]

theorem mem_unpoison (a n k : Nat) (s : State) :
    k ∈ (unpoison a n s).poison ↔ k ∈ s.poison ∧ ¬ (a ≤ 32 * k ∧ 32 * k + 32 ≤ a + n ∧ deadAddr s (32 * k) = false) := by
  simp only [unpoison_poison, List.mem_filter, Bool.not_eq_true', ← Bool.not_eq_true, Bool.and_eq_true, decide_eq_true_eq,
    and_assoc]

/-- What poison a number written ends: a dead address does not depend on the writes that wait. -/
theorem mem_writeNum_poison (a n k v : Nat) (s : State) :
    k ∈ (writeNum a n v s).poison ↔
      k ∈ s.poison ∧ ¬ (a ≤ 32 * k ∧ 32 * k + 32 ≤ a + n ∧ deadAddr s (32 * k) = false) := by
  rw [writeNum, mem_unpoison]
  rfl

/-- With every row and every home in service a range reads poison by its sectors alone. -/
theorem poisoned_in_service {s : State} (hh : s.lostHomes = []) (hr : s.retired = []) (a n : Nat) :
    poisoned s a n = true ↔ ∃ k ∈ s.poison, a < 32 * k + 32 ∧ 32 * k < a + n := by
  simp [poisoned, hh, hr]

end Sys2Proof.Machine

namespace Sys2Proof

open Sys2Proof.Machine

/-- Settles O43: the law of each operation over memory and poison. -/
theorem memoryAndPoison : Obligations.MemoryAndPoison := by
  intro s
  exact ⟨fun w m a hm => ⟨memWf_commit hm, memGet_commit w hm a⟩,
    fun m n ⟨hm, hn⟩ h => memWf_ext hm hn h,
    fun a n v x => readByte_writeNum a n v x s,
    fun a n v h => readNum_writeNum v h,
    fun a n x => readByte_zeroMem a n x s,
    fun a n k => mem_poisonRange a n k s,
    fun a n k v => mem_writeNum_poison a n k v s,
    fun a n ⟨_, hh, hr⟩ => poisoned_in_service hh hr a n⟩

end Sys2Proof
end

section
/-! PROOFS. Registers as fields of bits: what a field written leaves in every bit of every register, then O44. -/
namespace Sys2Proof.Machine

/-! ## Bit fields -/

theorem testBit_bitsOf (v hi lo i : Nat) :
    (bitsOf v hi lo).testBit i = (decide (i < hi + 1 - lo) && v.testBit (lo + i)) := by
  rw [bitsOf, Nat.testBit_mod_two_pow, Nat.testBit_shiftRight]

/-- Taking the middle part out of a number of three parts and putting another in. -/
theorem replace_middle (a b m x r : Nat) : a * (b + m) + r - m * a + x * a = a * (b + x) + r := by
  rw [Nat.mul_add, Nat.mul_add, Nat.mul_comm m, Nat.mul_comm x]
  omega

/-- A word in three parts: the bits below a field of `w` bits at `lo`, the field, the bits above. -/
theorem word_parts (v lo w : Nat) : 2 ^ lo * (2 ^ w * (v >>> (lo + w)) + (v >>> lo) % 2 ^ w) + v % 2 ^ lo = v := by
  have hupper : 2 ^ w * (v >>> (lo + w)) + (v >>> lo) % 2 ^ w = v >>> lo := by
    rw [Nat.shiftRight_add, Nat.shiftRight_eq_div_pow (v >>> lo), Nat.div_add_mod]
  rw [hupper, Nat.shiftRight_eq_div_pow, Nat.div_add_mod]

/-- A word with a field replaced: the bits below and above are the word's. -/
theorem withBits_eq (v hi lo x : Nat) :
    withBits v hi lo x =
      2 ^ lo * (2 ^ (hi + 1 - lo) * (v >>> (lo + (hi + 1 - lo))) + x % 2 ^ (hi + 1 - lo)) + v % 2 ^ lo := by
  rw [← replace_middle _ _ ((v >>> lo) % 2 ^ (hi + 1 - lo)), word_parts, withBits]

theorem testBit_withBits (v hi lo x i : Nat) :
    (withBits v hi lo x).testBit i = if lo ≤ i ∧ i ≤ hi then x.testBit (i - lo) else v.testBit i := by
  rw [withBits_eq, Nat.testBit_two_pow_mul_add _ (Nat.mod_lt _ (Nat.two_pow_pos lo)),
    Nat.testBit_two_pow_mul_add _ (Nat.mod_lt _ (Nat.two_pow_pos _)), Nat.testBit_mod_two_pow, Nat.testBit_mod_two_pow,
    Nat.testBit_shiftRight]
  by_cases hbelow : i < lo
  · simp [hbelow, show ¬ lo ≤ i by omega]
  · by_cases hin : i - lo < hi + 1 - lo
    · simp [hbelow, hin, show lo ≤ i ∧ i ≤ hi by omega]
    · have hplace : lo + (hi + 1 - lo) + (i - lo - (hi + 1 - lo)) = i := by omega
      simp [hbelow, hin, show ¬ (lo ≤ i ∧ i ≤ hi) by omega, hplace]

/-! ## Registers by their keys -/

/-- What is put under a key leaves every other key as it was. -/
theorem tget_tput_other {α : Type} (t : Table α) {j k : Nat} (a : α) (h : k ≠ j) : tget (tput t k a) j = tget t j := by
  induction t with
  | nil => simp [tput, tget, h]
  | cons e t ih =>
    obtain ⟨i, b⟩ := e
    rcases Nat.lt_trichotomy k i with hki | rfl | hik
    · simp [tput, tget, hki, h]
    · simp [tput, tget, h]
    · simp [tput, tget, show ¬ k < i by omega, show k ≠ i by omega, ih]

/-- Table CF-11 names each register by its own REG_ID. -/
theorem regOfId_regId (r : Reg) : regOfId (regId r) = some r := by cases r <;> rfl

theorem regId_inj {q r : Reg} (h : regId q = regId r) : q = r :=
  Option.some.inj ((regOfId_regId q).symm.trans ((congrArg regOfId h).trans (regOfId_regId r)))

/-- A unit number below 65,536 leaves room for the register in the key. -/
theorem regKey_inj {q r : Reg} {u v : Nat} (hu : u < 65536) (hv : v < 65536) (h : regKey q u = regKey r v) :
    q = r ∧ u = v := by
  unfold regKey at h
  exact ⟨regId_inj (by omega), by omega⟩

theorem regRaw_setRegRaw_same (r : Reg) (u v : Nat) (s : State) : regRaw (setRegRaw r u v s) r u = v % 2 ^ 128 := by
  simp only [regRaw, setRegRaw_regs, tget_tput_self, BitVec.toNat_ofNat]

theorem regRaw_setRegRaw_other {q r : Reg} {u w : Nat} (v : Nat) (s : State) (h : regKey q u ≠ regKey r w) :
    regRaw (setRegRaw q u v s) r w = regRaw s r w := by
  simp only [regRaw, setRegRaw_regs, tget_tput_other _ _ h]

/-! ## Fields -/

theorem testBit_getF (s : State) (f : Field) (u i : Nat) :
    (getF s f u).testBit i = (decide (i < f.hi + 1 - f.lo) && (regRaw s f.reg u).testBit (f.lo + i)) :=
  testBit_bitsOf _ _ _ _

/-- A field written changes the bits of the field alone, in a register of 128 bits. -/
theorem testBit_regRaw_setF {i : Nat} (f : Field) (u x : Nat) (s : State) (hi : i < 128) :
    (regRaw (setF f u x s) f.reg u).testBit i =
      if f.lo ≤ i ∧ i ≤ f.hi then x.testBit (i - f.lo) else (regRaw s f.reg u).testBit i := by
  rw [setF, regRaw_setRegRaw_same, Nat.testBit_mod_two_pow, testBit_withBits]
  simp [hi]

theorem getF_setF_same {f : Field} (hf : f.hi < 128) (u x : Nat) (s : State) :
    getF (setF f u x s) f u = x % 2 ^ (f.hi + 1 - f.lo) := by
  refine Nat.eq_of_testBit_eq fun i => ?_
  rw [testBit_getF, Nat.testBit_mod_two_pow]
  by_cases hi : i < f.hi + 1 - f.lo
  · rw [testBit_regRaw_setF f u x s (by omega), if_pos (by omega), Nat.add_sub_cancel_left]
  · simp [hi]

theorem getF_setF_disjoint {f g : Field} (hg : g.hi < 128) (hreg : f.reg = g.reg) (hmeet : f.hi < g.lo ∨ g.hi < f.lo)
    (u x : Nat) (s : State) : getF (setF f u x s) g u = getF s g u := by
  refine Nat.eq_of_testBit_eq fun i => ?_
  rw [testBit_getF, testBit_getF]
  by_cases hi : i < g.hi + 1 - g.lo
  · rw [← hreg, testBit_regRaw_setF f u x s (by omega), if_neg (by omega)]
  · simp [hi]

theorem getF_setF_other {f g : Field} {u v : Nat} (hu : u < 65536) (hv : v < 65536) (h : f.reg ≠ g.reg ∨ u ≠ v) (x : Nat)
    (s : State) : getF (setF f u x s) g v = getF s g v := by
  have hkey : regKey f.reg u ≠ regKey g.reg v := fun hk =>
    have ⟨hr, huv⟩ := regKey_inj hu hv hk
    h.elim (· hr) (· huv)
  rw [getF, setF, regRaw_setRegRaw_other _ s hkey, getF]

/-- Two fields apart, by their registers or by their bits: writing one leaves the other. -/
theorem getF_setF_apart {f g : Field} {u : Nat} (hg : g.hi < 128) (hu : u < 65536)
    (h : f.reg ≠ g.reg ∨ f.hi < g.lo ∨ g.hi < f.lo) (x : Nat) (s : State) :
    getF (setF f u x s) g u = getF s g u := by
  by_cases hreg : f.reg = g.reg
  · exact getF_setF_disjoint hg hreg (h.resolve_left (· hreg)) u x s
  · exact getF_setF_other hu hu (.inl hreg) x s

/-- A saturating counter never passes the largest value of its field. -/
theorem getF_bumpSat {f : Field} (hf : f.hi < 128) (u n : Nat) (s : State) :
    getF (bumpSat f u n s) f u = min (getF s f u + n) (fieldMax f) := by
  have hpos : 0 < 2 ^ (f.hi + 1 - f.lo) := Nat.two_pow_pos _
  have hmax : fieldMax f < 2 ^ (f.hi + 1 - f.lo) := Nat.sub_lt hpos Nat.one_pos
  rw [bumpSat, getF_setF_same hf, Nat.mod_eq_of_lt (Nat.lt_of_le_of_lt (Nat.min_le_right _ _) hmax)]

theorem getF_raise_flag {f g : Field} {u : Nat} (hf : f.lo ≤ f.hi) (hf' : f.hi < 128) (hu : u < 65536)
    (h : f.reg ≠ g.reg ∨ f.hi < g.lo ∨ g.hi < f.lo) (s : State) : getF (raise ⟨f, g⟩ u s) f u = 1 := by
  have hback : g.reg ≠ f.reg ∨ g.hi < f.lo ∨ f.hi < g.lo := h.imp Ne.symm Or.symm
  rw [raise, bumpSat, getF_setF_apart hf' hu hback, getF_setF_same hf',
    Nat.mod_eq_of_lt (Nat.one_lt_two_pow (by omega))]

theorem getF_raise_count {f g : Field} {u : Nat} (hg : g.hi < 128) (hu : u < 65536)
    (h : f.reg ≠ g.reg ∨ f.hi < g.lo ∨ g.hi < f.lo) (s : State) :
    getF (raise ⟨f, g⟩ u s) g u = min (getF s g u + 1) (fieldMax g) := by
  rw [raise, getF_bumpSat hg, getF_setF_apart hg hu h]

end Sys2Proof.Machine

namespace Sys2Proof

open Sys2Proof.Machine

/-- Settles O44: a field written changes its own bits alone, and registers are apart by their keys. -/
theorem registerFields : Obligations.RegisterFields := by
  intro s f g u v x
  exact ⟨fun ⟨_, hf⟩ => getF_setF_same hf u x s,
    fun ⟨_, _, _, hg⟩ ⟨hreg, hmeet⟩ => getF_setF_disjoint hg hreg hmeet u x s,
    fun ⟨hu, hv⟩ h => getF_setF_other hu hv h x s,
    fun ⟨hf, hf', _, hg, hu⟩ h => ⟨getF_raise_flag hf hf' hu h s, getF_raise_count hg hu h s⟩⟩

end Sys2Proof
end

section
/-! PROOFS. What a wrapper leaves where its effect is known, and what a step does with no command waiting; then O39. -/
namespace Sys2Proof

open Sys2Proof.Machine

theorem happens_leaves {s t u : State} (hp : Powered s) (h : t = u) : happens s t = .next (leftEvent s u) :=
  h ▸ happens_powered hp

theorem onPackage_leaves {f : State → State} {s u : State} (hr : Running s) (h : f s = u) :
    onPackage f s = .next (leftEvent s u) :=
  h ▸ onPackage_runs hr

theorem onPin_leaves_of_eq {f : State → State} {s u : State} (h : f s = u) : onPin f s = .next (leftPin s u) :=
  h ▸ onPin_leaves

theorem onTuft_leaves {f : State → State} {t : TuftNo} {s u : State} (hr : TuftRuns s t.val) (h : f s = u) :
    onTuft t f s = .next (left s u) :=
  h ▸ onTuft_up hr

theorem onSward_leaves {f : State → State} {w : SwardNo} {s u : State} (hr : DieRuns s (w.val / 16)) (h : f s = u) :
    onSward w f s = .next (left s u) :=
  h ▸ onSward_up hr

end Sys2Proof

namespace Sys2Proof.Machine

/-- The end of a command whose effect writes nothing and leaves memory and the queue is the effect itself. -/
theorem finish_of_no_write {s t : State} (hq : t.pending = s.pending) (hm : t.mem = s.mem) (hw : t.wq = []) :
    finish s t = .next t := by
  have hcommit : memCommit t.wq s.mem = t.mem := by rw [hw, hm]; rfl
  rw [finish, hcommit, ← hq, ← hw]

theorem exec_leaves_queue (c : Instr) (s : State) : ∃ t, exec c s = .next t ∧ t.pending = s.pending ∧ t.wq = [] := by
  obtain ⟨t, ht⟩ := exec_ends c s
  exact ⟨leftBare s t, ht.trans (finish_eq s t), rfl, rfl⟩

/-- The package timer counts while its reference is locked or its backup runs (R36, R41). -/
theorem timerTick_counts {s : State} (h : flagSet s timerStatusLocked 0 = true ∨ flagSet s timerStatusBackup 0 = true) :
    timerTick s = { s with timer := copiesTick { s.timer with master := s.timer.master + 1 } } :=
  if_pos (by rwa [Bool.or_eq_true])

theorem timerTick_stands {s : State} (hl : flagSet s timerStatusLocked 0 = false)
    (hb : flagSet s timerStatusBackup 0 = false) : timerTick s = s :=
  if_neg (by simp [hl, hb])

theorem step_of_empty {s : State} (h : s.pending = []) : step s = idle s := by
  rw [step, h]

theorem idle_counts {s : State} (hw : s.wq = []) (hi : s.elec.input = true)
    (h : flagSet s timerStatusLocked 0 = true ∨ flagSet s timerStatusBackup 0 = true) :
    idle s = .next { s with timer := copiesTick { s.timer with master := s.timer.master + 1 } } := by
  rw [idle, if_pos hi, timerTick_counts h]
  exact finish_of_no_write rfl rfl hw

theorem idle_stands {s : State} (hw : s.wq = [])
    (h : s.elec.input = false ∨ (flagSet s timerStatusLocked 0 = false ∧ flagSet s timerStatusBackup 0 = false)) :
    idle s = .next s := by
  have hsame : (if s.elec.input then timerTick s else s) = s := by
    obtain hoff | ⟨hl, hb⟩ := h
    · rw [hoff]; rfl
    · rw [timerTick_stands hl hb, ite_self]
  rw [idle, hsame, finish_of_no_write rfl rfl hw]

end Sys2Proof.Machine

namespace Sys2Proof

open Sys2Proof.Machine

/-- Settles O39: a command waiting is run on the rest of the queue; with none the step is that of the package timer alone. -/
theorem stepRunsTheFrontCommand : Obligations.StepRunsTheFrontCommand := by
  intro s
  refine ⟨fun c rest => rfl, fun c => exec_leaves_queue c s, ?counts, ?stands⟩
  case counts =>
    rintro ⟨hq, hw, hi⟩ hclock
    exact (step_of_empty hq).trans (idle_counts hw hi hclock)
  case stands =>
    rintro ⟨hq, hw⟩ hclock
    exact (step_of_empty hq).trans (idle_stands hw hclock)

end Sys2Proof
end

section
/-! PROOFS. The package timer's events, the Loam's links and rings, and dies that leave: each effect case by case, then O33. -/
namespace Sys2Proof.Machine

/-! ## The package timer (R38, R41) -/

theorem pllLost_locked {s : State} (h : flagSet s timerStatusLocked 0 = true) :
    pllLost s = writeErr { level := lvPackage, unit := 26, reason := 0x0A10, cls := 0x0B, verdict := vLasting } none
      (raise flTimerStatusBackupEvent 0 (setF timerStatusBackup 0 1 (setF timerStatusLocked 0 0 s))) :=
  if_neg (by simp [h])

/-! ## Frames (R459) -/

/-- A good frame that is new is held with its stamp, and the stamp raises the receiver's floor. -/
theorem frameReceive_new {l frame src : Nat} {ba : Bool} {s : State} (hl : linkCarries s l = true)
    (hmove : (loamLink s l).move = none)
    (hnew : (loamLink s l).buf.find? (fun e => e.1 == bit ba && e.2.1 == frame) = none)
    (hroom : ((loamLink s l).buf.filter (fun e => e.1 == bit ba)).length < 64) :
    frameReceive l ba frame src true s =
      loamStamp (loamStampOf s src) (frameTo l ba)
        (loamMod l (fun y => { y with buf := y.buf ++ [(bit ba, frame, loamStampOf s src)] }) s) := by
  have htaken : (!linkCarries s l || ((none : Option (Nat × Nat × Nat)).isNone &&
      (decide (64 ≤ ((loamLink s l).buf.filter (fun e => e.1 == bit ba)).length) || (loamLink s l).move.isSome))) = false := by
    simp [hl, hmove, hroom]
  unfold frameReceive
  simp only [hnew, htaken]
  rfl

theorem frameReplay_held {l frame : Nat} {ba : Bool} {s : State}
    (hheld : (loamLink s l).buf.any (fun e => e.1 == bit ba && e.2.1 == frame) = true) (hl : linkCarries s l = true) :
    frameReplay l ba frame s = bump ddLinkStatusReplays l 1 s :=
  if_pos (by rw [hheld, hl]; rfl)

/-! ## Lanes and links (R463, R464) -/

/-- The first lane that fails on a link at rest starts the link's move and is recorded. -/
theorem loamLaneError_first {l lane : Nat} {ba : Bool} {s : State} (hl : linkCarries s l = true)
    (hdeg : (loamLink s l).degraded = false) (hgone : (loamLink s l).gone.contains (laneKey ba lane) = false)
    (htests : (loamLink s l).tests = []) (hmove : (loamLink s l).move = none) :
    loamLaneError l ba lane s =
      pendErr { level := lvPackage, unit := 28, subunit := l, reason := 0x0A01, cls := 0x05, detail := laneKey ba lane }
        (raise flDdLinkStatusLaneErr l (setF ddLinkStatusState l 1
          (loamMod l (fun y => { y with tests := y.tests ++ [laneKey ba lane], move := if y.optical then y.move else some true }) s))) :=
  (if_neg (by simp only [hl, hdeg, hgone, htests]; exact Bool.false_ne_true)).trans (if_neg (by simp [htests, hmove]))

theorem loamLaneTest_fails {l lane : Nat} {ba : Bool} {s : State} (hhead : (loamLink s l).tests.head? = some (laneKey ba lane))
    (hopt : (loamLink s l).optical = true) (hmove : (loamLink s l).move = none) (hl : linkCarries s l = true) :
    loamLaneTest l ba lane false s =
      laneGone l (laneKey ba lane) false (bump reCountsTests 0 1 (loamMod l (fun y => { y with tests := y.tests.drop 1 }) s)) :=
  (if_neg (by simp [hhead, hopt, hmove, hl])).trans (if_pos rfl)

theorem moveComplete_to_optical {l : Nat} {s : State} (hmove : (loamLink s l).move = some true) (hbuf : (loamLink s l).buf = []) :
    moveComplete l s = loamMod l (fun y => { y with move := none, optical := true }) s := by
  simp only [moveComplete, hmove, hbuf]
  rfl

theorem moveComplete_back {l : Nat} {s : State} (hmove : (loamLink s l).move = some false) (hbuf : (loamLink s l).buf = [])
    (htests : (loamLink s l).tests = []) :
    moveComplete l s = setF ddLinkStatusState l 0 (loamMod l (fun y => { y with move := none, optical := false }) s) := by
  simp only [moveComplete, hmove, hbuf, htests]
  rfl

/-! ## Optical channels and lasers (R465) -/

theorem channelError_tests {r d ch : Nat} {s : State} (hch : ch < stopChannels d + 2)
    (hstop : (getF s ddRingStatusStopUp r).testBit d = true) (hring : flagSet s ddRingStatusLost r = false)
    (hfailed : (loamRing s r).failed.contains (chanKey d ch) = false)
    (htests : (loamRing s r).tests.contains (chanKey d ch) = false) :
    channelError r d ch s = ringMod r (fun y => { y with tests := y.tests ++ [chanKey d ch] }) s :=
  if_neg (by simp only [hstop, hring, hfailed, htests, Nat.not_le.mpr hch]; decide)

/-- A channel whose test has ended: the test is counted and no longer waits. -/
def channelTested (r d ch : Nat) (s : State) : State :=
  bump reCountsTests 0 1 (ringMod r (fun y => { y with tests := y.tests.filter (· != chanKey d ch) }) s)

/-- A channel that failed its test: counted among the failed channels of its ring. -/
def channelFailed (r d ch : Nat) (s : State) : State :=
  raise flDdRingStatusChanFail r (ringMod r (fun y => { y with failed := setAdd y.failed (chanKey d ch) }) (channelTested r d ch s))

theorem channelTest_passes {r d ch : Nat} {s : State} (h : (loamRing s r).tests.contains (chanKey d ch) = true) :
    channelTest r d ch true s = channelTested r d ch s :=
  (if_neg (by rw [h]; exact Bool.false_ne_true)).trans (if_pos rfl)

theorem channelTest_to_spare {r d ch : Nat} {s : State} (h : (loamRing s r).tests.contains (chanKey d ch) = true)
    (hspare : failedAt (channelFailed r d ch s) r d ≤ 2) :
    channelTest r d ch false s = ringRec r d 0x0A04 true ch (channelFailed r d ch s) :=
  (if_neg (by rw [h]; exact Bool.false_ne_true)).trans ((if_neg Bool.false_ne_true).trans (if_pos hspare))

/-- A laser fails on a ring that is not lost: the spare laser takes over, or the ring on its spare is lost. -/
theorem laserFail_in_service {r : Nat} {s : State} (h : flagSet s ddRingStatusLost r = false) :
    laserFail r s =
      if flagSet s ddRingStatusOnSpare r then reachCheck (ringRec r 0xFFFF 0x0A05 false 0 (setF ddRingStatusLost r 1 s))
      else ringRec r 0xFFFF 0x0A04 true 0 (raise flDdRingStatusLaserSwap r (setF ddRingStatusOnSpare r 1 s)) := by
  rw [laserFail, h, if_neg Bool.false_ne_true]
  cases flagSet s ddRingStatusOnSpare r <;> rfl

/-! ## Dies that leave (R303, R469) -/

theorem dieDown_at_home {h d a stamp : Nat} {s : State} (hh : h < 16)
    (hfind : s.loam.down.find? (fun e => e.1 == h && e.2.1 == d) = some (h, d, stamp)) (hport : portOfDie d = some a) :
    dieDown h d s =
      agentLeavesAt h a (loamStamp stamp (8 + h) { s with loam.down := s.loam.down.erase (h, d, stamp) }) := by
  simp only [dieDown, hfind, hh, if_true, hport]

theorem dieDown_at_cp {d stamp : Nat} {s : State}
    (hfind : s.loam.down.find? (fun e => e.1 == 16 && e.2.1 == d) = some (16, d, stamp)) :
    dieDown 16 d s = cpRule d (loamStamp stamp 26 { s with loam.down := s.loam.down.erase (16, d, stamp) }) := by
  simp only [dieDown, hfind]
  rfl

end Sys2Proof.Machine

namespace Sys2Proof

open Sys2Proof.Machine

/-- Settles O33: each event's effect under its conditions, in the order of R41, R38, R459, R463–R465, R469, R303 and R472. -/
theorem loamAndRings : Obligations.LoamAndRings := by
  intro s hp
  refine ⟨?pll, ?sync, ?receive, ?ack, ?replay, ?laneError, ?laneTest, ?toOptical, ?back, ?channelError, ?channelPasses,
    ?channelFails, ?laser, ?phy, ?downHome, ?downCp, ?west⟩
  case pll =>
    exact fun hl => happens_leaves hp (pllLost_locked hl)
  case sync =>
    exact fun d drift ⟨hd, h26⟩ => happens_leaves hp ((if_pos hd).trans (if_neg h26))
  case receive =>
    exact fun l ba frame src hm ⟨hl, hmove⟩ ⟨hnew, hroom⟩ =>
      onPackage_leaves ⟨hp, hm⟩ (frameReceive_new hl hmove hnew hroom)
  case ack =>
    exact fun l ba frame hm => onPackage_runs ⟨hp, hm⟩
  case replay =>
    exact fun l ba frame hm ⟨hheld, hl⟩ =>
      onPackage_leaves ⟨hp, hm⟩ (frameReplay_held hheld hl)
  case laneError =>
    intro i l ba lane _ _ _ _ hi hm ⟨hl, hdeg, hgone, htests, hmove⟩
    have hleaves := onPackage_leaves ⟨hp, hm⟩ (loamLaneError_first hl hdeg hgone htests hmove)
    obtain rfl | rfl : i = .loamLaneError l ba lane ∨ i = .loamHandshakeTimeout l ba lane := by simpa using hi
    · exact hleaves
    · exact hleaves
  case laneTest =>
    exact fun l ba lane hm ⟨hhead, hopt, hmove, hl⟩ =>
      onPackage_leaves ⟨hp, hm⟩ (loamLaneTest_fails hhead hopt hmove hl)
  case toOptical =>
    exact fun l hm ⟨hmove, hbuf⟩ =>
      onPackage_leaves ⟨hp, hm⟩ (moveComplete_to_optical hmove hbuf)
  case back =>
    exact fun l hm ⟨hmove, hbuf, htests⟩ =>
      onPackage_leaves ⟨hp, hm⟩ (moveComplete_back hmove hbuf htests)
  case channelError =>
    exact fun r d ch hm ⟨hch, hstop, hring⟩ ⟨hfailed, htests⟩ =>
      onPackage_leaves ⟨hp, hm⟩ (channelError_tests hch hstop hring hfailed htests)
  case channelPasses =>
    exact fun r d ch hm htests => onPackage_leaves ⟨hp, hm⟩ (channelTest_passes htests)
  case channelFails =>
    exact fun r d ch hm htests hspare => onPackage_leaves ⟨hp, hm⟩ (channelTest_to_spare htests hspare)
  case laser =>
    exact fun r hm hring => onPackage_leaves ⟨hp, hm⟩ (laserFail_in_service hring)
  case phy =>
    exact fun d hm h28 => onPackage_leaves ⟨hp, hm⟩ (if_neg h28)
  case downHome =>
    exact fun h d a stamp hm hfind hport => onPackage_leaves ⟨hp, hm⟩ (dieDown_at_home h.isLt hfind hport)
  case downCp =>
    exact fun d stamp hm hfind => onPackage_leaves ⟨hp, hm⟩ (dieDown_at_cp hfind)
  case west =>
    exact fun hm => onPackage_runs ⟨hp, hm⟩

end Sys2Proof
end

section
/-! PROOFS. Supply and rails, step rate, power budgets, gating and heat: each effect case by case, then O35. -/
namespace Sys2Proof.Machine

/-! ## Input power and rails (R35, R560, R561) -/

theorem inputApplied_present {s : State} (hpres : s.pins.present = true) (hoff : s.elec.input = false) :
    inputApplied s =
      { drawn s with elec := { input := true, refclk := freshVal s % 2 == 1 }, start.due := some (0, 0) } :=
  if_neg (by simp [hpres, hoff])

theorem railGood_counts {s : State} (hdue : railsDue s = true) (hrails : s.elec.rails < 10) :
    railGood s = { s with elec.rails := s.elec.rails + 1 } :=
  if_pos (by simp [hdue, hrails])

theorem railTimeout_fails {ty cause : Nat} {s : State} (hstart : s.start.due = some (ty, cause)) (hdue : railsDue s = true)
    (hrails : s.elec.rails < 10) : railTimeout s = startFails ty 2 s.elec.rails 0 s := by
  simp [railTimeout, hstart, hdue, hrails]

theorem overvoltage_fixed {r : Rail} {u : FedUnit} {s : State} (hi : s.elec.input = true) (hr : railNo r ≤ 2) :
    overvoltage r u s = fixedRailGone (railNo r) s :=
  (if_neg (by simp [hi])).trans (if_pos hr)

theorem overvoltage_fed {r : Rail} {u : FedUnit} {s : State} (hi : s.elec.input = true) (hr : 2 < railNo r)
    (hfeeds : railFeeds r u = true) :
    overvoltage r u s = railLow u { s with elec.latches := setAdd s.elec.latches (railNo r) } :=
  (if_neg (by simp [hi])).trans ((if_neg (Nat.not_le.mpr hr)).trans (if_pos hfeeds))

theorem faultRestart_due {s : State} (hi : s.elec.input = true) (hrails : s.elec.rails = 0) (hdue : s.start.due = none)
    (hlatch : s.elec.latches.any (fun r => r ≤ 2) = true) : faultRestart s = { s with start.due := some (0, 0x0B) } :=
  if_pos (by rw [hi, hrails, hdue, hlatch]; rfl)

/-- The record of a Sward's or a die's rail below its floor. -/
def railRecord (level unit : Nat) : ErrRec := { level := level, unit := unit, reason := 0x0610, cls := 0x06, verdict := vPending }

/-- A Sward whose rail fell is fenced and recorded, and its work has failed. -/
def railSwardFenced (sw : Nat) (s : State) : State :=
  swardWorkFails sw 0x0610 (writeErr (railRecord lvSward sw) none (fenceSward sw s))

theorem railSward_repaired {sw : Nat} {s : State} (hup : meadowUp s (sw / 16) = true)
    (hin : s.err.out.any (fun o => o.level == lvSward && o.unit == sw) = false)
    (hremap : s.err.remaps.any (fun x => x.1 == sw) = false) :
    railSward sw s = swardRepair sw 0xFFFF s.err.nextId false (railSwardFenced sw s) :=
  (if_neg (by simp [hup])).trans ((if_neg (by simp only [hin]; exact Bool.false_ne_true)).trans
    (if_neg (by simp only [hremap]; exact Bool.false_ne_true)))

theorem railSward_out {sw : Nat} {s : State} (hup : meadowUp s (sw / 16) = true)
    (hout : s.err.out.any (fun o => o.level == lvSward && o.unit == sw) = true) :
    railSward sw s =
      writeErr { railRecord lvSward sw with verdict := vLasting, out := true } (some s.err.nextId) (railSwardFenced sw s) :=
  (if_neg (by simp [hup])).trans (if_pos hout)

theorem railDie_up {d : Nat} {s : State} (hup : dieUp s d = true) :
    railDie d s =
      if d = 28 then westGone (writeErr (railRecord lvPackage d) none s)
      else leaveDie d 6 (writeErr (railRecord lvPackage d) none s) :=
  if_neg (by simp [hup])

/-! ## Step rate and droop (R34, R488, R489) -/

/-- A slow Sward whose droop guard fires often gets 10 mV more within its budget. -/
theorem stepWindow_raises {u steps expected : Nat} {s : State} (hu : u < 128) (hslow : steps * 100 ≤ expected * 95)
    (hfires : 16 ≤ ((tgetD s.pw.fires u []).filter (fun x => cpTime s - x < 100000)).length) :
    stepWindow u steps expected true s =
      setF swardPwSetpointMv u (min 800 (getF s swardPwSetpointMv u + 10)) (setF stepRateSteps u steps s) :=
  if_pos ⟨hu, hslow, hfires, rfl⟩

theorem droopFire_counts {sw : Nat} {s : State} (hup : meadowUp s (sw / 16) = true) (hguard : flagSet s swardPwGuard sw = false) :
    droopFire sw s =
      bump swardPwDroopEvents sw 1 (setF swardPwGuard sw 1
        { s with pw.fires := tput s.pw.fires sw (cpTime s :: (tgetD s.pw.fires sw []).filter (fun x => cpTime s - x < 100000)) }) :=
  if_neg (by simp [hup, hguard])

/-! ## Ageing and gating (R485, R487) -/

theorem ageingMeasure_lowers {t percent : Nat} {s : State} (hpw : pwAlive s = true) (hup : meadowUp s (t / 128) = true)
    (hstate : getF s tuftCeilState t ≠ 3)
    (hlow : agedCeil (getF s tuftCeilFused t) percent < tgetD s.pw.dueCeil t (getF s tuftCeilCeil t)) :
    ageingMeasure t percent s =
      notice 0x0621 t (t / 128) (raise flPwStatusAge 0 { s with
        pw.flashCeil := tput s.pw.flashCeil t (agedCeil (getF s tuftCeilFused t) percent)
        pw.dueCeil := tput s.pw.dueCeil t (agedCeil (getF s tuftCeilFused t) percent) }) :=
  if_neg (by simp [hpw, hup, hstate, hlow])

theorem tuftGate_idle {t : Nat} {s : State} (hpw : pwAlive s = true) (hup : meadowUp s (t / 128) = true)
    (hidle : getF s tuftCeilState t = 1) (htask : (tuft s t).task = none) (hgates : getF s pwCtrlGateIdleUs 0 ≠ 0) :
    tuftGate t s = setF tuftCeilState t 2 s :=
  if_pos (by simp [hpw, hup, hidle, htask, hgates])

theorem tuftWake_placed {t : Nat} {s : State} (hgated : getF s tuftCeilState t = 2) (htask : (tuft s t).task ≠ none) :
    tuftWake t s = setF tuftCeilState t 0 s :=
  if_pos (by simp [hgated, Option.isSome_iff_ne_none.mpr htask])

/-! ## The cap loop and phases (R490, R491) -/

theorem phaseWindow_matched {levels shares n : Nat} {s : State} (hpw : pwAlive s = true) (h : phaseMatch s levels = some n) :
    phaseWindow levels shares none s =
      setF pwStatusPhase 0 n (setF pwStatusPhaseV 0 1
        { phasePut n (withBits (phaseGet s n) 119 112 (min 255 (phaseHits (phaseGet s n) + 1))) s with
          pw.shares := phaseShares (phaseGet s n) }) := by
  simp only [phaseWindow, phaseShift, hpw, h]
  rfl

/-- The module with the shares that a window measured in force and no phase matched. -/
def sharesMeasured (shares : Nat) (s : State) : State :=
  setF pwStatusPhaseV 0 0 (setF pwStatusPhase 0 0 { s with pw.shares := shares })

theorem phaseWindow_unmatched {levels shares : Nat} {s : State} (hpw : pwAlive s = true) (h : phaseMatch s levels = none) :
    phaseWindow levels shares none s =
      if flagSet (sharesMeasured shares s) pwCtrlLearn 0 then
        phasePut (phaseVictim (sharesMeasured shares s)) (packBits [(1, 127), (shares, 24), (levels, 0)]) (sharesMeasured shares s)
      else sharesMeasured shares s := by
  simp only [phaseWindow, phaseShift, hpw, h]
  rfl

/-! ## Heat and trips (R492, R493) -/

/-- A sample of a die's temperature as the power controller keeps it. -/
def tempTaken (d c sensors : Nat) (s : State) : State :=
  setF dieTempBand d (heatBand d c) (setF dieTempSensorsOk d sensors
    (setF dieTempPeak d (max c (getF s dieTempPeak d)) (setF dieTempTemp d c s)))

theorem tempSample_below_trip {d temp laser sensors : Nat} {s : State} (hpw : pwAlive s = true) (hsens : sensors ≠ 0)
    (hband : heatBand d (if d = 28 then laser else temp) ≠ 3) :
    tempSample d temp laser sensors s =
      if heatBand d (if d = 28 then laser else temp) = 0 then
        heatCloses d (tempTaken d (if d = 28 then laser else temp) sensors s)
      else heatStarts d (tempTaken d (if d = 28 then laser else temp) sensors s) :=
  (if_neg (by simp [hpw])).trans ((if_neg hsens).trans (ite_congr rfl (fun _ => rfl) fun _ => if_neg hband))

/-- A trip of a module that is not held by one already: a warm start is due, the record is written, the dies are held. -/
theorem trip_trips {d temp reason : Nat} {s : State} (hpw : pwAlive s = true) (htripped : s.pw.tripped = false)
    (hhalted : s.start.halted = false) :
    trip d temp reason s =
      tripSteps { tripRecord d temp reason (startDue 1 6 s) with pw.tripped := true, start.running := false, start.errorEnd := true } :=
  if_neg (by simp [hpw, htripped, hhalted])

theorem thermalTrip_at_limit {d temp : Nat} {s : State} (h : (heatLimits d).2.2 ≤ temp) :
    thermalTrip d temp s = trip d temp 0x0630 s :=
  if_neg (Nat.not_lt.mpr h)

end Sys2Proof.Machine

namespace Sys2Proof

open Sys2Proof.Machine

/-- Settles O35: each event's effect under its conditions, in the order of R558–R561, R35, R34 and R485–R493. -/
theorem powerAndHeat : Obligations.PowerAndHeat := by
  intro s
  refine ⟨?applied, ?lost, ?railGood, ?railTimeout, ?fed, ?fixed, ?restart, ?swardRepaired, ?swardOut, ?die, ?loam, ?window,
    ?cap, ?phaseMatched, ?phaseUnmatched, ?fire, ?release, ?age, ?gate, ?wake, ?sample, ?thermal, ?inputRange⟩
  case applied =>
    exact fun ⟨hpres, hoff⟩ => onPin_leaves_of_eq (inputApplied_present hpres hoff)
  case lost =>
    exact fun hi => onPin_leaves_of_eq (if_pos hi)
  case railGood =>
    exact fun hp ⟨hdue, hrails⟩ => happens_leaves hp (railGood_counts hdue hrails)
  case railTimeout =>
    exact fun ty cause hp hstart ⟨hdue, hrails⟩ => happens_leaves hp (railTimeout_fails hstart hdue hrails)
  case fed =>
    exact fun r u hp ⟨hr, hfeeds⟩ => happens_leaves hp (overvoltage_fed hp.2 hr hfeeds)
  case fixed =>
    exact fun r u hp hr => happens_leaves hp (overvoltage_fixed hp.2 hr)
  case restart =>
    exact fun hp ⟨hrails, hdue⟩ hlatch => happens_leaves hp (faultRestart_due hp.2 hrails hdue hlatch)
  case swardRepaired =>
    exact fun sw hp hup ⟨hin, hremap⟩ => happens_leaves hp (railSward_repaired hup hin hremap)
  case swardOut =>
    exact fun sw hp hup hout => happens_leaves hp (railSward_out hup hout)
  case die =>
    exact fun d hp ⟨hup, h28⟩ => happens_leaves hp ((railDie_up hup).trans (if_neg h28))
  case loam =>
    exact fun hp hup => happens_leaves hp ((railDie_up hup).trans (if_pos rfl))
  case window =>
    exact fun u steps expected ok hr ⟨hu, hslow, hfires⟩ => onPackage_leaves hr (stepWindow_raises hu hslow hfires)
  case cap =>
    exact fun i hr hpw => onPackage_leaves hr (if_neg (by simp [hpw]))
  case phaseMatched =>
    exact fun levels shares n hr hpw hmatch => onPackage_leaves hr (phaseWindow_matched hpw hmatch)
  case phaseUnmatched =>
    exact fun levels shares hr hpw hmatch => onPackage_leaves hr (phaseWindow_unmatched hpw hmatch)
  case fire =>
    exact fun sw hr hguard => onSward_leaves hr (droopFire_counts hr.2 hguard)
  case release =>
    exact fun sw hr => onSward_up hr
  case age =>
    exact fun t percent hr ⟨hpw, hstate, hlow⟩ => onTuft_leaves hr (ageingMeasure_lowers hpw hr.2 hstate hlow)
  case gate =>
    exact fun t hr ⟨hpw, hgates⟩ ⟨hidle, htask⟩ => onTuft_leaves hr (tuftGate_idle hpw hr.2 hidle htask hgates)
  case wake =>
    exact fun t hr ⟨hgated, htask⟩ => onTuft_leaves hr (tuftWake_placed hgated htask)
  case sample =>
    exact fun d temp laser sensors hp ⟨hpw, hsens⟩ hband => happens_leaves hp (tempSample_below_trip hpw hsens hband)
  case thermal =>
    exact fun d temp hp hlimit ⟨hpw, htripped, hhalted⟩ =>
      happens_leaves hp ((thermalTrip_at_limit hlimit).trans (trip_trips hpw htripped hhalted))
  case inputRange =>
    exact fun hp ⟨hpw, htripped, hhalted⟩ => happens_leaves hp (trip_trips hpw htripped hhalted)

end Sys2Proof
end

section
/-! PROOFS. What an instruction of a thread group may change: its Tuft, its task's flags, its Tuft's counters. -/
namespace Sys2Proof.Machine

/-! ## Tables, one Tuft's groups, registers -/

theorem tget_map_at {α : Type} (t : Table α) (f : α → α) (k j : Nat) :
    tget (t.map fun e => if e.1 = k then (e.1, f e.2) else e) j = if j = k then (tget t j).map f else tget t j := by
  induction t with
  | nil => simp [tget]
  | cons e t ih =>
    obtain ⟨i, a⟩ := e
    have hkey : (if i = k then (i, f a) else (i, a)) = (i, if i = k then f a else a) := (apply_ite (Prod.mk i) _ _ _).symm
    simp only [List.map_cons, hkey, tget, ih]
    by_cases hi : i = j
    · subst hi
      by_cases hk : i = k <;> simp [hk]
    · simp [hi]

theorem tuft_modTuft_same (t : Nat) (f : TuftState → TuftState) (s : State) : tuft (modTuft t f s) t = f (tuft s t) := by
  simp only [tuft, modTuft_tufts, tgetD, tget_tput_self, Option.getD_some]

theorem tuft_modTuft_other {t u : Nat} (h : u ≠ t) (f : TuftState → TuftState) (s : State) :
    tuft (modTuft t f s) u = tuft s u := by
  simp only [tuft, modTuft_tufts, tgetD, tget_tput_other s.tufts _ h.symm]

theorem groupGet_groupMod (t gi : Nat) (f : Group → Group) (s : State) (k : Nat) :
    groupGet (groupMod t gi f s) t k = if k = gi then (groupGet s t k).map f else groupGet s t k := by
  rw [groupGet, groupMod, tuft_modTuft_same]
  exact tget_map_at _ f gi k

theorem groupGet_modTuft {f : TuftState → TuftState} (hf : ∀ y, (f y).groups = y.groups) (t : Nat) (s : State) (k : Nat) :
    groupGet (modTuft t f s) t k = groupGet s t k := by
  rw [groupGet, tuft_modTuft_same, hf, groupGet]

theorem groupGet_of_tufts {s u : State} (h : u.tufts = s.tufts) (t k : Nat) : groupGet u t k = groupGet s t k := by
  rw [groupGet, tuft, h, groupGet, tuft]

/-! ## The frame of a thread group's instruction -/

/-- From `s` to `u` nothing changes but Tuft `t`, where only group `gi` does, the tasks, and the registers `rs` of Tuft `t`. -/
structure ChangesOnly (t gi : Nat) (rs : List Reg) (s u : State) : Prop where
  rest : { u with tufts := s.tufts, regs := s.regs, work.tasks := s.work.tasks } = s
  regs : ∀ r v, v < 65536 → r ∉ rs ∨ v ≠ t → regRaw u r v = regRaw s r v
  tufts : ∀ v, v ≠ t → tuft u v = tuft s v
  groups : ∀ k, k ≠ gi → groupGet u t k = groupGet s t k

namespace ChangesOnly

variable {t gi : Nat} {rs : List Reg} {s u v : State}

theorem refl (s : State) : ChangesOnly t gi rs s s := ⟨rfl, fun _ _ _ _ => rfl, fun _ _ => rfl, fun _ _ => rfl⟩

theorem trans (h : ChangesOnly t gi rs s u) (h' : ChangesOnly t gi rs u v) : ChangesOnly t gi rs s v where
  rest :=
    (congrArg (fun x : State => { x with tufts := s.tufts, regs := s.regs, work.tasks := s.work.tasks }) h'.rest).trans h.rest
  regs := fun _ _ hk hr => (h'.regs _ _ hk hr).trans (h.regs _ _ hk hr)
  tufts := fun k hk => (h'.tufts k hk).trans (h.tufts k hk)
  groups := fun k hk => (h'.groups k hk).trans (h.groups k hk)

theorem foldl {α : Type} {f : State → α → State} {l : List α} (h : ∀ x, ∀ a ∈ l, ChangesOnly t gi rs x (f x a)) (s : State) :
    ChangesOnly t gi rs s (l.foldl f s) :=
  List.foldlRecOn l f (refl s) fun x hx a ha => hx.trans (h x a ha)

theorem of_setF {f : Field} (hf : f.reg ∈ rs) (ht : t < 65536) (x : Nat) (s : State) : ChangesOnly t gi rs s (setF f t x s) where
  rest := rfl
  regs := fun _ _ hk hr => regRaw_setRegRaw_other _ s fun h =>
    have ⟨hreg, htk⟩ := regKey_inj ht hk h
    hr.elim (· (hreg ▸ hf)) (· htk.symm)
  tufts := fun _ _ => rfl
  groups := fun _ _ => rfl

theorem of_modTuft {f : TuftState → TuftState} (hf : ∀ y, (f y).groups = y.groups) (s : State) :
    ChangesOnly t gi rs s (modTuft t f s) where
  rest := rfl
  regs := fun _ _ _ _ => rfl
  tufts := fun _ hk => tuft_modTuft_other hk f s
  groups := fun k _ => groupGet_modTuft hf t s k

theorem of_groupMod (f : Group → Group) (s : State) : ChangesOnly t gi rs s (groupMod t gi f s) where
  rest := rfl
  regs := fun _ _ _ _ => rfl
  tufts := fun _ hk => tuft_modTuft_other hk _ s
  groups := fun k hk => (groupGet_groupMod t gi f s k).trans (if_neg hk)

theorem of_taskMod (id : Nat) (f : TaskRec → TaskRec) (s : State) : ChangesOnly t gi rs s (taskMod id f s) :=
  ⟨rfl, fun _ _ _ _ => rfl, fun _ _ => rfl, fun _ _ => rfl⟩

theorem of_raise {fl : Flag} (hf : fl.flag.reg ∈ rs) (hc : fl.count.reg ∈ rs) (ht : t < 65536) (s : State) :
    ChangesOnly t gi rs s (raise fl t s) :=
  (of_setF hf ht 1 s).trans (of_setF hc ht _ _)

theorem of_raiseArith (hf : Reg.arithFlags ∈ rs) (hc : Reg.arithCounts ∈ rs) (ht : t < 65536) (mask : Nat) (s : State) :
    ChangesOnly t gi rs s (raiseArith t mask s) := by
  have hregs : ∀ a ∈ arithFlagBits, a.2.flag.reg = .arithFlags ∧ a.2.count.reg = .arithCounts := by decide
  refine foldl (fun x a ha => ?_) s
  obtain ⟨hflag, hcount⟩ := hregs a ha
  split
  · exact of_raise (hflag ▸ hf) (hcount ▸ hc) ht x
  · exact refl x

theorem of_taskFlags (hf : Reg.arithFlags ∈ rs) (hc : Reg.arithCounts ∈ rs) (ht : t < 65536) (id mask : Nat) (s : State) :
    ChangesOnly t gi rs s (taskFlags id t mask s) :=
  (of_taskMod id _ s).trans (of_raiseArith hf hc ht mask _)

theorem of_counted {c : ICtx} (hr : Reg.tgCounts ∈ rs) (ht : c.t < 65536) (i : Issue) (u : RegUse) (s : State) :
    ChangesOnly c.t c.gi rs s (counted i c u s) := by
  unfold counted
  split
  · exact refl s
  · exact (of_modTuft (by exact fun _ => rfl) s).trans <| (of_groupMod _ _).trans <| (of_setF hr ht _ _).trans <|
      (of_setF hr ht _ _).trans <| (of_modTuft (by exact fun _ => rfl) _).trans <| (of_setF hr ht _ _).trans (of_setF hr ht _ _)

theorem of_advance (c : ICtx) (s : State) : ChangesOnly c.t c.gi rs s (advance c s) := of_groupMod _ s

/-- With the tasks as they were, nothing of the state changes but Tufts and registers. -/
theorem rest_of_tasks (h : ChangesOnly t gi rs s u) (htasks : u.work.tasks = s.work.tasks) :
    { u with tufts := s.tufts, regs := s.regs } = s := by
  have hrest := h.rest
  rw [← htasks] at hrest
  exact hrest

theorem readByte (h : ChangesOnly t gi rs s u) (a : Nat) : readByte u a = readByte s a := by
  have hwq : u.wq = s.wq := congrArg (·.wq) h.rest
  have hmem : u.mem = s.mem := congrArg (·.mem) h.rest
  simp only [Machine.readByte, hwq, hmem]

theorem deadAddr (h : ChangesOnly t gi rs s u) (a : Nat) : deadAddr u a = deadAddr s a := by
  have hretired : u.retired = s.retired := congrArg (·.retired) h.rest
  have hlost : u.lostHomes = s.lostHomes := congrArg (·.lostHomes) h.rest
  simp only [Machine.deadAddr, homeLost, hretired, hlost]

end ChangesOnly

end Sys2Proof.Machine
end

section
/-! PROOFS. With nothing waiting, nothing follows an effect; a frame keeps it so. -/
namespace Sys2Proof.Machine

theorem pump_of_no_graph {s : State} (h : s.work.graphs = []) (n : Nat) : pump n s = s := by
  have hnone : readyNode s = none := by rw [readyNode, h]; rfl
  cases n with
  | zero => rfl
  | succ n => rw [pump, hnone]

/-- The scheduler, JOB_DESTROY, and the units have nothing to go on with. -/
theorem settleOb_of_idle {s : State} (hgraphs : s.work.graphs = []) (hregions : s.res.regions = []) (hbufs : s.work.bufWait = [])
    (hdrains : s.err.drains = []) (hdestroy : s.ob.destroying = none) : settleOb s = s := by
  have hclose : closeRegions s = s := by rw [closeRegions, hregions]; rfl
  have hretry : retryBufs s = s := by rw [retryBufs, hbufs]; rfl
  have hdrain : drainCheck s = s := by rw [drainCheck, hdrains]; rfl
  have hfollow : follow s = s := by
    simp only [follow, pump_of_no_graph hgraphs, hclose, hretry, hdrain]
  rw [settleOb, hfollow, destroyCheck, hdestroy]

theorem goesOn_of_not_stuck {s : State} (h : s.coh.stuck = none) : goesOn s = s := by rw [goesOn, ← h]

theorem cpSends_of_none {s : State} (h : s.coh.cpWrites = []) : cpSends s = s := by
  rw [cpSends, h, List.foldl_nil, ← h]

theorem heldBack_of_not_stuck (s : State) {t : State} (h : t.coh.stuck = none) : heldBack s t = t := by rw [heldBack, h]

/-- A command's writes read from memory, once it has ended, as they did while they waited. -/
theorem readByte_committed {s t : State} (hs : memWf s.mem = true) (hm : t.mem = s.mem) (a : Nat) :
    readByte { t with pending := s.pending, mem := memCommit t.wq s.mem, wq := [] } a = readByte t a := by
  rw [readByte, readByte, hm, ← memGet_commit t.wq hs]
  rfl

/-- States whose every byte reads alike read alike as numbers. -/
theorem readNum_congr {s t : State} (h : ∀ a, readByte t a = readByte s a) (a n : Nat) : readNum t a n = readNum s a n := by
  induction n with
  | zero => rfl
  | succ n ih => rw [readNum, readNum, ih, h]

end Sys2Proof.Machine

namespace Sys2Proof

open Sys2Proof.Machine

theorem settleAll_of_nothingWaits {s : State} (h : NothingWaits s) : settleAll s = s := by
  obtain ⟨hgraphs, hbufs, hdrains, hdestroy, hceil, hpanel, hregions, hqueue, hcp, hstuck⟩ := h
  have hceilCheck : ceilCheck s = s := by rw [ceilCheck, hceil]; rfl
  have hquiesce : quiesceCheck s = s := by simp [quiesceCheck, hpanel]
  have hdrain : netDrain s = s := by rw [netDrain, hqueue]; rfl
  rw [settleAll, settleOb_of_idle hgraphs hregions hbufs hdrains hdestroy, hceilCheck, hquiesce, hdrain,
    goesOn_of_not_stuck hstuck, cpSends_of_none hcp]

theorem left_of_nothingWaits (s : State) {t : State} (h : NothingWaits t) : left s t = leftBare s t := by
  have ⟨_, _, _, _, _, _, _, _, _, hstuck⟩ := h
  rw [left, leftEvent, heldBack_of_not_stuck s hstuck, settleAll_of_nothingWaits h]

/-- What waits is kept outside Tufts, registers, memory, poison and the records of tasks, but for the panel's state. -/
theorem nothingWaits_of_rest {s u : State}
    (h : { u with tufts := s.tufts, regs := s.regs, wq := s.wq, poison := s.poison, work.tasks := s.work.tasks } = s)
    (hpanel : getF u mgStatusPanel 0 = getF s mgStatusPanel 0) (hs : NothingWaits s) : NothingWaits u := by
  obtain ⟨hgraphs, hbufs, hdrains, hdestroy, hceil, hpanel2, hregions, hqueue, hcp, hstuck⟩ := hs
  exact ⟨(congrArg (·.work.graphs) h).trans hgraphs, (congrArg (·.work.bufWait) h).trans hbufs,
    (congrArg (·.err.drains) h).trans hdrains, (congrArg (·.ob.destroying) h).trans hdestroy,
    (congrArg (·.pw.dueCeil) h).trans hceil, hpanel ▸ hpanel2, (congrArg (·.res.regions) h).trans hregions,
    (congrArg (·.net.queue) h).trans hqueue, (congrArg (·.coh.cpWrites) h).trans hcp, (congrArg (·.coh.stuck) h).trans hstuck⟩

end Sys2Proof

namespace Sys2Proof.Machine.ChangesOnly

variable {t gi : Nat} {rs : List Reg} {s u : State}

theorem nothingWaits (h : ChangesOnly t gi rs s u) (hrs : Reg.mgStatus ∉ rs) (hs : NothingWaits s) : NothingWaits u := by
  have hwq : u.wq = s.wq := congrArg (·.wq) h.rest
  have hpoison : u.poison = s.poison := congrArg (·.poison) h.rest
  have hrest := h.rest
  refine nothingWaits_of_rest ?_ (congrArg (bitsOf · _ _) (h.regs .mgStatus 0 (by decide) (.inl hrs))) hs
  rw [← hwq, ← hpoison]
  exact hrest

/-- Where nothing waits and no write is left over, the effect itself is what the command leaves. -/
theorem left_eq (h : ChangesOnly t gi rs s u) (hrs : Reg.mgStatus ∉ rs) (hs : Sound s) (hw : NothingWaits s) : left s u = u := by
  obtain ⟨_, hempty⟩ := hs
  have hwq : u.wq = [] := (congrArg (·.wq) h.rest).trans hempty
  have hmem : u.mem = s.mem := congrArg (·.mem) h.rest
  have hpending : u.pending = s.pending := congrArg (·.pending) h.rest
  have hcommit : memCommit u.wq s.mem = u.mem := by rw [hwq, hmem]; rfl
  rw [left_of_nothingWaits s (h.nothingWaits hrs hw), leftBare, hcommit, ← hpending, ← hwq]

end Sys2Proof.Machine.ChangesOnly
end

section
/-! PROOFS. What the arithmetic instructions of a thread group write in its registers. -/
namespace Sys2Proof.Machine

/-! ## Registers of a group -/

theorem lt_of_mem_lanesOf {m l : Nat} (h : l ∈ lanesOf m) : l < 32 := List.mem_range.mp (List.mem_filter.mp h).1

/-- From `g` to `h` no register changes but the vector registers `dst` to `dst + n`. -/
structure VectorsChange (dst n : Nat) (g h : Group) : Prop where
  sregs : h.sregs = g.sregs
  preds : h.preds = g.preds
  vreg : ∀ r l, l < 32 → r < dst ∨ dst + n ≤ r → vreg h r l = vreg g r l

namespace VectorsChange

variable {dst n : Nat} {g h k : Group}

theorem refl (g : Group) : VectorsChange dst n g g := ⟨rfl, rfl, fun _ _ _ _ => rfl⟩

theorem trans (hgh : VectorsChange dst n g h) (hhk : VectorsChange dst n h k) : VectorsChange dst n g k :=
  ⟨hhk.sregs.trans hgh.sregs, hhk.preds.trans hgh.preds, fun r l hl hr => (hhk.vreg r l hl hr).trans (hgh.vreg r l hl hr)⟩

/-- The keys of two lanes' registers differ where the registers do. -/
theorem of_setVregs {lane : Nat} (hlane : lane < 32) (v bad : Nat) (g : Group) :
    VectorsChange dst n g (setVregs dst n lane v bad g) := by
  unfold setVregs
  split
  · exact refl g
  · refine List.foldlRecOn _ _ (refl g) fun x hx k hk => hx.trans ⟨rfl, rfl, fun r l hl hr => ?_⟩
    have hkn : k < n := List.mem_range.mp hk
    have hkey : (dst + k) * 32 + lane ≠ r * 32 + l := by omega
    simp only [Machine.vreg, tgetD, tget_tput_other _ _ hkey]

end VectorsChange

/-- Lane results put into `n` registers each. -/
def setLanes (dst n : Nat) (vs : List LaneVal) (g : Group) : Group :=
  vs.foldl (fun g v => setVregs dst n v.lane v.val v.bad g) g

theorem VectorsChange.of_setLanes {dst n : Nat} {vs : List LaneVal} (h : ∀ v ∈ vs, v.lane < 32) (g : Group) :
    VectorsChange dst n g (setLanes dst n vs g) :=
  List.foldlRecOn vs _ (refl g) fun _ hx v hv => hx.trans (of_setVregs (h v hv) v.val v.bad _)

/-- A predicate's bits and their poison put into a group. -/
def setPred (c : ICtx) (p : Nat) (vs : List LaneVal) (g : Group) : Group :=
  let bits := vs.foldl (fun m v => m + v.val % 2 * 2 ^ v.lane) 0
  { g with preds := tput g.preds p (BitVec.ofNat 32 ((predReg g p &&& (0xFFFFFFFF - c.act)) ||| (bits &&& c.act)))
           ppoison := vs.foldl (fun l v =>
             if v.bad = 0 then tdel l (p * 32 + v.lane) else tput l (p * 32 + v.lane) v.bad) g.ppoison }

theorem predReg_setPred_other {p q : Nat} (h : q ≠ p) (c : ICtx) (vs : List LaneVal) (g : Group) :
    predReg (setPred c p vs g) q = predReg g q := by
  simp only [predReg, setPred, tgetD, tget_tput_other _ _ h.symm]

theorem sreg_setSreg_other {r q : Nat} (h : q ≠ r) (v : Nat) (g : Group) : sreg (setSreg r v g) q = sreg g q := by
  simp only [sreg, setSreg, tgetD, tget_tput_other _ _ h.symm]

/-! ## Flags that are not raised -/

theorem taskMod_self {f : TaskRec → TaskRec} (h : ∀ r, f r = r) (id : Nat) (s : State) : taskMod id f s = s := by
  have hmap : (fun r => if r.id == id then f r else r) = fun r : TaskRec => r := funext fun r => by rw [h, ite_self]
  rw [taskMod, hmap, List.map_id']

theorem taskFlags_zero (id t : Nat) (s : State) : taskFlags id t 0 s = s := by
  rw [taskFlags, taskMod_self fun r => by rw [Nat.or_zero]]
  rfl

theorem laneFlags_zero {vs : List LaneVal} (h : ∀ v ∈ vs, v.flags = 0) : laneFlags vs = 0 :=
  List.foldlRecOn (motive := (· = 0)) vs _ rfl fun m hm v hv => by rw [h v hv, Nat.or_zero, ite_self, hm]

/-! ## The group after an instruction -/

theorem groupGet_taskFlags (id t mask : Nat) (s : State) (k : Nat) : groupGet (taskFlags id t mask s) t k = groupGet s t k := by
  refine groupGet_of_tufts ?_ t k
  refine List.foldlRecOn (motive := fun u : State => u.tufts = s.tufts) arithFlagBits _ rfl fun x hx f _ => ?_
  split
  · exact hx
  · exact hx

theorem groupGet_bump (f : Field) (u n : Nat) (s : State) (t k : Nat) : groupGet (bump f u n s) t k = groupGet s t k :=
  groupGet_of_tufts (bump_tufts f u n s) t k

/-- Issue changes the paths of a group alone. -/
theorem groupGet_counted {c : ICtx} {s : State} (h : groupGet s c.t c.gi = some c.g) (i : Issue) (u : RegUse) :
    ∃ ps, groupGet (counted i c u s) c.t c.gi = some { c.g with paths := ps } := by
  unfold counted
  split
  · exact ⟨c.g.paths, h⟩
  · refine ⟨(modCur (fun p => { p with issued := true }) c.g).paths, ?_⟩
    simp only [useCaches, groupGet_bump, groupGet_modTuft, groupGet_groupMod, implies_true, if_true, h]
    rfl

theorem counted_work (i : Issue) (c : ICtx) (u : RegUse) (s : State) : (counted i c u s).work = s.work := by
  unfold counted
  split
  · rfl
  · simp only [useCaches, bump_work, modTuft_work, groupMod_work]

/-- The group's registers are written by `f` and its running path goes on. -/
def groupWrite (c : ICtx) (f : Group → Group) (s : State) : State := advance c (groupMod c.t c.gi f s)

theorem writeLanes_eq (c : ICtx) (dst n : Nat) (vs : List LaneVal) (s : State) :
    writeLanes c dst n vs s = groupWrite c (setLanes dst n vs) (taskFlags c.task.id c.t (laneFlags vs) s) := rfl

theorem writePred_eq (c : ICtx) (p : Nat) (vs : List LaneVal) (s : State) :
    writePred c p vs s = groupWrite c (setPred c p vs) (taskFlags c.task.id c.t (laneFlags vs) s) := rfl

theorem ChangesOnly.of_groupWrite {rs : List Reg} (c : ICtx) (f : Group → Group) (s : State) :
    ChangesOnly c.t c.gi rs s (groupWrite c f s) :=
  (of_groupMod f s).trans (of_advance c _)

theorem groupGet_groupWrite {c : ICtx} {s : State} {g : Group} (h : groupGet s c.t c.gi = some g) (f : Group → Group) :
    ∃ ps, groupGet (groupWrite c f s) c.t c.gi = some { f g with paths := ps } := by
  refine ⟨(modCur (·.goTo c.next) (f g)).paths, ?_⟩
  refine (groupGet_groupMod c.t c.gi _ _ c.gi).trans ?_
  rw [if_pos rfl, groupGet_groupMod, if_pos rfl, h]
  rfl

end Sys2Proof.Machine
end

section
/-! PROOFS. What the arithmetic instructions of a thread group leave unchanged. -/
namespace Sys2Proof

open Sys2Proof.Machine

/-- `issueOp_issues` for registers and checks that the context does not bear on. -/
theorem issueOp_issues_const {cls : Nat} {i : Issue} {c : ICtx} {s : State} {use : RegUse} {checks : List (Option Nat)}
    (h : Issues cls i c s) (hc : NoneFails (useChecks i c use ++ checks)) (go : ICtx → State → State) :
    issueOp cls i (fun _ _ => use) (fun _ _ => checks) go s = go c (counted i c use s) :=
  issueOp_issues (use := fun _ _ => use) (checks := fun _ _ => checks) h hc

section

variable {cls : Nat} {i : Issue} {c : ICtx} {s : State} (h : Issues cls i c s)

include h

theorem onTuft_issues {u : State} {f : State → State} (hf : f s = u) : onTuft i.tuft f s = .next (left s u) :=
  have ⟨⟨hruns, _⟩, _⟩ := h
  onTuft_leaves hruns hf

theorem tuft_lt_of_issues : c.t < 65536 := by
  obtain ⟨⟨_, _, _, ht, _⟩, _⟩ := h
  omega

theorem groupGet_of_issues : groupGet s c.t c.gi = some c.g := by
  obtain ⟨⟨_, _, _, ht, hgi, hg, _⟩, _⟩ := h
  rw [ht, hgi, hg]

/-- The group after an instruction that issues, raises the flags of a mask and writes its registers by `f`: the paths aside,
what `f` makes of it. -/
theorem groupGet_after_issue_flags (use : RegUse) (f : Group → Group) (mask : Nat) :
    ∃ ps qs, groupGet (groupWrite c f (taskFlags c.task.id c.t mask (counted i c use s))) c.t c.gi =
      some { f { c.g with paths := ps } with paths := qs } := by
  obtain ⟨ps, hps⟩ := groupGet_counted (groupGet_of_issues h) i use
  obtain ⟨qs, hqs⟩ := groupGet_groupWrite ((groupGet_taskFlags c.task.id c.t mask _ c.gi).trans hps) f
  exact ⟨ps, qs, hqs⟩

/-- The same for one that raises no flag. -/
theorem groupGet_after_issue (use : RegUse) (f : Group → Group) :
    ∃ ps qs, groupGet (groupWrite c f (counted i c use s)) c.t c.gi = some { f { c.g with paths := ps } with paths := qs } := by
  have hflags := groupGet_after_issue_flags h use f 0
  rwa [taskFlags_zero] at hflags

theorem changesOnly_of_counted (use : RegUse) : ChangesOnly c.t c.gi [.tgCounts] s (counted i c use s) :=
  .of_counted (by simp) (tuft_lt_of_issues h) i use s

/-- An instruction that issues, raises no flag and writes its group's registers alone. -/
theorem changesOnly_of_issue (use : RegUse) (f : Group → Group) :
    ChangesOnly c.t c.gi [.tgCounts] s (groupWrite c f (counted i c use s)) :=
  (changesOnly_of_counted h use).trans (.of_groupWrite c f _)

/-- An instruction that issues, raises the flags of a mask and writes its group's registers. -/
theorem changesOnly_of_issue_flags (use : RegUse) (f : Group → Group) (mask : Nat) :
    ChangesOnly c.t c.gi [.tgCounts, .arithFlags, .arithCounts] s
      (groupWrite c f (taskFlags c.task.id c.t mask (counted i c use s))) :=
  have ht := tuft_lt_of_issues h
  (ChangesOnly.of_counted (by simp) ht i use s).trans <| (ChangesOnly.of_taskFlags (by simp) (by simp) ht _ _ _).trans
    (.of_groupWrite c f _)

/-- What such an instruction leaves is its effect. -/
theorem onTuft_frame {u : State} {f : State → State} {rs : List Reg} (hf : f s = u)
    (hframe : ChangesOnly c.t c.gi rs s u) (hrs : Reg.mgStatus ∉ rs) (hs : Sound s) (hw : NothingWaits s) :
    onTuft i.tuft f s = .next u :=
  (onTuft_issues h hf).trans (congrArg _ (hframe.left_eq hrs hs hw))

end

/-! ## What each class runs -/

theorem doIntegerOp_issues {s : State} {i : Issue} {c : ICtx} {op : IntOp} {wide : Bool} {n : Nat}
    (hn : n = if wide then 2 else 1) (h : Issues 0 i c s)
    (hc : NoneFails (useChecks i c { vd := n, va := if op == .mov then 0 else n, vb := n } ++ opReserved (op == .reserved))) :
    ∃ vs u, (∀ v ∈ vs, v.lane < 32) ∧
      doIntegerOp i op wide s = groupWrite c (setLanes (iwDst (iw i)) n vs) (counted i c u s) := by
  subst hn
  rw [doIntegerOp, issueOp_issues_const h hc, writeLanes_eq, laneFlags_zero (List.forall_mem_map.mpr fun _ _ => rfl),
    taskFlags_zero]
  refine ⟨_, _, ?_, rfl⟩
  exact List.forall_mem_map.mpr fun _ hl => lt_of_mem_lanesOf hl

theorem doFpOp_issues {s : State} {i : Issue} {c : ICtx} {op : FpOp} {dbl : Bool} {rnd : RndMod} {n : Nat}
    (hn : n = if dbl then 2 else 1) (h : Issues 1 i c s)
    (hc : NoneFails (useChecks i c
      { vd := n, va := n, vb := if op == .sqrt || op == .rcp then 0 else n, vc := if op == .fma then n else 0 } ++
        opReserved (op == .reserved || (dbl && (op == .div || op == .sqrt || op == .rcp))))) :
    ∃ vs u, (∀ v ∈ vs, v.lane < 32) ∧
      doFpOp i op dbl rnd s = writeLanes c (iwDst (iw i)) n vs (counted i c u s) := by
  subst hn
  rw [doFpOp, issueOp_issues_const h hc]
  refine ⟨_, _, ?_, rfl⟩
  exact List.forall_mem_map.mpr fun _ hl => lt_of_mem_lanesOf hl

theorem doCompareOp_issues {s : State} {i : Issue} {c : ICtx} {rel : CmpRel} {ty : CmpTy} {n : Nat}
    (hn : n = if ty == .s64 || ty == .u64 || ty == .fp64 then 2 else 1) (h : Issues 3 i c s)
    (hc : NoneFails (useChecks i c { va := n, vb := n, pd := true })) :
    ∃ vs u, doCompareOp i (.cmp rel ty) s = writePred c (iwDst (iw i)) vs (counted i c u s) := by
  subst hn
  rw [← List.append_nil (useChecks _ _ _)] at hc
  rw [doCompareOp, issueOp_issues_const h hc]
  exact ⟨_, _, rfl⟩

theorem doScalarOp_issues {s : State} {i : Issue} {c : ICtx} {op : IntOp} {wide : Bool} (h : Issues 14 i c s)
    (hc : NoneFails (useChecks i c { sd := true, sa := op != .mov, sb := true } ++ opReserved (op == .reserved))) :
    ∃ v u, doScalarOp i op wide s = groupWrite c (setSreg (iwDst (iw i)) v) (counted i c u s) := by
  rw [doScalarOp, issueOp_issues_const h hc]
  exact ⟨_, _, rfl⟩

end Sys2Proof
end

section
/-! PROOFS. What a store of a thread group leaves unchanged; then O56. -/
namespace Sys2Proof.Machine

/-! ## The order of lanes -/

theorem mem_insertKey {e f : Nat × Nat} {l : List (Nat × Nat)} : f ∈ insertKey e l ↔ f = e ∨ f ∈ l := by
  induction l with
  | nil => simp [insertKey]
  | cons d l ih =>
    unfold insertKey
    split
    · exact List.mem_cons
    · rw [List.mem_cons, ih, List.mem_cons, or_left_comm]

theorem mem_foldr_insertKey {f : Nat × Nat} {l : List (Nat × Nat)} : f ∈ l.foldr insertKey [] ↔ f ∈ l := by
  induction l with
  | nil => rfl
  | cons d l ih => rw [List.foldr_cons, mem_insertKey, ih, List.mem_cons]

/-- Lanes in the order in which they store are the lanes that store. -/
theorem mem_laneOrder {i : Issue} {c : ICtx} {glob : Bool} {n l : Nat} :
    l ∈ laneOrder (laneAddrs i c glob) n ↔ l ∈ lanesOf c.act := by
  simp [laneOrder, mem_foldr_insertKey, laneAddrs]

theorem laneOrder_single {i : Issue} {c : ICtx} {glob : Bool} {l : Nat} (h : lanesOf c.act = [l]) (n : Nat) :
    laneOrder (laneAddrs i c glob) n = [l] := by
  rw [laneAddrs, h]
  rfl

/-! ## One lane's store -/

/-- A lane stores its data at its address, with the poison of both. -/
def storeLane (i : Issue) (c : ICtx) (m : MemMod) (u : State) (l : Nat) : State :=
  noteRf c (storedBad i c m 1 l) (storeWrite c.t (laneAddr i c false l) (memBytes m)
    (vregs c.g (iwDst (iw i)) (memRegs (memBytes m)) l) (storedBad i c m 1 l != 0) u)

/-- From `s` to `u` nothing changes but writes that wait, poison and the records of tasks. -/
abbrev StoresOnly (s u : State) : Prop := { u with wq := s.wq, poison := s.poison, work.tasks := s.work.tasks } = s

theorem StoresOnly.refl (s : State) : StoresOnly s s := rfl

theorem StoresOnly.trans {s u v : State} (h : StoresOnly s u) (h' : StoresOnly u v) : StoresOnly s v :=
  (congrArg (fun x : State => { x with wq := s.wq, poison := s.poison, work.tasks := s.work.tasks }) h').trans h

theorem storesOnly_storeWrite (t off n v : Nat) (bad : Bool) (s : State) : StoresOnly s (storeWrite t off n v bad s) := by
  cases bad <;> rfl

theorem storesOnly_noteRf (c : ICtx) (bad : Nat) (s : State) : StoresOnly s (noteRf c bad s) := by
  unfold noteRf
  split <;> rfl

theorem storesOnly_storeLane (i : Issue) (c : ICtx) (m : MemMod) (s : State) (l : Nat) : StoresOnly s (storeLane i c m s l) :=
  (storesOnly_storeWrite _ _ _ _ _ s).trans (storesOnly_noteRf c _ _)

theorem readByte_noteRf (c : ICtx) (bad : Nat) (s : State) (x : Nat) : readByte (noteRf c bad s) x = readByte s x := by
  unfold noteRf
  split <;> rfl

theorem readByte_storeWrite (t off n v : Nat) (bad : Bool) (s : State) (x : Nat) :
    readByte (storeWrite t off n v bad s) x = readByte (writeNum (storeKey t off) n v s) x := by
  cases bad <;> rfl

theorem readByte_storeLane (i : Issue) (c : ICtx) (m : MemMod) (s : State) (l x : Nat) :
    readByte (storeLane i c m s l) x = readByte (writeNum (storeKey c.t (laneAddr i c false l)) (memBytes m)
      (vregs c.g (iwDst (iw i)) (memRegs (memBytes m)) l) s) x := by
  rw [storeLane, readByte_noteRf, readByte_storeWrite]

/-! ## The store of every lane -/

/-- The lanes of an instruction store one after another. -/
def storeLanes (i : Issue) (c : ICtx) (m : MemMod) (s : State) : State :=
  (laneOrder (laneAddrs i c false) (memBytes m)).foldl (storeLane i c m) s

theorem storesOnly_storeLanes (i : Issue) (c : ICtx) (m : MemMod) (s : State) : StoresOnly s (storeLanes i c m s) :=
  List.foldlRecOn _ _ (.refl s) fun u hu l _ => hu.trans (storesOnly_storeLane i c m u l)

/-- A byte at no lane's address keeps its value. -/
theorem readByte_storeLanes_other {i : Issue} {c : ICtx} {m : MemMod} {x : Nat}
    (h : ∀ l ∈ lanesOf c.act, ¬ (storeKey c.t (laneAddr i c false l) ≤ x ∧ x < storeKey c.t (laneAddr i c false l) + memBytes m))
    (s : State) : readByte (storeLanes i c m s) x = readByte s x := by
  refine List.foldlRecOn (motive := fun u => readByte u x = readByte s x) _ _ rfl fun u hu l hl => ?_
  have hout := h l (mem_laneOrder.mp hl)
  rw [readByte_storeLane, readByte_writeNum, if_neg fun ⟨hlo, hhi, _⟩ => hout ⟨hlo, hhi⟩, hu]

theorem storeNum_storeLanes_single {i : Issue} {c : ICtx} {m : MemMod} {s : State} {l : Nat} (hl : lanesOf c.act = [l])
    (h : ∀ x, x < memBytes m → deadAddr s (storeKey c.t (laneAddr i c false l) + x) = false) :
    storeNum (storeLanes i c m s) c.t (laneAddr i c false l) (memBytes m) =
      vregs c.g (iwDst (iw i)) (memRegs (memBytes m)) l % 256 ^ memBytes m := by
  have hone : storeLanes i c m s = storeLane i c m s l := by rw [storeLanes, laneOrder_single hl]; rfl
  rw [hone, storeNum, readNum_congr (readByte_storeLane i c m s l), readNum_writeNum _ h]

end Sys2Proof.Machine

namespace Sys2Proof

open Sys2Proof.Machine

theorem doStoreAccess_issues {s : State} {i : Issue} {c : ICtx} {m : MemMod} {n : Nat} (hm : m.store = true)
    (hn : n = memBytes m) (h : Issues 5 i c s)
    (hc : NoneFails (useChecks i c (memUse m 1) ++ scopeChecks i ++
      [failIf ((laneAddrs i c false).any (fun a => a.2 % n != 0)) 0x0462,
       failIf ((laneAddrs i c false).any (fun a => decide (tkLimit c.task.d < a.2 + n))) 0x0463])) :
    doStoreAccess i m s = advance c (storeLanes i c m (counted i c (memUse m 1) s)) := by
  subst hn
  rw [List.append_assoc] at hc
  rw [doStoreAccess, issueOp_issues (use := fun _ _ => memUse m 1) (checks := fun c _ => scopeChecks i ++
      [failIf ((laneAddrs i c false).any (fun a => a.2 % memBytes m != 0)) 0x0462,
       failIf ((laneAddrs i c false).any (fun a => decide (tkLimit c.task.d < a.2 + memBytes m))) 0x0463]) h hc]
  exact if_pos hm

theorem nothingWaits_of_storesOnly {s u : State} (h : StoresOnly s u) (hs : NothingWaits s) : NothingWaits u := by
  have hregs : u.regs = s.regs := congrArg (·.regs) h
  exact nothingWaits_of_rest (congrArg (fun x : State => { x with tufts := s.tufts, regs := s.regs }) h)
    (by rw [getF, regRaw, hregs, getF, regRaw]) hs

/-- The effect of a store, its issue included. -/
def stored (i : Issue) (c : ICtx) (m : MemMod) (s : State) : State :=
  advance c (storeLanes i c m (counted i c (memUse m 1) s))

section

variable {cls : Nat} {i : Issue} {c : ICtx} {s : State} (h : Issues cls i c s) (m : MemMod)

include h

/-- After a store nothing waits that did not wait before. -/
theorem nothingWaits_stored (hw : NothingWaits s) : NothingWaits (stored i c m s) := by
  have hcounted := (changesOnly_of_counted h (memUse m 1)).nothingWaits (by simp) hw
  have hstored := nothingWaits_of_storesOnly (storesOnly_storeLanes i c m _) hcounted
  exact (ChangesOnly.of_advance (rs := []) c _).nothingWaits (by simp) hstored

theorem tuft_stored_other {u : Nat} (hu : u ≠ c.t) : tuft (stored i c m s) u = tuft s u := by
  have hstores : (storeLanes i c m (counted i c (memUse m 1) s)).tufts = (counted i c (memUse m 1) s).tufts :=
    congrArg (·.tufts) (storesOnly_storeLanes i c m _)
  rw [stored, (ChangesOnly.of_advance (rs := []) c _).tufts u hu, tuft, hstores]
  exact (changesOnly_of_counted h (memUse m 1)).tufts u hu

/-- A byte reads after a store, once its writes are in memory, as the lanes left it. -/
theorem readByte_left_stored (hs : Sound s) (x : Nat) :
    readByte (leftBare s (stored i c m s)) x = readByte (storeLanes i c m (counted i c (memUse m 1) s)) x := by
  have hstores : (storeLanes i c m (counted i c (memUse m 1) s)).mem = (counted i c (memUse m 1) s).mem :=
    congrArg (·.mem) (storesOnly_storeLanes i c m _)
  have hcounted : (counted i c (memUse m 1) s).mem = s.mem := congrArg (·.mem) (changesOnly_of_counted h (memUse m 1)).rest
  obtain ⟨hwf, _⟩ := hs
  exact readByte_committed hwf (hstores.trans hcounted) x

end

/-- Settles O56: each instruction's effect is issue, registers written and the path's advance, and each of these keeps the frame;
a store's lanes write at their own addresses. -/
theorem threadFrames : Obligations.ThreadFrames := by
  rintro s i c ⟨hs, hw⟩
  refine ⟨?integer, ?fp, ?compare, ?scalar, ?store⟩
  case integer =>
    intro op wide n hi hc
    obtain ⟨vs, u, hlanes, hrun⟩ := doIntegerOp_issues rfl hi hc
    have hframe := changesOnly_of_issue hi u (setLanes (iwDst (iw i)) n vs)
    have htasks := congrArg (·.tasks) (counted_work i c u s)
    obtain ⟨ps, qs, hg⟩ := groupGet_after_issue hi u (setLanes (iwDst (iw i)) n vs)
    have hvec := VectorsChange.of_setLanes (dst := iwDst (iw i)) (n := n) hlanes { c.g with paths := ps }
    exact ⟨_, _, onTuft_frame hi hrun hframe (by simp) hs hw, hframe.rest_of_tasks htasks,
      fun r v hv hr => hframe.regs r v hv (by simpa using hr), hframe.tufts, hframe.groups, hg, hvec.sregs, hvec.preds, hvec.vreg⟩
  case fp =>
    intro op dbl rnd n use hi hc
    obtain ⟨vs, u, hlanes, hrun⟩ := doFpOp_issues (rnd := rnd) rfl hi hc
    rw [writeLanes_eq] at hrun
    have hframe := changesOnly_of_issue_flags hi u (setLanes (iwDst (iw i)) n vs) (laneFlags vs)
    obtain ⟨ps, qs, hg⟩ := groupGet_after_issue_flags hi u (setLanes (iwDst (iw i)) n vs) (laneFlags vs)
    have hvec := VectorsChange.of_setLanes (dst := iwDst (iw i)) (n := n) hlanes { c.g with paths := ps }
    exact ⟨_, _, onTuft_frame hi hrun hframe (by simp) hs hw, hframe.rest,
      fun r v hv hr => hframe.regs r v hv (by simpa using hr), hframe.tufts, hframe.groups, hg, hvec.sregs, hvec.preds, hvec.vreg⟩
  case compare =>
    intro rel ty n hi hc
    obtain ⟨vs, u, hrun⟩ := doCompareOp_issues (rel := rel) rfl hi hc
    rw [writePred_eq] at hrun
    have hframe := changesOnly_of_issue_flags hi u (setPred c (iwDst (iw i)) vs) (laneFlags vs)
    obtain ⟨ps, qs, hg⟩ := groupGet_after_issue_flags hi u (setPred c (iwDst (iw i)) vs) (laneFlags vs)
    exact ⟨_, _, onTuft_frame hi hrun hframe (by simp) hs hw, hframe.rest,
      fun r v hv hr => hframe.regs r v hv (by simpa using hr), hframe.tufts, hframe.groups, hg, rfl, rfl,
      fun p hp => predReg_setPred_other hp c vs { c.g with paths := ps }⟩
  case scalar =>
    intro op wide hi hc
    obtain ⟨v, u, hrun⟩ := doScalarOp_issues (wide := wide) hi hc
    have hframe := changesOnly_of_issue hi u (setSreg (iwDst (iw i)) v)
    have htasks := congrArg (·.tasks) (counted_work i c u s)
    obtain ⟨ps, qs, hg⟩ := groupGet_after_issue hi u (setSreg (iwDst (iw i)) v)
    exact ⟨_, _, onTuft_frame hi hrun hframe (by simp) hs hw, hframe.rest_of_tasks htasks,
      fun r v hv hr => hframe.regs r v hv (by simpa using hr), hframe.tufts, hframe.groups, hg, rfl, rfl,
      fun r hr => sreg_setSreg_other hr v { c.g with paths := ps }⟩
  case store =>
    intro size signed m n as hi hc
    have hrun := doStoreAccess_issues rfl rfl hi hc
    have hleft : left s (stored i c m s) = leftBare s (stored i c m s) := left_of_nothingWaits s (nothingWaits_stored hi m hw)
    have hcounted := changesOnly_of_counted hi (memUse m 1)
    refine ⟨leftBare s (stored i c m s), (onTuft_issues hi hrun).trans (congrArg _ hleft), fun u hu => tuft_stored_other hi m hu,
      fun x hx => ?_, fun l hl hlive => ?_⟩
    · rw [readByte_left_stored hi m hs, readByte_storeLanes_other hx, hcounted.readByte]
    · rw [storeNum, readNum_congr (readByte_left_stored hi m hs)]
      exact storeNum_storeLanes_single hl fun x hx => (hcounted.deadAddr _).trans (hlive x hx)

end Sys2Proof
end

section
/-! PROOFS. Rounding: what the draw and SUBN bear on; then O46 and O47. -/
namespace Sys2Proof.Machine

/-! ## Stochastic rounding (R57) -/

theorem roundsUp_of_ne_sr {mode : RMode} (h : mode ≠ .sr) (neg : Bool) (n rem scale : Nat) (sticky : Bool) (draw other : Nat) :
    roundsUp mode neg n rem scale sticky draw = roundsUp mode neg n rem scale sticky other := by
  cases mode with
  | sr => exact absurd rfl h
  | _ => rfl

/-- The mode a result in a format is rounded by. -/
def modeIn (f : Fmt) (a : Arith) : RMode := if a.rmode = .sr ∧ !srFmt f then .rne else a.rmode

/-- Rounding depends on the arithmetic by the format's mode, SUBN and strictness, and on the draw under SR alone. -/
theorem roundFin_congr {f : Fmt} {a b : Arith} (hmode : modeIn f a = modeIn f b) (hsr : modeIn f b ≠ .sr)
    (hsubn : a.subn = b.subn) (hstrict : a.strict = b.strict) (draw other : Nat) (neg : Bool) (m : Nat) (e : Int)
    (sticky : Bool) : roundFin f a draw neg m e sticky = roundFin f b other neg m e sticky := by
  unfold modeIn at hmode hsr
  simp only [roundFin, hmode, hsubn, hstrict, roundsUp_of_ne_sr hsr _ _ _ _ _ draw other]

theorem modeIn_of_ne_sr {a : Arith} (h : a.rmode ≠ .sr) (f : Fmt) : modeIn f a = a.rmode := if_neg fun hsr => h hsr.1

theorem srFmt_iff (f : Fmt) : srFmt f = true ↔ f = .xf16 ∨ f = .xf8a ∨ f = .xf8b ∨ f = .xf6 ∨ f = .xf4 := by
  cases f <;> simp [srFmt]

/-- `roundInt` takes SR for RNE. -/
theorem convertInt_sr (w : Nat) (strict : Bool) (x : Num) : convertInt w strict .sr x = convertInt w strict .rne x := by
  cases x with
  | nan _ => rfl
  | inf _ => rfl
  | fin neg m e => rfl

/-! ## Subnormal inputs (R69) -/

/-- The formats of the architecture that SUBN governs. -/
abbrev SubnGoverns (f : Fmt) : Prop := f = .fp32 ∨ f = .fp64 ∨ f = .xf16

theorem subnFmt_of_governs {f : Fmt} (h : SubnGoverns f) : subnFmt f = true := by
  obtain rfl | rfl | rfl := h <;> rfl

theorem hasInf_of_governs {f : Fmt} (h : SubnGoverns f) : hasInf f = true := by
  obtain rfl | rfl | rfl := h <;> rfl

theorem noNegZero_of_governs {f : Fmt} (h : SubnGoverns f) : noNegZero f = false := by
  obtain rfl | rfl | rfl := h <;> rfl

theorem decodeNum_subnormal {f : Fmt} (h : SubnGoverns f) {bits : Nat}
    (he : bitsOf bits (expBits f + manBits f - 1) (manBits f) = 0) (hm : bits % 2 ^ manBits f ≠ 0) (keep : Bool) :
    decodeNum f keep bits =
      let neg := bitsOf bits (expBits f + manBits f) (expBits f + manBits f) == 1
      if keep then (.fin neg (bits % 2 ^ manBits f) (1 - (fmtBias f : Int) - (manBits f : Int)), 0) else (.fin neg 0 0, fFZ) := by
  have hint : isInt f = false := by obtain rfl | rfl | rfl := h <;> rfl
  have htop : 0 ≠ 2 ^ expBits f - 1 := by obtain rfl | rfl | rfl := h <;> decide
  cases keep <;> simp [decodeNum, hint, he, hm, htop, subnFmt_of_governs h]

theorem decodeNum_keep_of_not_subnormal (f : Fmt) {bits : Nat}
    (h : bitsOf bits (expBits f + manBits f - 1) (manBits f) ≠ 0 ∨ bits % 2 ^ manBits f = 0) :
    decodeNum f false bits = decodeNum f true bits := by
  obtain he | hm := h
  · simp only [decodeNum, he, if_false]
  · simp only [decodeNum, hm, if_true]

theorem decodeNum_keep_of_not_subnFmt {f : Fmt} (h : subnFmt f = false) (bits : Nat) :
    decodeNum f false bits = decodeNum f true bits := by
  simp only [decodeNum, h, Bool.false_and]

/-! ## Subnormal results (R69) -/

/-- The code and flags of `n` units of 2^q, `flags` raised unless the result is flushed or overflows. -/
def placeUnits (f : Fmt) (keep strict : Bool) (mode : RMode) (neg : Bool) (n : Nat) (q : Int) (flags : Nat) : Nat × Nat :=
  let sgn := bit neg * 2 ^ (expBits f + manBits f)
  if n = 0 then (if noNegZero f then 0 else sgn, flags)
  else if n < 2 ^ manBits f then
    if subnFmt f && !keep then (sgn, fFZ + (if strict then fUF + fIX else 0)) else (sgn + n, flags)
  else
    let code := ((q - (1 - (fmtBias f : Int) - manBits f)).toNat + 1) * 2 ^ manBits f + (n - 2 ^ manBits f)
    if maxCode f false < code then overflowCode f mode neg strict else (sgn + code, flags)

/-- The exponent of a result's units: that of its last mantissa bit, no smaller than a subnormal's. -/
def unitExp (f : Fmt) (m : Nat) (e : Int) : Int :=
  (if leadExp m e < 1 - (fmtBias f : Int) then 1 - (fmtBias f : Int) else leadExp m e) - manBits f

/-- Units of 2^q, rounded. -/
def roundedUnits (mode : RMode) (draw : Nat) (neg : Bool) (m : Nat) (e q : Int) (sticky : Bool) : Nat :=
  let v := toUnits m e q
  v.1 + bit (roundsUp mode neg v.1 v.2.1 v.2.2 sticky draw)

/-- The flags of a rounded result that is not flushed and does not overflow. -/
def roundFlags (f : Fmt) (mode : RMode) (strict : Bool) (draw : Nat) (neg : Bool) (m : Nat) (e : Int) (sticky : Bool) : Nat :=
  let k := leadExp m e
  let emin : Int := 1 - (fmtBias f : Int)
  let tiny := k < emin && !(roundedUnits mode draw neg m e (k - manBits f) sticky == 2 ^ (manBits f + 1) && k + 1 == emin)
  let inexact := (toUnits m e (unitExp f m e)).2.1 != 0 || sticky
  (if strict && inexact then fIX else 0) + (if strict && inexact && tiny then fUF else 0)

theorem roundFin_places (f : Fmt) (a : Arith) (draw : Nat) (neg : Bool) {m : Nat} (hm : m ≠ 0) (e : Int) (sticky : Bool) :
    roundFin f a draw neg m e sticky = placeUnits f a.subn a.strict (modeIn f a) neg
      (roundedUnits (modeIn f a) draw neg m e (unitExp f m e) sticky) (unitExp f m e)
      (roundFlags f (modeIn f a) a.strict draw neg m e sticky) :=
  if_neg hm

theorem roundFin_zero_keep (f : Fmt) (a : Arith) (draw : Nat) (neg : Bool) (e : Int) (sticky keep : Bool) :
    roundFin f { a with subn := keep } draw neg 0 e sticky =
      (if noNegZero f then 0 else bit neg * 2 ^ (expBits f + manBits f), 0) :=
  rfl

theorem placeUnits_of_not_subnFmt {f : Fmt} (h : subnFmt f = false) (keep : Bool) :
    placeUnits f keep = placeUnits f true := by
  funext strict mode neg n q flags
  simp only [placeUnits, h, Bool.false_and]

theorem roundFin_keep_of_not_subnFmt {f : Fmt} (h : subnFmt f = false) (a : Arith) (draw : Nat) (neg : Bool) (m : Nat) (e : Int)
    (sticky : Bool) :
    roundFin f { a with subn := false } draw neg m e sticky = roundFin f { a with subn := true } draw neg m e sticky := by
  by_cases hm : m = 0
  · rw [hm, roundFin_zero_keep, roundFin_zero_keep]
  · rw [roundFin_places _ _ _ _ hm, roundFin_places _ _ _ _ hm, placeUnits_of_not_subnFmt h]
    rfl

/-- The exponent and mantissa fields of a code. -/
def magField (f : Fmt) (code : Nat) : Nat := code % 2 ^ (expBits f + manBits f)

theorem magField_sign (f : Fmt) (neg : Bool) {x : Nat} (hx : x < 2 ^ (expBits f + manBits f)) :
    magField f (bit neg * 2 ^ (expBits f + manBits f) + x) = x := by
  rw [magField, Nat.mul_add_mod_self_right, Nat.mod_eq_of_lt hx]

theorem maxCode_lt {f : Fmt} (h : SubnGoverns f) : maxCode f false < 2 ^ (expBits f + manBits f) := by
  obtain rfl | rfl | rfl := h <;> decide

theorem infCode_normal {f : Fmt} (h : SubnGoverns f) (neg : Bool) : 2 ^ manBits f ≤ magField f (infCode f neg) := by
  obtain rfl | rfl | rfl := h <;> cases neg <;> decide

theorem maxCode_normal {f : Fmt} (h : SubnGoverns f) (neg : Bool) : 2 ^ manBits f ≤ magField f (maxCode f neg) := by
  obtain rfl | rfl | rfl := h <;> cases neg <;> decide

/-- An overflow gives an infinity or the largest magnitude, no subnormal. -/
theorem overflowCode_normal {f : Fmt} (h : SubnGoverns f) (mode : RMode) (neg strict : Bool) :
    2 ^ manBits f ≤ magField f (overflowCode f mode neg strict).1 := by
  simp only [overflowCode, hasInf_of_governs h, if_true]
  cases mode with
  | rz => exact maxCode_normal h neg
  | rd =>
    cases neg with
    | false => exact maxCode_normal h false
    | true => exact infCode_normal h true
  | ru =>
    cases neg with
    | false => exact infCode_normal h false
    | true => exact maxCode_normal h true
  | rne => exact infCode_normal h neg
  | sr => exact infCode_normal h neg
  | rmm => exact infCode_normal h neg

/-- What SUBN does to a result: where the code kept is subnormal, the result flushed is a zero of its sign with FZ; every other
result is the same. -/
def FlushedOf (f : Fmt) (neg : Bool) (kept flushed : Nat × Nat) : Prop :=
  if 0 < magField f kept.1 ∧ magField f kept.1 < 2 ^ manBits f then
    flushed.1 = bit neg * 2 ^ (expBits f + manBits f) ∧ flushed.2 &&& fFZ ≠ 0
  else flushed = kept

theorem flushedOf_normal {f : Fmt} {r : Nat × Nat} (h : magField f r.1 = 0 ∨ 2 ^ manBits f ≤ magField f r.1) (neg : Bool) :
    FlushedOf f neg r r := by
  rw [FlushedOf, if_neg (by omega)]

theorem magField_zero (f : Fmt) (neg : Bool) : magField f (bit neg * 2 ^ (expBits f + manBits f)) = 0 :=
  magField_sign f neg (Nat.two_pow_pos _)

theorem flush_raises_fz (strict : Bool) : (fFZ + if strict then fUF + fIX else 0) &&& fFZ ≠ 0 := by cases strict <;> decide

theorem placeUnits_flushed {f : Fmt} (h : SubnGoverns f) (strict : Bool) (mode : RMode) (neg : Bool) (n : Nat) (q : Int)
    (flags : Nat) :
    FlushedOf f neg (placeUnits f true strict mode neg n q flags) (placeUnits f false strict mode neg n q flags) := by
  have hmax := maxCode_lt h
  simp only [placeUnits, subnFmt_of_governs h, noNegZero_of_governs h, Bool.not_true, Bool.not_false, Bool.and_true,
    Bool.and_false, Bool.false_eq_true, if_false, if_true]
  split
  · exact flushedOf_normal (.inl (magField_zero f neg)) neg
  · split
    · rename_i hn0 hn
      have hfield : magField f (bit neg * 2 ^ (expBits f + manBits f) + n) = n :=
        magField_sign f neg (Nat.lt_of_lt_of_le hn (Nat.pow_le_pow_right (by decide) (Nat.le_add_left _ _)))
      rw [FlushedOf, if_pos (by rw [hfield]; omega)]
      exact ⟨rfl, flush_raises_fz strict⟩
    · split
      · exact flushedOf_normal (.inr (overflowCode_normal h mode neg strict)) neg
      · rename_i hcode
        refine flushedOf_normal (.inr ?_) neg
        rw [magField_sign f neg (Nat.lt_of_le_of_lt (Nat.le_of_not_lt hcode) hmax), Nat.add_one_mul]
        omega

theorem roundFin_flushed {f : Fmt} (h : SubnGoverns f) (a : Arith) (draw : Nat) (neg : Bool) (m : Nat) (e : Int) (sticky : Bool) :
    FlushedOf f neg (roundFin f { a with subn := true } draw neg m e sticky)
      (roundFin f { a with subn := false } draw neg m e sticky) := by
  by_cases hm : m = 0
  · rw [hm, roundFin_zero_keep, roundFin_zero_keep, noNegZero_of_governs h]
    exact flushedOf_normal (.inl (magField_zero f neg)) neg
  · rw [roundFin_places _ _ _ _ hm, roundFin_places _ _ _ _ hm]
    exact placeUnits_flushed h a.strict (modeIn f a) neg _ _ _

end Sys2Proof.Machine

namespace Sys2Proof

open Sys2Proof.Machine

/-- Settles O46: rounding takes its mode from `modeIn`, which is SR in the XF formats alone, and the draw bears on SR alone. -/
theorem stochasticRounding : Obligations.StochasticRounding := by
  intro a draw other neg sticky m e
  refine ⟨srFmt_iff, fun f hf => ?fp, fun width x => convertInt_sr width a.strict x, fun f hsr => ?draw⟩
  case fp =>
    have hmode : modeIn f { a with rmode := .sr } = .rne := by obtain rfl | rfl := hf <;> rfl
    have hrne : modeIn f { a with rmode := .rne } = .rne := modeIn_of_ne_sr (by simp) f
    exact roundFin_congr (hmode.trans hrne.symm) (by simp [hrne]) rfl rfl draw other neg m e sticky
  case draw =>
    exact roundFin_congr rfl (by rwa [modeIn_of_ne_sr hsr]) rfl rfl draw other neg m e sticky

/-- Settles O47: SUBN is read where a subnormal is decoded or placed, and only for the formats it governs. -/
theorem subnormalHandling : Obligations.SubnormalHandling := by
  intro f
  refine ⟨?input, ?otherInput, ?result, ?otherFormats⟩
  case input =>
    rintro bits m neg hf ⟨he, hm⟩
    exact ⟨decodeNum_subnormal hf he hm false, decodeNum_subnormal hf he hm true⟩
  case otherInput =>
    exact fun bits _ h => decodeNum_keep_of_not_subnormal f h
  case result =>
    exact fun a draw neg sticky m e hf => roundFin_flushed hf a draw neg m e sticky
  case otherFormats =>
    intro a draw bits neg sticky m e hf
    have hsubn : subnFmt f = false := by obtain rfl | rfl | rfl | rfl := hf <;> rfl
    exact ⟨decodeNum_keep_of_not_subnFmt hsubn bits, roundFin_keep_of_not_subnFmt hsubn a draw neg m e sticky⟩

end Sys2Proof
end

section
/-! PROOFS. The matrix array of a Tuft: issue, starts, shadow loads, completion, changes of mode, failed checks and the foot,
each effect under its conditions; then O4. -/
namespace Sys2Proof.Machine

/-! ## Issue and starts (R93, R96) -/

theorem doMatrixIssue_issues {i : Issue} {c : ICtx} {s : State} (h : Issues 11 i c s)
    (hc : NoneFails (useChecks i c { sa := true } ++ descChecks i c 64)) :
    doMatrixIssue i s =
      if mxRoom (counted i c { sa := true } s) c.t (descAt i c 64 (counted i c { sa := true } s)) then
        mxEnqueue c.t c.task.id (BitVec.ofNat 512 (descAt i c 64 (counted i c { sa := true } s)))
          (advance c (counted i c { sa := true } s))
      else parkPath c c.pc .queue (counted i c { sa := true } s) := by
  rw [doMatrixIssue, issueOp_issues (use := fun _ _ => { sa := true }) (checks := fun c _ => descChecks i c 64) h hc]

theorem mxHeadCode_running {t : Nat} {s : State} {o : MxOp} {r : TaskRec} (htask : mxTask s o = some r)
    (hrun : r.phase = .running) :
    mxHeadCode s t o = some (lowestCode (mxChecks o.d (tkLimit r.d) (tkJoin r.d) (t % 4 == 0))) := by
  simp only [mxHeadCode, htask, hrun, bne_self_eq_false, Bool.false_eq_true, if_false]

theorem mxStart_goes {t quad : Nat} {s : State} {o : MxOp}
    (hhead : (mxGet s t).queue.find? (fun o => mxKey o.d == quad) = some o) (hcode : mxHeadCode s t o = some none)
    (hfree : mxMustWait (mxGet s t) o = false) (hmode : mxModeOn s t o = true)
    (hport : tget (mxGet s t).loading quad = none) : mxStart t quad s = mxGo t o s := by
  simp only [mxStart, hhead, hcode]
  exact if_neg (by simp [hfree, hmode, hport])

/-! ## Shadow loads (R99) -/

/-- The array once the last load of an operation is done: the set `w` it loaded is active, the one that was is the shadow. -/
def lastLoaded (quad st : Nat) (w old : WSet) (o : MxOp) (m : MxTuft) : MxTuft :=
  { m with
    active := tput m.active quad w
    shadow := tput m.shadow quad old
    running := m.running.map (fun e => if e.stamp == st then { o with loads := 0, wset := some w } else e)
    loading := tdel m.loading quad
    loadQ := m.loadQ.drop 1 }

theorem mxLoadDone_last {t quad st : Nat} {s : State} {o : MxOp} (hload : tget (mxGet s t).loading quad = some st)
    (hop : (mxGet s t).running.find? (fun o => some st == some o.stamp) = some o)
    (hport : (mxGet s t).loadQ.head? = some quad) (hmeta : mxMetaOk s t o.d = true) (hone : oneSet o.d = true)
    (hlast : o.loads = 1) :
    mxLoadDone t quad s =
      mxSet t (lastLoaded quad st (mxLoaded s t o.d) (tgetD (mxGet s t).active quad {}) o) (bump mxCountsLoads t 1 s) := by
  have hleft : o.loads - 1 = 0 := by rw [hlast]
  simp only [mxLoadDone, hload, hop, hport, hmeta, hone, hleft, bne_self_eq_false, Bool.not_true, Bool.false_eq_true, if_false,
    if_true, List.append_nil]
  rfl

/-! ## Completion (R111) -/

/-- A running operation ends with the writes and flags `res`: poison that it read keeps the flags from its task (R73). -/
def mxEnds (t : Nat) (o : MxOp) (res : List StoreWrite × Nat) (s : State) : State :=
  let wrote := applyWrites (mxLead t o.d) res.1 (mxPoison s t o) s
  let flagged := if mxPoison s t o then wrote else (mxTufts t o.d).foldl (fun u x => taskFlags o.task x res.2 u) wrote
  finishAborted o.task (arrive (mxLead t o.d) (mxArrive o.d) (bump mxCountsOps t 1 (mxLeave t o.stamp flagged)))

theorem mxComplete_writes {t quad wait : Nat} {s : State} {o : MxOp}
    (hop : (mxGet (bump tsCountsStoreWait t wait s) t).running.find? (fun o => mxKey o.d == quad) = some o)
    (hloads : o.loads = 0) (hhanded : mxHanded o = true) (hve : mxOutVe o.d = false) :
    mxComplete t quad wait s =
      mxEnds t o (mxWrites o.d (mxArith (bump tsCountsStoreWait t wait s) o) s.ob.job.seed
        (mxMem (bump tsCountsStoreWait t wait s) (mxLead t o.d) o)) (bump tsCountsStoreWait t wait s) := by
  simp only [mxComplete, hop, hloads, hhanded, hve, bne_self_eq_false, Bool.not_true, Bool.or_self, Bool.false_eq_true, if_false]
  rfl

/-! ## Mode changes and failed checks (R92, R113) -/

theorem mxModeChange_enters {t : Nat} {s : State} {o : MxOp} {rest : List MxOp} (hcode : mxHeadCode s t o = some none)
    (hhead : (mxGet s t).queue = o :: rest) (hmode : mxModeOn s t o = false)
    (hidle : (mxTufts t o.d).all (fun x => (mxGet s x).running.isEmpty && (x == t || (mxGet s x).queue.isEmpty)) = true) :
    mxModeChange t s = (mxTufts t o.d).foldl (fun u x => mxSet x (mxTakeMode (mxMode o.d)) u) s := by
  simp only [mxModeChange, hhead]
  exact if_pos (by simp only [hcode, hmode, hidle]; rfl)

theorem mxWorking_own {t quad : Nat} {s : State} {o : MxOp}
    (hop : (mxGet s t).running.find? (fun o => mxKey o.d == quad) = some o) : mxWorking s t quad = some (t, o) := by
  simp only [mxWorking, hop]

/-- The parts of C that an operation writes, poisoned on every Tuft it works on. -/
def mxPoisonOut (t : Nat) (o : MxOp) (s : State) : State :=
  (List.range (mxTufts t o.d).length).foldl (fun u j =>
    (regionsCOn o.d j).foldl (fun u r => poisonRange (storeKey (mxLead t o.d + j) r.1) r.2 u) u) s

theorem mxCheckFail_own {t quad : Nat} {parity : Bool} {s : State} {o : MxOp}
    (hop : (mxGet s t).running.find? (fun o => mxKey o.d == quad) = some o) (hords : o.ords = []) (hve : mxOutVe o.d = false) :
    mxCheckFail t quad parity s =
      finishAborted o.task (abortTask o.task (if parity then 0x0431 else 0x0430) (mxLeave t o.stamp
        (pendErr { level := lvTuft, unit := t, reason := if parity then 0x0431 else 0x0430, cls := 0x01 }
          (bumpSat mxCountsCheckErrs t 1 (setF mxStatusCheckErr (4 * t + quad) 1 (mxPoisonOut t o s)))))) := by
  simp only [mxCheckFail, mxWorking_own hop, hords, hve, List.map_nil, List.foldl_nil, Bool.false_eq_true, if_false]
  rfl

/-! ## The foot (R177) -/

theorem veTakeBlock_empty {t : Nat} {s : State} (h : (tuft s t).ve.buf = none) : veTakeBlock t s = s := by
  unfold veTakeBlock
  simp only [h]
  cases (tuft s t).ve.running <;> rfl

/-- An operation that has handed one block more to Tuft `t`, with the flags the block raised. -/
def handedOne (t : Nat) (bad : Bool) (flags : Nat) (o : MxOp) : MxOp :=
  { o with handed := tput o.handed t (tgetD o.handed t 0 + 1), flags := if bad then o.flags else o.flags ||| flags }

/-- The next block of an operation for the engine of its own Tuft: its rows and the flags they raise. -/
def nextBlock (s : State) (t : Nat) (o : MxOp) : List (List Nat) × Nat :=
  let b := mxBlock t o.d (tgetD o.handed t 0)
  mxRows o.d (mxArith s o) s.ob.job.seed (mxMem s (mxLead t o.d) o) b.1 b.2.1 b.2.2.1 b.2.2.2

theorem footHandover_gives {t quad wait : Nat} {s : State} {o : MxOp} {r : TaskRec} {c : VeChain}
    (hbuf : (tuft s t).ve.buf = none)
    (hop : (mxGet s t).running.find? (fun o => mxOutVe o.d && mxKey o.d == quad && o.loads == 0 &&
      (tget o.ords t).isSome && tgetD o.handed t 0 < mxBlockCount o.d) = some o)
    (htask : taskGet s o.task = some r) (hchain : chainByOrd s t (tgetD o.ords t 0) = some c)
    (hshape : (veM c.desc.toNat, veN c.desc.toNat) = mxShape t o.d) (hfirst : ordBefore s t (tgetD o.ords t 0) = false) :
    footHandover t quad wait s =
      mxSet t (fun m => { m with running := m.running.map (fun e =>
          if e.stamp == o.stamp then handedOne t (mxPoison s t o) (nextBlock s t o).2 e else e) })
        (modTuft t (fun y => { y with ve := { y.ve with
            buf := some (tgetD o.ords t 0, mxFmtC o.d, (nextBlock s t o).1, mxPoison s t o) } })
          (bump veCountsFootWait t wait s)) := by
  simp only [footHandover, veTakeBlock_empty hbuf, hop, htask, hchain, hshape, hbuf, hfirst, bne_self_eq_false, Option.isSome_none,
    Bool.or_self, Bool.false_eq_true, if_false]
  rfl

end Sys2Proof.Machine

namespace Sys2Proof

open Sys2Proof.Machine

/-- Settles O4: each event's effect under its conditions, in the order of R93, R96, R99, R111, R92, R113 and R177. -/
theorem matrixEngine : Obligations.MatrixEngine := by
  intro s
  refine ⟨?queues, ?parks, ?starts, ?loads, ?completes, ?mode, ?check, ?foot⟩
  case queues =>
    exact fun i c hi hc hroom => onTuft_issues hi ((doMatrixIssue_issues hi hc).trans (if_pos hroom))
  case parks =>
    exact fun i c hi hc hfull => onTuft_issues hi ((doMatrixIssue_issues hi hc).trans (if_neg (Bool.eq_false_iff.mp hfull)))
  case starts =>
    intro t quad o r _ hr hhead hfree hmode hport htask hrun hcheck
    have hcode : mxHeadCode s t.val o = some none := (mxHeadCode_running htask hrun).trans (congrArg some hcheck)
    exact onTuft_leaves hr (mxStart_goes hhead hcode hfree hmode hport)
  case loads =>
    exact fun t quad o st hr hload hop hport hmeta hone hlast =>
      onTuft_leaves hr (mxLoadDone_last hload hop hport hmeta hone hlast)
  case completes =>
    exact fun t quad waited o hr hop hloads hhanded hve => onTuft_leaves hr (mxComplete_writes hop hloads hhanded hve)
  case mode =>
    exact fun t o rest hcode hr hhead hmode hidle => onTuft_leaves hr (mxModeChange_enters hcode hhead hmode hidle)
  case check =>
    exact fun t quad parity o hr hop hords hve => onTuft_leaves hr (mxCheckFail_own hop hords hve)
  case foot =>
    exact fun t quad waited o r c hr hbuf hop htask hchain hshape hfirst =>
      onTuft_leaves hr (footHandover_gives hbuf hop htask hchain hshape hfirst)

end Sys2Proof
end

section
/-! PROOFS. Exchange entries that an invalidation made stale: such an entry is translated again before it moves a row, so O9, which
moves a row of every entry that moves, fails. -/
namespace Sys2Proof.Machine

/-- A stale DISPATCH entry that moves is translated again (R332); it moves no row. -/
theorem dispatchStep_of_stale {id : Nat} {s : State} {e : CopyEnt} {c : CopyRec} (he : entGet s id = some e)
    (hc : copyGet s e.copy = some c) (hop : cpOp c.desc.toNat = 2) (hgoes : e.stalled = false ∧ e.spent = false)
    (hmoving : e.moving = true) (hstale : e.stale = true) (fresh : Bool) (refuse : Nat) :
    dispatchStep id fresh refuse s = rerun e c s := by
  obtain ⟨hstalled, hspent⟩ := hgoes
  simp only [dispatchStep, he, hc, hop, hstalled, hspent, hstale, hmoving]
  rfl

/-! ## A module with a stale entry -/

/-- A DISPATCH of one row of 64 bytes to expert 0, which is at rank 5; the segment's start is known. -/
def staleRec : CopyRec :=
  { id := 0, sward := 0, sub := .tuft 0, owner := .task 1, desc := BitVec.ofNat 512 (packBits [(2, 139), (0x3000, 391), (64, 200)])
    block := packBits [(64, 384), (3, 424), (3, 432)], offs := [0, 1], ranks := [(0, 5)], starts := [(0, 0)] }

/-- Its entry, which was moving when an invalidation made it stale. -/
def staleEnt : CopyEnt := { id := 0, copy := 0, first := true, pieces := [], moving := true, stale := true }

/-- The module with that entry in the queue of Sward 0: the page at 0 is in the translation buffers again, and the lists of the
invocation stand there. -/
def staleExchange : State :=
  { State.reset with
    elec.input := true
    xl.units := [(0, { sward := [(0, [{ va := 0, size := 4096, pa := 0, r := true, w := true, x := true }])] })]
    copies := { recs := [staleRec], ents := [staleEnt], nextId := 1 }
    stile.lists := [(0, 0, 0, BitVec.ofNat 512 (packBits [(1, 12)]))] }

/-- The state that a read of translated memory leaves. -/
def VRes.state : VRes → State
  | .ok _ _ s => s
  | .stall s => s
  | .fail _ s => s

/-- The states after the list entry and after the row have been read. -/
def staleListRead : State := (vreads (exAccess staleExchange staleRec) [(128 + offsBytes 4096, 8)] staleExchange).state
def staleRowRead : State := (vreads (exAccess staleExchange staleRec) [(0, 64)] staleListRead).state

/-- The rows that each entry of a queue has moved. -/
def rowsMoved (s : State) : List Nat := s.copies.ents.map (·.next)

end Sys2Proof.Machine

namespace Sys2Proof

open Sys2Proof.Machine

/-- An effect on an entry of a copy queue, where the Meadow of its engine takes steps. -/
theorem onEntry_leaves {id : Nat} {f : State → State} {s u : State} {e : CopyEnt} {c : CopyRec} (hr : DieRuns s (c.sward / 16))
    (he : entGet s id = some e) (hc : copyGet s e.copy = some c) (h : f s = u) : onEntry id f s = .next (left s u) := by
  have hmeadow : entMeadow s id = c.sward / 16 := by simp only [entMeadow, he, hc]
  rw [onEntry, onMeadow_up (hmeadow.symm ▸ hr), h]

/-- The module's DISPATCH is translated again and has moved no row. -/
theorem dispatch_staleExchange :
    exec (.dispatch 0 false false) staleExchange = .next (left staleExchange (rerun staleEnt staleRec staleExchange)) :=
  onEntry_leaves (by decide +kernel) rfl rfl
    (dispatchStep_of_stale rfl rfl (by decide +kernel) ⟨rfl, rfl⟩ rfl rfl false (refusedBy false))

theorem rowsMoved_left {s t : State} (h : NothingWaits t) : rowsMoved (left s t) = rowsMoved t := by
  rw [left_of_nothingWaits s h]
  rfl

/-- Refutes O9: a DISPATCH entry that an invalidation made stale meets every premise of the first clause, which does not ask for
`stale = false`, and it is translated again (R332) where the clause has it move a row. -/
theorem not_exchangeSteps : ¬ Obligations.ExchangeSteps := by
  intro h
  obtain ⟨hdispatch, -⟩ := h staleExchange
  have hclaimed := hdispatch 0 staleEnt staleRec 0 1 0 0 4096 0 [0] [0] [[]] [[]] staleListRead staleRowRead
    (by decide +kernel) rfl rfl (by decide +kernel) (by decide +kernel) (by decide +kernel) (by decide +kernel) rfl
    (by decide +kernel) (by decide +kernel) (by decide +kernel)
  have hstates := Host.Outcome.next.inj (dispatch_staleExchange.symm.trans hclaimed)
  have hrows := congrArg rowsMoved hstates
  rw [rowsMoved_left (by decide +kernel), rowsMoved_left (by decide +kernel)] at hrows
  exact absurd hrows (by decide +kernel)

end Sys2Proof
end

section
/-! PROOFS. Lifts that a bound task waits for: the manager begins one in the Sward that frees soonest alone (R150), so O10, which
begins it in every Sward, fails. -/
namespace Sys2Proof.Machine

/-- No lift begins in a Sward where no hint asks for the unit and every task that waits is free to go where space is sooner. -/
theorem liftStart_of_space_elsewhere {sw region unit : Nat} {s : State}
    (hhint : s.res.wanted.contains (unitKey region unit) = false) (hfree : ∀ r ∈ s.work.tasks, fixedSward s r.d = none) (hlater : freesSoonest s sw region = false) :
    liftStart sw region unit s = s := by
  have htasks : s.work.tasks.any
      (fun r => waitsFor s sw region unit r && ((fixedSward s r.d).isSome || freesSoonest s sw region)) = false := by
    refine List.any_eq_false.mpr fun r hr => ?_
    simp only [hfree r hr, hlater, Option.isSome_none, Bool.or_self, Bool.and_false]
    exact Bool.false_ne_true
  exact if_neg (by rw [htasks, hhint]; decide)

/-! ## A module with space for a lift elsewhere -/

/-- An expert region of two units of 64 KiB, with a share of one unit in each Sward. -/
def sharedRegion : ExpertRegion :=
  { desc := BitVec.ofNat 512 (packBits [(0x100000, 455), (0x200000, 327), (1, 300), (1, 288), (64, 262)]) }

/-- A task that waits for unit 0 of region 0 and may be placed in any Sward. -/
def boundTask : TaskRec := { id := 1, graph := 0, node := 0, desc := BitVec.ofNat 1024 (packBits [(1, 835)]), prio := 0 }

/-- The module with that task, and with the share of Sward 0 taken by a replica of unit 1 that another task refers to. -/
def spaceElsewhere : State :=
  { State.reset with
    elec.input := true
    res.regions := [(0, sharedRegion)]
    res.reps := [(repKey 0 0 1, { st := .pooled, off := 0, refs := 1 })]
    work.tasks := [boundTask] }

end Sys2Proof.Machine

namespace Sys2Proof

open Sys2Proof.Machine

theorem unitLiftStart_spaceElsewhere :
    exec (.unitLiftStart 0 0 0) spaceElsewhere = .next (left spaceElsewhere spaceElsewhere) :=
  onSward_leaves (w := 0) (by decide +kernel)
    (liftStart_of_space_elsewhere (by decide +kernel) (by decide +kernel) (by decide +kernel))

/-- Refutes O10: with the share of Sward 0 taken and that of other Swards free, no lift begins in Sward 0 (R150), where the clause of
UNIT_LIFT_START, which does not ask that no Sward has space sooner, has one wait for space there. -/
theorem not_routerAndResidency : ¬ Obligations.RouterAndResidency := by
  intro h
  obtain ⟨_, _, _, _, _, _, hlift, _⟩ := h spaceElsewhere
  have hclaimed := hlift 0 0 0 (by decide +kernel) (by decide +kernel)
  have hstates := Host.Outcome.next.inj (unitLiftStart_spaceElsewhere.symm.trans hclaimed)
  have hwaiting := congrArg (·.res.waitingLifts) hstates
  exact absurd hwaiting (by decide +kernel)

end Sys2Proof
end

section
/-! PROOFS. Commands of jobs, graphs, sequences, buffers and expert regions: what each body comes to where its checks pass; then
O14. -/
namespace Sys2Proof.Machine

/-! ## Checks that pass -/

theorem checked_passes {codes : List (Option Nat)} (h : lowest codes = 0) (s : State) (go : Body) : checked codes s go = go :=
  if_neg (by rw [h]; decide)

/-! ## Jobs (R400, R401) -/

theorem jobDestroyBody_stops {s : State} (oc : OpenCmd) (h : s.ob.destroying = none) :
    jobDestroyBody oc s = .runs (jobStop { s with ob.destroying := some oc.id }) :=
  if_neg (by rw [h]; decide)

/-! ## Graphs (R402) -/

theorem doGraphSubmit_runs {c : Cmd} {s : State} (hroom : graphsFull c s = false) :
    doGraphSubmit c s = runWith (cmdOpcode c.words == 0x18) (graphResv c) graphBody c s :=
  if_neg (by rw [hroom, Bool.and_false]; exact Bool.false_ne_true)

/-- The graph in flight that a submitted graph becomes (R402). -/
def graphOf (oc : OpenCmd) (g : GraphRead) : GraphRec :=
  { id := oc.id, sq := doorSq oc.door, token := cmdToken oc.words, epoch := oc.epoch, prio := g.prio, cq := g.cq, nodes := g.nodes }

theorem graphBody_adds {oc : OpenCmd} {s t : State} {g : GraphRead} (hread : readGraph oc.epoch (wordAt oc.words 1) s = (g, t))
    (hcode : g.code = 0) : graphBody oc s = .runs { t with work.graphs := t.work.graphs ++ [graphOf oc g] } := by
  simp only [graphBody, hread, hcode]
  rfl

/-! ## Sequences (R156, R404) -/

theorem seqOpenBody_opens {oc : OpenCmd} {s : State} {i : Nat} (hen : flagSet s cqStateEn (wordBits oc.words 2 13 8) = true)
    (hfree : (List.range 512).find? (fun i => (seqGet s i).isNone) = some i) :
    seqOpenBody oc s =
      .ends (endDone i 0) { s with
        work.seqs := tput s.work.seqs i
          { kv := wordAt oc.words 1, prio := wordBits oc.words 2 7 0, cq := wordBits oc.words 2 13 8, stamp := s.work.clock }
        work.clock := s.work.clock + 1 } := by
  have hcodes : lowest [failIf (!flagSet s cqStateEn (wordBits oc.words 2 13 8)) 0x0104,
      failIf ((List.range 512).find? (fun i => (seqGet s i).isNone)).isNone 0x0156] = 0 := by
    rw [hen, hfree]
    rfl
  rw [seqOpenBody, checked_passes hcodes, hfree]
  rfl

/-- A sequence once it is closed: CLOSED while a task of it runs, gone where none does (R404). -/
def seqClosed (i : Nat) (e : SeqEnt) (s : State) : State :=
  if seqRuns i s then { s with work.seqs := tput s.work.seqs i { e with st := 6 } }
  else { s with work.seqs := tdel s.work.seqs i }

theorem seqCloseBody_closes {oc : OpenCmd} {s : State} {e : SeqEnt} (hseq : seqGet s (wordBits oc.words 1 8 0) = some e)
    (hopen : e.st ≠ 6) :
    seqCloseBody oc s =
      .ends (endDone (seqCancel (wordBits oc.words 1 8 0) s).1 0)
        (seqClosed (wordBits oc.words 1 8 0) e (seqCancel (wordBits oc.words 1 8 0) s).2) := by
  rw [seqCloseBody, hseq]
  exact if_neg hopen

/-! ## Named buffers (R229, R404) -/

/-- The checks of a buffer's name, size and number that pass, where `taken` says whether its name can be used. -/
theorem bufCodes_pass {taken : Bool} {s : State} {n : Nat} (hname : taken = false) (hsize : n ≤ poolMax s)
    (hcount : namedCount s < 4096) :
    lowest [failIf taken 0x0183, failIf (poolMax s < n) 0x0570, failIf (4096 ≤ namedCount s) 0x0571] = 0 := by
  rw [hname, decide_eq_false (Nat.not_lt.mpr hsize), decide_eq_false (Nat.not_le.mpr hcount)]
  rfl

theorem tryBuf_places {oc : OpenCmd} {s : State} {sw o : Nat} (hfresh : bufNamed s (wordBits oc.words 1 31 0) = none)
    (hsize : wordBits oc.words 2 10 0 + 1 ≤ poolMax s) (hcount : namedCount s < 4096)
    (hsward : bufSward s (bufPlace oc.words) = some sw) (hmeadow : meadowUp s (sw / 16) = true) (hup : swardUp s sw = true)
    (hfit : poolFit s sw (wordBits oc.words 2 10 0 + 1) = some o) :
    tryBuf oc s =
      some (endById oc.id (endDone (sw + o * 256) 0) { s with
        work.pool := s.work.pool ++
          [{ sward := sw, off := o, blocks := wordBits oc.words 2 10 0 + 1, name := some (wordBits oc.words 1 31 0) }] }) := by
  have hcodes := bufCodes_pass (taken := (bufNamed s (wordBits oc.words 1 31 0)).isSome) (by rw [hfresh]; rfl) hsize hcount
  simp only [tryBuf, hcodes, hsward, hmeadow, hup, hfit]
  rfl

theorem bufCreateBody_places {oc : OpenCmd} {s t : State} (hname : wordBits oc.words 1 31 0 ≠ 0)
    (hfresh : bufNamed s (wordBits oc.words 1 31 0) = none) (hsize : wordBits oc.words 2 10 0 + 1 ≤ poolMax s)
    (hcount : namedCount s < 4096) (htry : tryBuf oc s = some t) : bufCreateBody oc s = .runs t := by
  have htaken : (wordBits oc.words 1 31 0 == 0 || (bufNamed s (wordBits oc.words 1 31 0)).isSome) = false := by
    rw [beq_eq_false_iff_ne.mpr hname, hfresh]
    rfl
  have hcodes := bufCodes_pass htaken hsize hcount
  rw [bufCreateBody, checked_passes hcodes, htry]

theorem bufFreeBody_frees {oc : OpenCmd} {s : State} (h : bufNamed s (wordBits oc.words 1 31 0) ≠ none) :
    bufFreeBody oc s = .ends (endDone 0 0) (poolRelease (wordBits oc.words 1 31 0) s) :=
  if_neg fun hnone => h (Option.isNone_iff_eq_none.mp hnone)

/-! ## Expert regions (R145, R154, R404) -/

/-- The home map that a region's descriptor names, as it is read; a descriptor that names none has none (R145). -/
def homeMapRead (oc : OpenCmd) (d : Nat) (s : State) : Except Nat Nat × State :=
  if rgHomeMap d = 0 then (.ok 0, s) else cpRead oc.epoch (rgHomeMap d) (4 * rgUnits d) 0x0560 s

theorem eq_ok_of_toOption {α β : Type} {x : Except α β} {a : β} (h : x.toOption = some a) : x = .ok a := by
  cases x with
  | error e => exact absurd h.symm (Option.some_ne_none a)
  | ok b => exact congrArg Except.ok (Option.some.inj h)

theorem regionArmBody_arms {oc : OpenCmd} {s t u : State} {d m o : Nat} (halign : wordAt oc.words 1 % 64 = 0)
    (hdesc : cpRead oc.epoch (wordAt oc.words 1) 64 0x0560 s = (.ok d, t)) (hmap : homeMapRead oc d t = (.ok m, u))
    (hold : (tget u.res.regions (rgNumber d)).all (fun r => r.closing.isNone) = true)
    (hcodes : lowest (armCodes d (.ok m) u) = 0) (hplace : sharePlace u (rgShare d) = some o) :
    regionArmBody oc s = .ends (endDone 0 0) (regionMade d o (mapRanks m (rgUnits d)) u) := by
  unfold homeMapRead at hmap
  simp only [regionArmBody, halign, hdesc, hmap, checked_passes hcodes, hplace]
  cases htable : tget u.res.regions (rgNumber d) with
  | none => rfl
  | some r =>
    rw [htable] at hold
    have hopen : r.closing = none := Option.isNone_iff_eq_none.mp hold
    simp only [hopen]
    rfl

theorem regionQuiesceBody_closes {oc : OpenCmd} {s : State} {r : ExpertRegion}
    (hregion : tget s.res.regions (wordBits oc.words 1 3 0) = some r) (hopen : r.closing = none) (harmed : r.armed = true) :
    regionQuiesceBody oc s =
      .runs { s with res.regions := tput s.res.regions (wordBits oc.words 1 3 0) { r with closing := some (oc.id, false) } } := by
  simp only [regionQuiesceBody, hregion, hopen, harmed]
  rfl

theorem regionReleaseBody_closes {oc : OpenCmd} {s : State} {r : ExpertRegion}
    (hregion : tget s.res.regions (wordBits oc.words 1 3 0) = some r) (hopen : r.closing = none) :
    regionReleaseBody oc s =
      .runs { s with res.regions := tput s.res.regions (wordBits oc.words 1 3 0) { r with closing := some (oc.id, true) } } := by
  simp only [regionReleaseBody, hregion, hopen]
  rfl

end Sys2Proof.Machine

namespace Sys2Proof

open Sys2Proof.Machine

section
variable {op : Nat} {body : OpenCmd → State → Body} {c : Cmd} {s u : State}

/-- An accepted command whose body ends leaves its ending. -/
theorem accepted_ends {e : CmdEnd} (h : Accepts op c s) (hb : body (openOf c s) (startedAt c s) = .ends e u) :
    served s (runCmd op body c s) = .next (left s (endCmd (openOf c s) e u)) := by
  rw [served_powered h.1, runCmd_accepts h, hb]
  rfl

/-- An accepted command whose body runs on leaves the body's state. -/
theorem accepted_runs (h : Accepts op c s) (hb : body (openOf c s) (startedAt c s) = .runs u) :
    served s (runCmd op body c s) = .next (left s u) := by
  rw [served_powered h.1, runCmd_accepts h, hb]
  rfl

/-- A graph submitted where there is room for it runs on, its records reserved. -/
theorem submitted_runs (h : Accepts 0x18 c s (graphResv c s)) (hroom : graphsFull c s = false)
    (hb : graphBody (openOf c s (graphResv c s)) (startedAt c s (graphResv c s)) = .runs u) :
    served s (doGraphSubmit c s) = .next (left s u) := by
  have hop : (cmdOpcode c.words == 0x18) = true := beq_iff_eq.mpr h.2.1
  rw [served_powered h.1, doGraphSubmit_runs hroom, runWith_accepts h hop, hb]
  rfl

end

/-- Settles O14: each command is accepted and its checks pass, so it leaves what its body comes to. -/
theorem jobCommands : Obligations.JobCommands := by
  intro s c t oc
  refine ⟨?create, ?destroy, ?submit, ?cancel, ?seqOpen, ?seqClose, ?bufCreate, ?bufFree, ?arm, ?quiesce, ?release⟩
  case create => exact fun h hcodes => accepted_ends h (checked_passes hcodes _ _)
  case destroy => exact fun h hnone => accepted_runs h (jobDestroyBody_stops oc hnone)
  case submit =>
    intro want gt go r g u x h hroom hcode
    exact submitted_runs h hroom (graphBody_adds rfl hcode)
  case cancel => exact fun h => accepted_ends h rfl
  case seqOpen =>
    intro i e u h hen hfree
    exact accepted_ends h (seqOpenBody_opens hen hfree)
  case seqClose =>
    intro e i r u h hseq hopen
    exact accepted_ends h (seqCloseBody_closes hseq hopen)
  case bufCreate =>
    intro sw o name n p h ⟨hname, hfresh⟩ hsize hcount hsward ⟨hmeadow, hup⟩ hfit
    exact accepted_runs h (bufCreateBody_places hname hfresh hsize hcount
      (tryBuf_places hfresh hsize hcount hsward hmeadow hup hfit))
  case bufFree => exact fun h hnamed => accepted_ends h (bufFreeBody_frees hnamed)
  case arm =>
    intro d m o va r maps old h halign hdesc hmap hold hcodes hplace
    have hd : r = (.ok d, r.2) := Prod.ext (eq_ok_of_toOption hdesc) rfl
    have hm : maps = (.ok m, maps.2) := Prod.ext (eq_ok_of_toOption hmap) rfl
    exact accepted_ends h (regionArmBody_arms halign hd hm hold (eq_ok_of_toOption hmap ▸ hcodes) hplace)
  case quiesce =>
    intro r i h hregion ⟨hopen, harmed⟩
    exact accepted_runs h (regionQuiesceBody_closes hregion hopen harmed)
  case release =>
    intro r i h hregion hopen
    exact accepted_runs h (regionReleaseBody_closes hregion hopen)

end Sys2Proof
end

section
/-! PROOFS. The vector engine of a Tuft: issue, starts, completion and failed checks, each effect under its conditions; then O5. -/
namespace Sys2Proof.Machine

/-- A chain issue whose checks pass queues the chain, or parks its path where four wait already (R164). -/
theorem doChainIssue_issues {i : Issue} {c : ICtx} {s : State} (h : Issues 12 i c s)
    (hc : NoneFails (useChecks i c { sa := true } ++ descChecks i c 128)) :
    doChainIssue i s =
      if (tuft (counted i c { sa := true } s) c.t).ve.queue.length < 4 then
        veEnqueue c.t c.task.id (BitVec.ofNat 1024 (descAt i c 128 (counted i c { sa := true } s)))
          (advance c (counted i c { sa := true } s))
      else parkPath c c.pc .queue (counted i c { sa := true } s) := by
  rw [doChainIssue, issueOp_issues (use := fun _ _ => { sa := true }) (checks := fun c _ => descChecks i c 128) h hc]

/-- The oldest chain starts on an idle engine where no hazard holds it, its task runs and its checks pass (R181, R182). -/
theorem veStart_goes {t : Nat} {s : State} {c : VeChain} {rest : List VeChain} {r : TaskRec}
    (hidle : (tuft s t).ve.running = none) (hqueue : (tuft s t).ve.queue = c :: rest) (hfree : veHazard s t c = false)
    (htask : taskGet s c.task = some r) (hrun : r.phase = .running)
    (hcheck : lowestCode (veAllChecks s t (tkLimit r.d) c) = none) :
    veStart t s =
      wakePaths t (fun p => p == .queue) (veSet t (fun v => { v with running := some c, queue := rest }) s) := by
  simp only [veStart, hidle, hqueue, hfree, htask, hrun, hcheck, bne_self_eq_false, Bool.false_eq_true, if_false]

/-- A chain ends with the writes and flags `res`: poison that it read keeps the flags from its task (R73, R175). -/
def veEnds (t inWait wait : Nat) (c : VeChain) (res : List StoreWrite × Nat) (s : State) : State :=
  finishAborted c.task (arrive t (veArrive c.d) (veSet t (fun v => { v with running := none })
    (bump veCountsChains t 1 (bump veCountsInWait t inWait (bump tsCountsStoreWait t wait
      (taskFlags c.task t (if chainPoison s t c then 0 else res.2) (applyWrites t res.1 (chainPoison s t c) s)))))))

/-- A chain that takes no rows from the array completes with what it computes from the store. -/
theorem veComplete_writes {t inWait wait : Nat} {s : State} {c : VeChain} {r : TaskRec}
    (hbuf : (tuft s t).ve.buf = none) (hop : (tuft s t).ve.running = some c) (hstore : veSrcMx c.d = false)
    (htask : taskGet s c.task = some r) :
    veComplete t inWait wait s =
      veEnds t inWait wait c (chainWrites c.d (taskArith s r.d) s.ob.job.seed
        (chainInputs s t c.d (taskArith s r.d) c.srcFmt c.rows)) s := by
  simp only [veComplete, veTakeBlock_empty hbuf, hop, hstore, htask, Bool.false_and, Bool.false_eq_true, if_false]
  rfl

/-- Everything that a chain writes, poisoned. -/
def vePoisonOut (t : Nat) (c : VeChain) (s : State) : State :=
  (veOuts c.d).foldl (fun u r => poisonRange (storeKey t r.1) r.2 u) s

/-- A failed residue check of the running chain (R184). -/
theorem veCheckFail_running {t lane : Nat} {s : State} {c : VeChain} (hop : (tuft s t).ve.running = some c) :
    veCheckFail t lane s =
      finishAborted c.task (abortTask c.task 0x0458 (veSet t (fun v => { v with running := none, buf := none })
        (pendErr { level := lvTuft, unit := t, subunit := lane, reason := 0x0458, cls := 0x01 }
          (raise flVeStatusCheckErr t (vePoisonOut t c s))))) := by
  simp only [veCheckFail, hop]
  rfl

end Sys2Proof.Machine

namespace Sys2Proof

open Sys2Proof.Machine

/-- Settles O5: each event's effect under its conditions, in the order of R164, R182, R175 and R184. -/
theorem vectorEngine : Obligations.VectorEngine := by
  intro s
  refine ⟨?queues, ?parks, ?starts, ?completes, ?check⟩
  case queues =>
    exact fun i c hi hc hroom => onTuft_issues hi ((doChainIssue_issues hi hc).trans (if_pos hroom))
  case parks =>
    exact fun i c hi hc hfull => onTuft_issues hi ((doChainIssue_issues hi hc).trans (if_neg (Nat.not_lt.mpr hfull)))
  case starts =>
    exact fun t c rest r hr hidle hqueue hfree htask hrun hcheck =>
      onTuft_leaves hr (veStart_goes hidle hqueue hfree htask hrun hcheck)
  case completes =>
    exact fun t inWait waited c r hr hbuf hop hstore htask => onTuft_leaves hr (veComplete_writes hbuf hop hstore htask)
  case check =>
    exact fun t lane c hr hop => onTuft_leaves hr (veCheckFail_running hop)

end Sys2Proof
end

section
/-! PROOFS. How an instruction of a thread group that comes to issue ends: run on its context, or refused. -/
namespace Sys2Proof

open Sys2Proof.Machine

section

variable {cls : Nat} {i : Issue} {c : ICtx} {s u : State} {use : ICtx → State → RegUse}
  {checks : ICtx → State → List (Option Nat)} {go : ICtx → State → State}

/-- One that issues and fails no check leaves its effect on its context, once counted. -/
theorem issueOp_leaves (h : Issues cls i c s) (hc : NoneFails (useChecks i c (use c s) ++ checks c s))
    (hu : go c (counted i c (use c s) s) = u) : issueOp cls i use checks go s = u :=
  (issueOp_issues h hc).trans hu

/-- One that fails a check aborts its task with the lowest failing code (R210, R570). -/
theorem issueOp_refused {codes : List (Option Nat)} (h : Reaches cls i c s) (hcodes : useChecks i c (use c s) ++ checks c s = codes)
    (hc : lowest codes ≠ 0) : issueOp cls i use checks go s = abortTask c.task.id (lowest codes) s := by
  subst hcodes
  obtain ⟨_, hlt, hcls, ht, hgi, hg, hp, htask, hrun, hline, hturn, hop, hact, hnext⟩ := h
  obtain ⟨t, gi, g, lanes, act, pc, next, task, again⟩ := c
  simp only at ht hgi hg hp htask hrun hline hturn hact hnext hc
  subst ht hgi hact hnext
  have hlisted : (cls == 15) = false := beq_eq_false_iff_ne.mpr (by omega)
  have hwait : (!again && !itsTurn i (tuft s i.tuft.val)) = false := by rcases hturn with h | h <;> simp [h]
  simp only [issueOp, hg, hp, htask, hrun, hline, hcls, hlisted, hop, failIf, List.cons_append, lowest_none, Bool.false_eq_true,
    if_false, bne_self_eq_false, Bool.not_true, Bool.or_self, Bool.false_and, hwait, bne_iff_ne, ne_eq, hc, not_false_eq_true,
    if_true]

/-- Where an instruction comes to issue, its Tuft takes steps, so its effect happens. -/
theorem onTuft_reaches {f : State → State} (h : Reaches cls i c s) (hf : f s = u) : onTuft i.tuft f s = .next (left s u) :=
  have ⟨hruns, _⟩ := h
  onTuft_leaves hruns hf

theorem onTuft_guarded {f : State → State} (h : GuardedOff cls i c s) (hf : f s = u) : onTuft i.tuft f s = .next (left s u) :=
  have ⟨hreaches, _⟩ := h
  onTuft_reaches hreaches hf

end

theorem noneFails_append_nil {checks : List (Option Nat)} (h : NoneFails checks) : NoneFails (checks ++ []) := by
  rwa [List.append_nil]

end Sys2Proof
end

section
/-! PROOFS. Arithmetic instructions of thread groups; then O1. -/
namespace Sys2Proof

open Sys2Proof.Machine

/-! ## What several instructions of a class run -/

theorem sameLanes_issues {i : Issue} {c : ICtx} {s : State} {n : Nat} (h : Issues 2 i c s)
    (hc : NoneFails (useChecks i c { vd := n })) (f : ICtx → State → Nat → Nat) :
    sameLanes i n f s = writeLanes c (iwDst (iw i)) n ((lanesOf c.act).map fun l =>
      { lane := l, val := f c (counted i c { vd := n } s) l, bad := operandPoison i c { vd := n } l })
      (counted i c { vd := n } s) := by
  unfold sameLanes
  exact issueOp_leaves h (noneFails_append_nil hc) rfl

theorem predLogic_issues {i : Issue} {c : ICtx} {s : State} (h : Issues 3 i c s)
    (hc : NoneFails (useChecks i c { pd := true, pa := true, pb := true })) (f : Nat → Nat → Nat) :
    predLogic i f s = writePred c (iwDst (iw i)) ((lanesOf c.act).map fun l =>
      { lane := l, val := f (predReg c.g (iwA (iw i))) (predReg c.g (iwB (iw i))) >>> l
        bad := max (operandPoison i c {} l) (max (predPois c.g (iwA (iw i)) l) (predPois c.g (iwB (iw i)) l)) })
      (counted i c { pd := true, pa := true, pb := true } s) := by
  unfold predLogic
  exact issueOp_leaves h (noneFails_append_nil hc) rfl

/-- The registers of a conversion: its operand, and those of its draw where it draws (R193). -/
def cvtUse (src dst : CvtFmt) (draws : Bool) : RegUse := { vd := cvtRegs dst, va := cvtRegs src, vc := bit draws, sb := draws }

/-- The lanes of a conversion on the state it runs on, poisoned by its operands. -/
def cvtLanes (i : Issue) (c : ICtx) (src dst : CvtFmt) (rnd : RndMod) (draws : Bool) (u : State) : List LaneVal :=
  let a := taskArith u c.task.d
  let key := scalarB i c.g
  let draw := fun l => srDraw u.ob.job.seed (key / 2 ^ 32 % 2 ^ 32) (key % 2 ^ 32) 0 0 (vreg c.g (iwC (iw i)) l)
  let result := fun l => cvtResult src dst a (modeOf a rnd) (draw l) (vregs c.g (iwA (iw i)) (cvtRegs src) l)
  (lanesOf c.act).map fun l =>
    { lane := l, val := (result l).1, flags := (result l).2
      bad := operandPoison i c (cvtUse src dst draws) l }

/-- A conversion draws by the arithmetic of its task before it is counted; its lanes are poisoned by the arithmetic after. -/
theorem doConvertOp_issues {i : Issue} {c : ICtx} {s : State} {src dst : CvtFmt} {rnd : RndMod} (h : Issues 2 i c s)
    (hc : NoneFails (useChecks i c (cvtUse src dst (cvtDraws (taskArith s c.task.d) dst rnd)))) :
    doConvertOp i (.convert src dst rnd) s =
      let u := counted i c (cvtUse src dst (cvtDraws (taskArith s c.task.d) dst rnd)) s
      writeLanes c (iwDst (iw i)) (cvtRegs dst)
        (cvtLanes i c src dst rnd (cvtDraws (taskArith u c.task.d) dst rnd) u) u := by
  unfold doConvertOp
  exact issueOp_leaves h (noneFails_append_nil hc) rfl

/-- Settles O1: each instruction's effect on the registers it uses, its checks passed, in the order of the classes 0x0 to 0x3
and 0xE. -/
theorem threadArithmetic : Obligations.ThreadArithmetic := by
  intro s i c
  refine ⟨?integer, ?results, ?fp, ?identity, ?timer, ?convert, ?compare, ?logic, ?scalar⟩
  case integer =>
    intro op wide n use value hi hc
    refine onTuft_issues hi ?_
    unfold doIntegerOp
    exact issueOp_leaves hi hc rfl
  case results =>
    exact fun code w a b => ⟨rfl, rfl, rfl, rfl, fun h => if_pos h⟩
  case fp =>
    intro op dbl rnd n f use u a x y z r flags hi hc
    refine onTuft_issues hi ?_
    unfold doFpOp
    exact issueOp_leaves hi hc rfl
  case identity =>
    exact fun hi hc => ⟨onTuft_issues hi (sameLanes_issues hi hc fun _ _ l => l),
      onTuft_issues hi (sameLanes_issues hi hc fun c _ _ => c.g.idx),
      onTuft_issues hi (sameLanes_issues hi hc fun c _ _ => c.t - c.task.tuft0),
      onTuft_issues hi (sameLanes_issues hi hc fun c _ _ => c.t)⟩
  case timer =>
    exact fun hi hc => onTuft_issues hi (sameLanes_issues hi hc fun c s _ => timeOn s (meadowOfTuft c.t))
  case convert =>
    intro src dst rnd draws use u a key draw r hi hc hdraws
    have hlanes := congrArg (fun d => writeLanes c (iwDst (iw i)) (cvtRegs dst) (cvtLanes i c src dst rnd d u) u) hdraws
    exact onTuft_issues hi ((doConvertOp_issues hi hc).trans hlanes)
  case compare =>
    intro rel ty n use u r hi hc
    refine onTuft_issues hi ?_
    unfold doCompareOp
    exact issueOp_leaves hi (noneFails_append_nil hc) rfl
  case logic =>
    exact fun hi hc => ⟨onTuft_issues hi (predLogic_issues hi hc (· &&& ·)),
      onTuft_issues hi (predLogic_issues hi hc (· ||| ·)),
      onTuft_issues hi (predLogic_issues hi hc (· ^^^ ·)),
      onTuft_issues hi (predLogic_issues hi hc fun a b => a &&& (0xFFFFFFFF - b))⟩
  case scalar =>
    intro op wide n use value hi hc
    refine onTuft_issues hi ?_
    unfold doScalarOp
    exact issueOp_leaves hi hc rfl

end Sys2Proof
end

section
/-! PROOFS. Control flow, barriers and arrival counters of thread groups; then O2. -/
namespace Sys2Proof

open Sys2Proof.Machine

/-- Where a barrier is set up for the group's task, the group is counted at it and goes on or parks; at its count the barrier
releases all (R212). -/
theorem doBar_counts {sync : Bool} {i : Issue} {c : ICtx} {s : State} {sward : Bool} {idx : Nat} {b : Barrier}
    (h : Issues 8 i c s)
    (hc : NoneFails (useChecks i c { sa := true } ++ [failIf (sward && decide (7 < idx)) 0x0460,
      failIf (c.act != 0 && (sreg c.g (iwA (iw i)) == 0 ||
        decide ((if sward then tkGroups c.task.d else groupsOnTuft c.task c.t) < sreg c.g (iwA (iw i))))) 0x0467]))
    (hb : barGet (counted i c { sa := true } s) c.t sward idx = some b) (htask : b.task = c.task.id) :
    doBar sync i sward idx s =
      let arrived := { b with arrived := setAdd b.arrived c.gi }
      let u := counted i c { sa := true } s
      let v := if sync then parkPath c c.next (.bar sward idx) u else advance c u
      if b.count ≤ arrived.arrived.length then barRelease c sward idx arrived v
      else barPut c.t sward idx (some arrived) v := by
  unfold doBar
  refine issueOp_leaves h hc ?_
  simp only [hb, htask, if_true]

/-- Settles O2: each instruction's effect, its checks passed: the paths it splits, parks or ends, the barrier it counts at, the
arrival counter it sets; with no lane left, its count alone. -/
theorem threadControl : Obligations.ThreadControl := by
  intro s i c
  refine ⟨?guardedOff, ?jump, ?call, ?ret, ?exit, ?park, ?fence, ?arrive, ?sync, ?counters, ?read⟩
  case guardedOff =>
    intro op wide rel ty target n arith k cmp
    refine ⟨fun h hc => onTuft_guarded h ?integer, fun h hc => onTuft_guarded h ?compare, fun h hc => ?control⟩
    case integer =>
      unfold doIntegerOp
      exact issueOp_guarded h hc
    case compare =>
      unfold doCompareOp
      exact issueOp_guarded h (noneFails_append_nil hc)
    case control =>
      have hnone := noneFails_append_nil hc
      refine ⟨onTuft_guarded h ?_, onTuft_guarded h ?_, onTuft_guarded h ?_, onTuft_guarded h ?_⟩
      · unfold doBranch
        exact issueOp_guarded h hnone
      · unfold doThreadExit
        exact issueOp_guarded h hnone
      · unfold doJoin doPark
        exact issueOp_guarded h hnone
      · unfold doBarW doPark
        exact issueOp_guarded h hnone
  case jump =>
    intro target u hi hc
    refine onTuft_issues hi ?_
    unfold doBranch
    exact issueOp_leaves hi (noneFails_append_nil hc) rfl
  case call =>
    intro target use u hi hc
    refine onTuft_issues hi ?_
    unfold doBranch
    exact issueOp_leaves hi (noneFails_append_nil hc) rfl
  case ret =>
    intro use target u hi hc
    refine onTuft_issues hi ?_
    unfold doBranch
    exact issueOp_leaves hi (noneFails_append_nil hc) rfl
  case exit =>
    intro rest stay u ends hi hc
    refine onTuft_issues hi ?_
    unfold doThreadExit
    refine issueOp_leaves hi (noneFails_append_nil hc) ?_
    simp only [bne_iff_ne, List.isEmpty_iff]
    rfl
  case park =>
    refine fun hi hc => ⟨onTuft_issues hi ?_, onTuft_issues hi ?_⟩
    · unfold doJoin doPark
      exact issueOp_leaves hi (noneFails_append_nil hc) rfl
    · unfold doBarW doPark
      exact issueOp_leaves hi (noneFails_append_nil hc) rfl
  case fence =>
    intro reserved hi hc
    refine onTuft_issues hi ?_
    unfold doFence
    exact issueOp_leaves hi hc rfl
  case arrive =>
    intro sward idx b use n most u hi hc hb htask hbelow
    exact onTuft_issues hi ((doBar_counts (sync := false) hi hc hb htask).trans (if_neg (Nat.not_le.mpr hbelow)))
  case sync =>
    intro sward idx b use n most u hi hc hb htask hfull
    exact onTuft_issues hi ((doBar_counts (sync := true) hi hc hb htask).trans (if_pos hfull))
  case counters =>
    intro use u target hi hc
    have hnone := noneFails_append_nil hc
    refine ⟨onTuft_issues hi ?_, onTuft_issues hi ?_, onTuft_issues hi ?_⟩
    · unfold doArvSet
      exact issueOp_leaves hi hnone rfl
    · unfold doArvAdd
      exact issueOp_leaves hi hnone rfl
    · unfold doArvWait
      exact issueOp_leaves hi hnone rfl
  case read =>
    intro use u hi hc
    refine onTuft_issues hi ?_
    unfold doArvRead
    exact issueOp_leaves hi (noneFails_append_nil hc) rfl

end Sys2Proof
end

section
/-! PROOFS. Memory instructions of thread groups: the store, the global space, atomics and asynchronous copies; then O3. -/
namespace Sys2Proof.Machine

/-- An access of lanes to the global space that no region bars and whose lines translate to device memory goes on at their
physical addresses, each line touched once (R147, R199). -/
theorem withLines_translated {c : ICtx} {as : List (Nat × Nat)} {n : Nat} {rd wr : Bool} {go : Table Nat → State → State}
    {s t : State} {ls : Table Nat} (hguard : guardCode s as n wr = 0)
    (hlines : xlatLines { pathAccess c.t c.gi (lowLane c.lanes) 0 0 c.task with r := rd, w := wr } (as.map (·.2)) [] s = .ok ls t)
    (hdev : ls.any (fun e => isHostWin e.2 128) = false) :
    withLines c as n rd wr go s =
      go ls (hostTouch c (wr && !rd) ls (ls.foldl (fun u e => lineTouch c.t wr e.2 u) t)) := by
  simp only [withLines, hguard, hlines, hdev, bne_self_eq_false, Bool.false_eq_true, and_false, if_false]

end Sys2Proof.Machine

namespace Sys2Proof

open Sys2Proof.Machine

/-- Settles O3: each instruction's effect, its checks passed; an access to the global space runs on its lines translated. -/
theorem threadMemory : Obligations.ThreadMemory := by
  intro s i c
  refine ⟨?storeLoad, ?store, ?globalLoad, ?globalStore, ?storeAtomic, ?globalAtomic, ?copy, ?copied⟩
  case storeLoad =>
    intro size signed m n as u value hi hc
    refine onTuft_issues hi ?_
    unfold doStoreAccess
    exact issueOp_leaves hi hc rfl
  case store =>
    intro size signed m n r as one hi hc
    refine onTuft_issues hi ?_
    unfold doStoreAccess
    exact issueOp_leaves hi hc rfl
  case globalLoad =>
    intro size signed ls t m n as u read value hi hc hguard hlines hdev
    refine onTuft_issues hi ?_
    unfold doGlobalAccess
    exact issueOp_leaves hi hc (withLines_translated hguard hlines hdev)
  case globalStore =>
    intro size signed ls t m n r as u one hi hc hguard hlines hdev
    refine onTuft_issues hi ?_
    unfold doGlobalAccess
    exact issueOp_leaves hi hc (withLines_translated hguard hlines hdev)
  case storeAtomic =>
    intro op ty ret m n k use as lanes r hi hc
    refine onTuft_issues hi ?_
    unfold doAtomic
    exact issueOp_leaves hi hc rfl
  case globalAtomic =>
    intro op ty ret ls t m n k use as lanes write r hi hc hguard hlines hdev
    refine onTuft_issues hi ?_
    unfold doAtomic
    exact issueOp_leaves hi hc ((if_pos rfl).trans (withLines_translated hguard hlines hdev))
  case copy =>
    intro size ls t n use as dst u copy hi hc hguard hlines hdev
    refine onTuft_issues hi ?_
    unfold doAcpyL
    exact issueOp_leaves hi hc (withLines_translated hguard hlines hdev)
  case copied =>
    intro t nth lc write hr hcopy
    refine onTuft_leaves hr ?_
    unfold acpyLDone
    rw [hcopy]

end Sys2Proof
end

section
/-! PROOFS. Launch, instruction fetch, register-file errors and submissions of thread groups; then O6. -/
namespace Sys2Proof.Machine

/-- The oldest waiting group becomes resident where its task runs ungated and its Tuft has room (R188, R487). -/
theorem launchGroup_places {t gi : Nat} {rest : List Nat} {s : State} {r : TaskRec} (hwaiting : (tuft s t).waiting = gi :: rest)
    (htask : taskOn s t = some r) (hrun : r.phase = .running)
    (hopen : (taskTufts r).all (fun u => getF s tuftCeilState u != 2) = true)
    (hroom : (tuft s t).groups.length < residency r.d) :
    launchGroup t s = setTuft t { tuft s t with
      waiting := rest
      groups := tput (tuft s t).groups gi
        { idx := gi, task := r.id, paths := [{ lanes := 0xFFFFFFFF, pc := tkEntry r.d }], sregs := launchRegs s r t gi } } s := by
  simp only [launchGroup, hwaiting, htask]
  exact if_pos (by simp [hrun, hopen, hroom])

/-- The line that a fetch of the path at `pc` brings: its own, or where the cache holds that, the line of the word after it. -/
def fetchedLine (s : State) (t pc : Nat) : Nat :=
  if (tuft s t).icache.contains (pc / 128) then (pc + 15) / 128 else pc / 128

/-- A line that no region bars and that translates enters the instruction cache (R197). -/
theorem fetchLine_fills {t gi pa len : Nat} {s u : State} {g : Group} {p : TPath} {r : TaskRec}
    (hg : groupGet s t gi = some g) (hp : curPath g = some p) (htask : taskGet s g.task = some r) (hrun : r.phase = .running)
    (hguard : regionGuard s (fetchedLine s t p.pc * 128) 128 false = 0)
    (hxlat : translate { pathAccess t gi (lowLane p.lanes) 1 (fetchedLine s t p.pc * 128) r with x := true } s = (.ok pa len, u))
    (hclean : physPoison (rangeAccess .rds (meadowOfTuft t) pa 128 u) pa 128 = false) :
    fetchLine t gi s =
      modTuft t (fun y => { y with icache := (fetchedLine s t p.pc :: y.icache.filter (· != fetchedLine s t p.pc)).take 256 })
        (rangeAccess .rds (meadowOfTuft t) pa 128 u) := by
  unfold fetchedLine at hguard hxlat ⊢
  simp only [fetchLine, hg, hp, htask, hrun, hguard, hxlat, hclean, bne_self_eq_false, Bool.false_eq_true, if_false]

/-- An error that is not corrected poisons the word of a lane of a register other than vz (R196). -/
theorem rfEcc_poisons {reg : Nat} (h : reg ≠ 255) (t gi lane : Nat) (s : State) :
    rfEcc t gi reg lane false s =
      pendErr { level := lvTuft, unit := t, subunit := lane, reason := 0x0468, cls := 0x02 } (raise flTgStatusEccErr t
        (groupMod t gi (fun g => { g with vpoison := tput g.vpoison (reg * 32 + lane) 2 }) s)) := by
  simp only [rfEcc, h, Bool.false_eq_true, if_false]

end Sys2Proof.Machine

namespace Sys2Proof

open Sys2Proof.Machine

/-- Every entry of a copy is queued, or the copy is gone. -/
def copyQueued (id : Nat) (s : State) : Bool :=
  match copyGet s id with
  | some x => x.translated && x.rest.isEmpty
  | none => true

/-- A copy descriptor that fails no check is submitted; the path goes on once the last entry is queued (R242). -/
theorem doAcpyD_submits {i : Issue} {c : ICtx} {s v : State} {id : Nat} (h : Issues 10 i c s)
    (hc : NoneFails (useChecks i c { sa := true } ++ descChecks i c 64))
    (hcopy : NoneFails (copyChecks (counted i c { sa := true } s) { task := some c.task, sward := c.t / 8 }
      (descAt i c 64 (counted i c { sa := true } s))))
    (hr : submitCopy (c.t / 8) (.tuft c.t) (.task c.task.id) (BitVec.ofNat 512 (descAt i c 64 (counted i c { sa := true } s)))
      (counted i c { sa := true } s) = (id, none, v)) :
    doAcpyD i s = if copyQueued id v then advance c v else parkPath c c.next (.credit id) v := by
  unfold NoneFails at hcopy
  unfold doAcpyD
  refine issueOp_leaves h hc ?_
  simp only [hcopy, hr, bne_self_eq_false, Bool.false_eq_true, if_false]
  rfl

/-- Settles O6: each event's effect under its conditions, in the order of R188, R197, R196, R130 and R242. -/
theorem groupsAndFetch : Obligations.GroupsAndFetch := by
  intro s
  refine ⟨?launch, ?fetch, ?corrected, ?uncorrected, ?router, ?copy⟩
  case launch =>
    exact fun t gi rest r hr hwaiting htask hrun hopen hroom =>
      onTuft_leaves hr (launchGroup_places hwaiting htask hrun hopen hroom)
  case fetch =>
    exact fun t group g p r pa len u hr hg hp htask hrun hguard hxlat hclean =>
      onTuft_leaves hr (fetchLine_fills hg hp htask hrun hguard hxlat hclean)
  case corrected => exact fun t group reg lane hr => onTuft_leaves hr rfl
  case uncorrected => exact fun t group reg lane hr hreg => onTuft_leaves hr (rfEcc_poisons hreg _ _ _ _)
  case router =>
    intro i c u hi hc hroom
    refine onTuft_issues hi ?_
    unfold doRouterIssue
    exact issueOp_leaves hi hc (if_pos hroom)
  case copy =>
    intro i c u d r queued hi hc hcopy hnone
    refine onTuft_issues hi ?_
    have hr : r = (r.1, none, r.2.2) := Prod.ext rfl (Prod.ext hnone rfl)
    exact doAcpyD_submits hi hc hcopy hr

end Sys2Proof
end

section
/-! PROOFS. Register v255 and instructions of thread groups that fail a check; then O52. -/
namespace Sys2Proof.Machine

theorem vreg_vz (g : Group) (l : Nat) : vreg g 255 l = 0 := if_pos rfl

theorem vregs_vz (g : Group) (n l : Nat) : vregs g 255 n l = 0 := if_pos rfl

theorem setVregs_vz (n l v bad : Nat) (g : Group) : setVregs 255 n l v bad g = g := if_pos rfl

/-- One register is refused from the task's number of registers on, vz apart (R195). -/
theorem badV_single_iff (c : ICtx) {r : Nat} (h : r < 256) : badV c r 1 = true ↔ c.regs ≤ r ∧ r ≤ 254 := by
  simp only [badV, Bool.and_eq_true, bne_iff_ne, decide_eq_true_eq]
  omega

end Sys2Proof.Machine

namespace Sys2Proof

open Sys2Proof.Machine

/-- Settles O52: v255 and register numbers by their definitions; whatever an instruction would do, a failing check comes first. -/
theorem refusedInstructions : Obligations.RefusedInstructions := by
  intro s i c
  refine ⟨?vz, ?register, ?integer, ?fp, ?compare, ?scalar, ?store, ?global, ?fence⟩
  case vz => exact fun g n l v bad => ⟨vreg_vz g l, vregs_vz g n l, setVregs_vz n l v bad g⟩
  case register => exact fun r hr => badV_single_iff c hr
  case integer =>
    intro op wide n use checks h hc
    refine onTuft_reaches h ?_
    unfold doIntegerOp
    exact issueOp_refused h rfl hc
  case fp =>
    intro op dbl rnd n use checks h hc
    refine onTuft_reaches h ?_
    unfold doFpOp
    exact issueOp_refused h rfl hc
  case compare =>
    intro rel ty n checks h hc
    refine onTuft_reaches h ?_
    unfold doCompareOp
    exact issueOp_refused h (List.append_nil _) hc
  case scalar =>
    intro op wide checks h hc
    refine onTuft_reaches h ?_
    unfold doScalarOp
    exact issueOp_refused h rfl hc
  case store =>
    intro m n as checks h hc
    refine onTuft_reaches h ?_
    unfold doStoreAccess
    exact issueOp_refused h rfl hc
  case global =>
    intro m n checks h hc
    refine onTuft_reaches h ?_
    unfold doGlobalAccess
    exact issueOp_refused h rfl hc
  case fence =>
    intro reserved checks h hc
    refine onTuft_reaches h ?_
    unfold doFence
    exact issueOp_refused h rfl hc

end Sys2Proof
end

section
/-! PROOFS. Tasks that start, complete and wait in vain, and errors of a Tuft's store, each effect under its conditions; then O7. -/
namespace Sys2Proof.Machine

/-- A task that finds a place and pool space there, with no code against it, starts (R189, R230, R236, R237). -/
theorem tryTask_starts {r : TaskRec} {s t : State} {t0 : Nat} {allocs : List (Nat × Nat)} (hplace : placeTask s r = .at t0)
    (hbars : barriersCode r.d = 0) (hpool : poolCode s (t0 / 8) r.d = 0)
    (hserve : poolServeAll r.id (t0 / 8) (tkReqs r.d) s = some (allocs, t)) :
    tryTask r s = .started (beginTask r t0 allocs t) := by
  simp only [tryTask, hplace, hbars, hpool, hserve, bne_self_eq_false, Bool.false_eq_true, if_false]

/-- A waiting task that its sequence lets start and that can start ends the search (R157, R236). -/
theorem tryTasks_of_started {r : TaskRec} {rest : List TaskRec} {s u : State} (htask : taskGet s r.id = some r)
    (hwaits : r.phase = .waiting) (hseq : seqAllows s r = true) (hstarts : tryTask r s = .started u) :
    tryTasks (r :: rest) s = u := by
  simp only [tryTasks, htask, hwaits, hseq, hstarts, bne_self_eq_false, Bool.not_true, Bool.or_self, Bool.false_eq_true, if_false]

/-- A running task of which only its record is left ends with what was reported (R238). -/
theorem completeTask_finishes {id : Nat} {s : State} {r : TaskRec} (htask : taskGet s id = some r) (hrun : r.phase = .running)
    (hidle : taskIdle s r = true) :
    completeTask id s = finishTask r (if taskReason s r = 0 then 0 else 2) (taskReason s r) s := by
  simp only [completeTask, htask, hrun, hidle, if_true]

/-- A task that has waited for pool space too long fails (R232). -/
theorem poolExpire_task {id : Nat} {s : State} {r : TaskRec} (htask : taskGet s id = some r) (hwaits : r.phase = .waiting)
    (hpool : r.poolWait.isSome = true) : poolExpire false id s = failWaiting r 0x0572 s := by
  simp only [poolExpire, htask, hwaits, hpool, beq_self_eq_true, Bool.and_self, Bool.false_eq_true, if_false, if_true]

/-- So does a BUF_CREATE (R232). -/
theorem poolExpire_buffer {id : Nat} {s : State} (h : s.work.bufWait.any (fun e => e.1 == id) = true) :
    poolExpire true id s =
      endById id (endFailed 0x0572 0) { s with work.bufWait := s.work.bufWait.filter (fun e => e.1 != id) } :=
  if_pos h

end Sys2Proof.Machine

namespace Sys2Proof

open Sys2Proof.Machine

/-- An effect of the package's schedulers, where the dies take steps. -/
theorem served_leaves {f : State → State} {s u : State} (hr : Running s) (h : f s = u) :
    served s (if moduleRuns s then f s else s) = .next (left s u) := by
  rw [if_pos hr.2, served_powered hr.1, h]

/-- TASK_COMPLETE completes the task on its Tuft. -/
theorem taskComplete_leaves {t : TuftNo} {id : Nat} {s u : State} (hr : TuftRuns s t.val) (hon : (tuft s t.val).task = some id)
    (h : completeTask id s = u) : exec (.taskComplete t) s = .next (left s u) := by
  unfold exec execTaskComplete
  refine onTuft_leaves hr ?_
  simp only [hon, h]

/-- Settles O7: each event's effect under its conditions, in the order of R236, R238, R232 and R227. -/
theorem tasksAndStores : Obligations.TasksAndStores := by
  intro s
  refine ⟨?start, ?complete, ?taskExpires, ?bufferExpires, ?corrected, ?uncorrected⟩
  case start =>
    intro r rest t0 allocs t hr horder htask hwaits hseq hplace hbars hpool hserve
    refine served_leaves (f := startTask) hr ?_
    rw [startTask, horder]
    exact tryTasks_of_started htask hwaits hseq (tryTask_starts hplace hbars hpool hserve)
  case complete =>
    exact fun t id r hr hon htask hrun hidle =>
      taskComplete_leaves hr hon (completeTask_finishes htask hrun hidle)
  case taskExpires =>
    exact fun id r hr htask hwaits hpool => served_leaves (f := poolExpire false id) hr (poolExpire_task htask hwaits hpool)
  case bufferExpires => exact fun id hr hany => served_leaves (f := poolExpire true id) hr (poolExpire_buffer hany)
  case corrected => exact fun t off pool hr => onTuft_leaves hr rfl
  case uncorrected => exact fun t off hr => onTuft_leaves hr rfl

end Sys2Proof
end

section
/-! PROOFS. Bursts of copy entries: a burst leaves every entry of its number with the rest of that entry's own pieces, so O8, which
leaves them all with the rest of the first one's, fails where two entries bear one number. -/
namespace Sys2Proof.Machine

theorem entGet_entMod {id : Nat} {f : CopyEnt → CopyEnt} {s : State} {e : CopyEnt} (hf : ∀ x, (f x).id = x.id)
    (h : entGet s id = some e) : entGet (entMod id f s) id = some (f e) := by
  have hsame : (fun x => x.id == id) ∘ (fun x : CopyEnt => if x.id == id then f x else x) = fun x => x.id == id := by
    funext x
    by_cases hx : x.id = id <;> simp [hx, hf]
  unfold entGet at h ⊢
  have hid := List.find?_some h
  simp only [entMod, List.find?_map, hsame, h, Option.map_some, hid, if_true]

/-- An entry that moves already, or may start, moves the next burst of its first piece (R239, R244). -/
theorem entStep_moves {op id : Nat} {reply : Nat × List Nat} {s : State} {e : CopyEnt} {c : CopyRec} {p : Piece} {rest : List Piece}
    (he : entGet s id = some e) (hc : copyGet s e.copy = some c) (hop : cpOp c.desc.toNat = op)
    (hgoes : e.stalled = false ∧ e.stale = false ∧ e.pieces = p :: rest) (hstarts : e.moving = true ∨ entMayStart s e = true)
    (hrank : copyRemote c.desc.toNat = true → rankCode (entMod id (fun e => { e with moving := true }) s) (cpRank c.desc.toNat) = 0)
    (hlink : s.link.dState = 3 → burstToHost c.desc.toNat p = false)
    (hreads : readsHost c.desc.toNat p = true → readsFull s = false) :
    entStep op id reply 0 s = entMod id (fun e => { e with pieces := afterBurst c.desc.toNat e.pieces })
      (moveBurst c p reply (entMod id (fun e => { e with moving := true }) s)) := by
  obtain ⟨hstalled, hstale, hpieces⟩ := hgoes
  have hstart : (!e.moving && !entMayStart s e) = false := by
    obtain h | h := hstarts <;> simp [h]
  have hmoving := entGet_entMod (f := fun e => { e with moving := true }) (fun _ => rfl) he
  have hcode : (if copyRemote c.desc.toNat then
      mergeCode (rankCode (entMod id (fun e => { e with moving := true }) s) (cpRank c.desc.toNat)) 0 else 0) = 0 := by
    by_cases h : copyRemote c.desc.toNat = true
    · rw [if_pos h, hrank h]; rfl
    · rw [if_neg h]
  have hheld : ¬((s.link.dState = 3 ∧ burstToHost c.desc.toNat p) ∨ (readsHost c.desc.toNat p ∧ readsFull s)) := by
    rintro (⟨hd, hburst⟩ | ⟨hread, hfull⟩)
    · simp [hlink hd] at hburst
    · simp [hreads hread] at hfull
  simp only [entStep, he, hc, hop, hstalled, hstale, hstart, hmoving, hcode, hpieces, bne_self_eq_false, Bool.or_self,
    Bool.false_eq_true, if_false]
  exact if_neg hheld

/-! ## A module with two entries of one number -/

/-- A second entry of the number of `anEnt`, with one piece more. -/
def namesake : CopyEnt := { anEnt with pieces := anEnt.pieces ++ anEnt.pieces }

/-- The module with a copy between stores in the queue of Sward 0, both of its entries numbered 0. -/
def sameNumbers : State := { withCopy (aCopyRec 0) anEnt with copies.ents := [anEnt, namesake] }

/-- The first piece of both entries. -/
def firstPiece : Piece := { src := 0, dst := 0x3000, len := 64 }

/-- That state once the burst of the first piece has moved; the entries still list the piece. -/
def burstMoved : State :=
  moveBurst (aCopyRec 0) firstPiece (0, []) (entMod 0 (fun e => { e with moving := true }) sameNumbers)

/-- The pieces that each entry of a queue has left. -/
def piecesLeft (s : State) : List (List Piece) := s.copies.ents.map (·.pieces)

end Sys2Proof.Machine

namespace Sys2Proof

open Sys2Proof.Machine

theorem piecesLeft_left {s t : State} (h : NothingWaits t) : piecesLeft (left s t) = piecesLeft t := by
  rw [left_of_nothingWaits s h]
  rfl

/-- Each of the two entries has the rest of its own pieces left. -/
theorem copy_sameNumbers :
    exec (.copy 0 0 [] false) sameNumbers = .next (left sameNumbers
      (entMod 0 (fun e => { e with pieces := afterBurst (aCopyRec 0).desc.toNat e.pieces }) burstMoved)) :=
  onEntry_leaves (e := anEnt) (c := aCopyRec 0) (by decide +kernel) rfl rfl
    (entStep_moves (p := firstPiece) rfl rfl (by decide +kernel) ⟨rfl, rfl, rfl⟩ (by decide +kernel) (by decide +kernel)
      (by decide +kernel) (by decide +kernel))

/-- Refutes O8: two entries of one number, with one piece and with two, meet every premise of the first clause, which does not ask
that entries bear different numbers; a burst leaves the second a piece (R239), where the clause leaves it none. -/
theorem not_copyEngine : ¬ Obligations.CopyEngine := by
  intro h
  obtain ⟨hcopy, -⟩ := h sameNumbers
  have hclaimed := hcopy 0 0 [] anEnt (aCopyRec 0) firstPiece [] (by decide +kernel) rfl rfl
    (by decide +kernel) ⟨rfl, rfl, rfl⟩ (by decide +kernel) (by decide +kernel) (by decide +kernel) (by decide +kernel)
  have hstates := Host.Outcome.next.inj (copy_sameNumbers.symm.trans hclaimed)
  have hpieces := congrArg piecesLeft hstates
  rw [piecesLeft_left (by decide +kernel), piecesLeft_left (by decide +kernel)] at hpieces
  exact absurd hpieces (by decide +kernel)

end Sys2Proof
end

section
/-! PROOFS. What a step leaves in device memory; then O41. -/
namespace Sys2Proof.Machine

/-- The end of a command whose writes go to canonical memory. -/
theorem sound_of_finish {s t u : State} (hs : Sound s) (h : finish s t = .next u) : Sound u := by
  obtain rfl := Host.Outcome.next.inj h
  exact ⟨memWf_commit hs.1, rfl⟩

end Sys2Proof.Machine

namespace Sys2Proof

open Sys2Proof.Machine

/-- Settles O41: a step is the end of a command, or of the package timer's tick, and every end commits its writes. -/
theorem stepKeepsSound : Obligations.StepKeepsSound := by
  intro s u hs hstep
  cases hq : s.pending with
  | nil => exact sound_of_finish hs ((step_of_empty hq).symm.trans hstep)
  | cons c rest =>
    obtain ⟨t, ht⟩ := exec_ends c { s with pending := rest }
    have hrun : step s = exec c { s with pending := rest } := by rw [step, hq]
    exact sound_of_finish (s := { s with pending := rest }) hs (ht.symm.trans (hrun.symm.trans hstep))

end Sys2Proof
end

section
/-! PROOFS. The interleave and the DRAM location word, inverted; then O58. -/
namespace Sys2Proof.Machine

/-! ## Nibbles folded (R262) -/

theorem foldNibbles_lt (x n : Nat) : foldNibbles x n < 16 := by
  induction n with
  | zero => simp [foldNibbles]
  | succ n ih => exact Nat.xor_lt_two_pow (n := 4) ih (Nat.mod_lt _ (by decide))

/-- The lowest nibble apart from the others. -/
theorem foldNibbles_low (x n : Nat) : foldNibbles x (n + 1) = x % 16 ^^^ foldNibbles (x / 16 * 16) (n + 1) := by
  induction n with
  | zero => simp [foldNibbles]
  | succ n ih =>
    have hupper : x >>> 4 = (x / 16 * 16) >>> 4 := by simp only [Nat.shiftRight_eq_div_pow]; omega
    have hnibble : x >>> (4 * (n + 1)) = (x / 16 * 16) >>> (4 * (n + 1)) := by
      rw [Nat.mul_succ, Nat.add_comm, Nat.shiftRight_add, Nat.shiftRight_add, hupper]
    rw [foldNibbles, ih, hnibble, Nat.xor_assoc, ← foldNibbles]

/-- Nibbles above the number are zero. -/
theorem foldNibbles_above {x n : Nat} (h : x < 2 ^ (4 * n)) : foldNibbles x (n + 1) = foldNibbles x n := by
  rw [foldNibbles, Nat.shiftRight_eq_div_pow, Nat.div_eq_of_lt h, Nat.zero_mod, Nat.xor_zero]

/-- What the fold of a number's upper nibbles takes from the fold of all is its lowest nibble. -/
theorem foldNibbles_xor_high {x n : Nat} (h : x < 2 ^ (4 * (n + 1))) :
    foldNibbles x (n + 1) ^^^ foldNibbles (x / 16 * 16) (n + 2) = x % 16 := by
  rw [foldNibbles_above (show x / 16 * 16 < 2 ^ (4 * (n + 1)) by omega), foldNibbles_low, Nat.xor_assoc, Nat.xor_self,
    Nat.xor_zero]

theorem shiftLeft_or {a b i : Nat} (h : b < 2 ^ i) : a <<< i ||| b = a * 2 ^ i + b := by
  rw [← Nat.shiftLeft_add_eq_or_of_lt h, Nat.shiftLeft_eq]

theorem bitsOf_lt (v hi lo : Nat) : bitsOf v hi lo < 2 ^ (hi + 1 - lo) := Nat.mod_lt _ (Nat.two_pow_pos _)

theorem bitsOf_eq_div (v hi lo : Nat) : bitsOf v hi lo = v / 2 ^ lo % 2 ^ (hi + 1 - lo) := by
  rw [bitsOf, Nat.shiftRight_eq_div_pow]

/-! ## The location word (Tables MS-2, MS-3) -/

theorem localOf_eq {pa : Nat} (h : pa < 2 ^ 41) : localOf pa = pa / 1024 / 16 * 1024 + pa % 1024 := by
  rw [localOf, Nat.shiftRight_eq_div_pow, Nat.mod_eq_of_lt (by omega)]

theorem homeOf_eq {pa : Nat} (h : pa < 2 ^ 41) : homeOf pa = foldNibbles (pa / 1024) 8 := by
  rw [homeOf, Nat.shiftRight_eq_div_pow, Nat.mod_eq_of_lt (by omega)]

theorem localOf_granule {pa : Nat} (h : pa < 2 ^ 41) : localOf pa / 1024 = pa / 1024 / 16 := by
  rw [localOf_eq h]; omega

/-- The fields of a location word are apart: each reads back. -/
theorem bitsOf_packed {ch rank bank row half line sector : Nat} (hch : ch < 16) (hrank : rank < 4) (hbank : bank < 16)
    (hrow : row < 65536) (hhalf : half < 2) (hline : line < 8) (hsector : sector < 4) :
    let w := packBits [(ch, 28), (rank, 26), (bank, 22), (row, 6), (half, 5), (line, 2), (sector, 0)]
    bitsOf w 31 28 = ch ∧ bitsOf w 27 26 = rank ∧ bitsOf w 25 22 = bank ∧ bitsOf w 21 6 = row ∧ bitsOf w 5 5 = half ∧
      bitsOf w 4 2 = line ∧ bitsOf w 1 0 = sector := by
  simp only [packBits, List.foldl, bitsOf_eq_div]
  omega

/-- The fields of an address's location word. -/
theorem locWord_fields {pa : Nat} (h : pa < 2 ^ 41) :
    let c := pa / 1024 / 256
    bitsOf (locWord pa) 31 28 = foldNibbles (pa / 1024 / 16) 7 ∧ bitsOf (locWord pa) 27 26 = bitsOf c 22 21 ∧
      bitsOf (locWord pa) 25 22 = bitsOf c 4 1 ^^^ bitsOf c 8 5 ∧ bitsOf (locWord pa) 21 6 = bitsOf c 20 5 ∧
      bitsOf (locWord pa) 5 5 = c % 2 ∧ bitsOf (locWord pa) 4 2 = bitsOf pa 9 7 ∧ bitsOf (locWord pa) 1 0 = bitsOf pa 6 5 := by
  have hlg := localOf_granule h
  have hc : localOf pa / 1024 / 16 = pa / 1024 / 256 := by omega
  have hline : bitsOf (localOf pa) 9 7 = bitsOf pa 9 7 := by
    rw [localOf_eq h, bitsOf_eq_div, bitsOf_eq_div]; omega
  have hsector : bitsOf (localOf pa) 6 5 = bitsOf pa 6 5 := by
    rw [localOf_eq h, bitsOf_eq_div, bitsOf_eq_div]; omega
  have hchan : chanOf (localOf pa / 1024) = foldNibbles (pa / 1024 / 16) 7 := by
    rw [chanOf, hlg, Nat.mod_eq_of_lt (by omega)]
  simp only [locWord, hchan, hc, hline, hsector]
  exact bitsOf_packed (foldNibbles_lt _ _) (bitsOf_lt _ _ _) (Nat.xor_lt_two_pow (n := 4) (bitsOf_lt _ _ _) (bitsOf_lt _ _ _))
    (bitsOf_lt _ _ _) (Nat.mod_lt _ (by decide)) (bitsOf_lt _ _ _) (bitsOf_lt _ _ _)

/-! ## The granule of a location (R265) -/

/-- Rank, row, bank without its swizzle, and half make up a stack's channel-local number. -/
theorem rank_row_bank_half {c : Nat} (h : c < 2 ^ 23) :
    bitsOf c 22 21 <<< 21 ||| bitsOf c 20 5 <<< 5 ||| ((bitsOf c 4 1 ^^^ bitsOf c 8 5) ^^^ bitsOf c 20 5 % 16) <<< 1 ||| c % 2 = c := by
  have hswizzle : bitsOf c 20 5 % 16 = bitsOf c 8 5 := by simp only [bitsOf_eq_div]; omega
  have hrow : bitsOf c 22 21 <<< 21 ||| bitsOf c 20 5 <<< 5 = (c / 32) <<< 5 := by
    rw [shiftLeft_or (by simp only [bitsOf_eq_div, Nat.shiftLeft_eq]; omega)]
    simp only [bitsOf_eq_div, Nat.shiftLeft_eq]; omega
  have hbank : (c / 32) <<< 5 ||| bitsOf c 4 1 <<< 1 = (c / 2) <<< 1 := by
    rw [shiftLeft_or (by simp only [bitsOf_eq_div, Nat.shiftLeft_eq]; omega)]
    simp only [bitsOf_eq_div, Nat.shiftLeft_eq]; omega
  rw [hswizzle, Nat.xor_assoc, Nat.xor_self, Nat.xor_zero, hrow, hbank, shiftLeft_or (by omega)]
  omega

/-- A number whose lowest nibble has gone into a fold comes back from the fold and the nibbles above. -/
theorem nibble_restored {x n : Nat} (h : x < 2 ^ (4 * (n + 1))) :
    (x / 16) <<< 4 ||| (foldNibbles x (n + 1) ^^^ foldNibbles ((x / 16) <<< 4) (n + 2)) = x := by
  rw [Nat.shiftLeft_eq, foldNibbles_xor_high h, ← Nat.shiftLeft_eq, shiftLeft_or (show x % 16 < 2 ^ 4 by omega)]
  omega

theorem granuleOf_locWord {pa : Nat} (h : pa < 2 ^ 41) :
    granuleOf (homeOf pa) (bitsOf (locWord pa) 31 28) (bitsOf (locWord pa) 27 26) (bitsOf (locWord pa) 25 22)
      (bitsOf (locWord pa) 21 6) (bitsOf (locWord pa) 5 5) = pa / 1024 := by
  obtain ⟨hch, hrank, hbank, hrow, hhalf, -, -⟩ := locWord_fields h
  have hc : pa / 1024 / 256 = pa / 1024 / 16 / 16 := by omega
  rw [hch, hrank, hbank, hrow, hhalf, homeOf_eq h]
  simp only [granuleOf, rank_row_bank_half (show pa / 1024 / 256 < 2 ^ 23 by omega)]
  rw [hc, nibble_restored (by omega), nibble_restored (by omega)]

/-- Within its granule, an address's sector follows from the line and sector fields of its location word. -/
theorem sector_of_fields (pa : Nat) : pa / 32 = pa / 1024 * 32 + bitsOf pa 9 7 * 4 + bitsOf pa 6 5 := by
  simp only [bitsOf_eq_div]
  omega

theorem sector_eq_of_locWord {pa qa : Nat} (hp : pa < 2 ^ 41) (hq : qa < 2 ^ 41) (hhome : homeOf pa = homeOf qa)
    (hword : locWord pa = locWord qa) : pa / 32 = qa / 32 := by
  have hgranule : pa / 1024 = qa / 1024 := by rw [← granuleOf_locWord hp, ← granuleOf_locWord hq, hhome, hword]
  obtain ⟨-, -, -, -, -, hline, hsector⟩ := locWord_fields hp
  obtain ⟨-, -, -, -, -, hline', hsector'⟩ := locWord_fields hq
  rw [sector_of_fields pa, sector_of_fields qa, hgranule, ← hline, ← hline', ← hsector, ← hsector', hword]

end Sys2Proof.Machine

namespace Sys2Proof

open Sys2Proof.Machine

/-- Settles O58: the location word keeps every part of the granule, the channel's nibble and the stack's under their folds. -/
theorem interleaveInverts : Obligations.InterleaveInverts :=
  fun _ hp => ⟨granuleOf_locWord hp, fun _ hq ⟨hhome, hword⟩ => sector_eq_of_locWord hp hq hhome hword⟩

end Sys2Proof
end

section
/-! PROOFS. Writes that the host link brings to device memory: their bytes and their poison; then O55. -/
namespace Sys2Proof.Machine

theorem devWrite_kept {a n v : Nat} {s : State} (h : biasLost s a n = false) : devWrite a n v s = writeNum a n v s :=
  if_pos (by rw [h]; rfl)

/-- The state in which every line of a write of the west die's I/O agent has been accessed. -/
def ioAccessed (a n : Nat) (s : State) : State := rangeAccess .ncwr 10 a n s

variable {a n v : Nat} {bad : Bool} {s : State}

/-- An I/O agent's write whose pages are not lost is a write of its bytes after the accesses to its lines, poisoned or not. -/
theorem ioWrite_kept (h : biasLost (ioAccessed a n s) a n = false) :
    ioWrite a n v bad s =
      if bad then poisonRange a n (writeNum a n v (ioAccessed a n s)) else writeNum a n v (ioAccessed a n s) := by
  rw [← devWrite_kept h]
  rfl

theorem ioWrite_stuck (h : biasLost (ioAccessed a n s) a n = false) :
    (ioWrite a n v bad s).coh.stuck = (ioAccessed a n s).coh.stuck := by
  rw [ioWrite_kept h]
  cases bad <;> rfl

theorem readByte_ioWrite (h : biasLost (ioAccessed a n s) a n = false) (x : Nat) :
    readByte (ioWrite a n v bad s) x =
      if a ≤ x ∧ x < a + n ∧ deadAddr (ioAccessed a n s) x = false then BitVec.ofNat 8 (v >>> (8 * (x - a)))
      else readByte (ioAccessed a n s) x := by
  rw [ioWrite_kept h, ← readByte_writeNum]
  cases bad <;> rfl

theorem mem_ioWrite_poison (h : biasLost (ioAccessed a n s) a n = false) (k : Nat) :
    k ∈ (ioWrite a n v bad s).poison ↔ (bad = true ∧ k ∈ sectorsOf a n) ∨ (k ∈ (ioAccessed a n s).poison ∧
      ¬ (a ≤ 32 * k ∧ 32 * k + 32 ≤ a + n ∧ deadAddr (ioAccessed a n s) (32 * k) = false)) := by
  rw [ioWrite_kept h]
  cases bad with
  | false => simp only [Bool.false_eq_true, if_false, false_and, false_or, mem_writeNum_poison]
  | true => simp only [if_true, true_and, mem_poisonRange, mem_writeNum_poison, mem_sectorsOf, or_comm]

theorem bar2_writes (hopen : barOpen s = true) (hrole : selfHosted s = false) (hmem : isDevMem a n = true)
    (htable : inBiasTable s a n = false) : bar2 a true n v bad s = ioWrite a n v bad s := by
  simp [bar2, hopen, hrole, hmem, htable]

theorem inboundDma_writes (hrole : selfHosted s = true) (hlink : flagSet s hlStatusLinkUp 0 = true)
    (hwin : inWindow s a n = true) : inboundDma a true n v bad s = ioWrite a n v bad s := by
  simp [inboundDma, hrole, hlink, hwin]

end Sys2Proof.Machine

namespace Sys2Proof

open Sys2Proof.Machine

/-- A write over the host link whose accesses complete leaves what an I/O agent's write leaves. -/
theorem onLink_ioWrite {f : State → State} {s : State} {a n v : Nat} {bad : Bool} (hl : LinkRuns s)
    (hf : f s = ioWrite a n v bad s) (hlost : biasLost (ioAccessed a n s) a n = false)
    (hstuck : (ioAccessed a n s).coh.stuck = none) : onLink f s = .next (leftEvent s (ioWrite a n v bad s)) := by
  rw [onLink_up hl, hf, left, heldBack_of_not_stuck s ((ioWrite_stuck hlost).trans hstuck)]

/-- Settles O55: both doors write as the west die's I/O agent does, at the address that the access carries. -/
theorem hostWrites : Obligations.HostWrites := by
  intro s len val poisoned ⟨hl, hopen⟩
  refine ⟨?bar2, ?inbound⟩
  case bar2 =>
    exact fun off ⟨hrole, hmem, htable⟩ ⟨hlost, hstuck⟩ =>
      ⟨onLink_ioWrite hl (bar2_writes hopen hrole hmem htable) hlost hstuck, readByte_ioWrite hlost, mem_ioWrite_poison hlost⟩
  case inbound =>
    exact fun addr ⟨hrole, hlink⟩ hwin ⟨hlost, hstuck⟩ =>
      ⟨onLink_ioWrite hl (inboundDma_writes hrole hlink hwin) hlost hstuck, readByte_ioWrite hlost, mem_ioWrite_poison hlost⟩

end Sys2Proof
end

section
/-! PROOFS. Events of a Hayloft slice and its stack, each effect under its conditions; then O16. -/
namespace Sys2Proof.Machine

/-! ## Fills (R267, R271) -/

/-- A sector read that arrives is valid in its line, no longer outstanding, and lets held requests be tried again. -/
theorem sectorArrives_found {h w : Nat} {r : CtrlReq} {y : HayState} (hway : findWay (ctrlDo r y) r.addr = some w) :
    let read := ctrlDo r y
    let line := r.addr / 128
    let k := r.addr / 32 % 4
    let loc := sliceSet r.addr * 16 + w
    let l := tgetD read.lines loc {}
    let dirty := if read.misses.any (fun m => m.line == line && m.after.testBit k) then 2 ^ k else 0
    sectorArrives h r y =
      sliceRetry h (missMod line (fun m => { m with todo := m.todo.filter (· != k) })
        { read with lines := tput read.lines loc { l with valid := l.valid ||| 2 ^ k, dirty := l.dirty ||| dirty } }) := by
  simp only [sectorArrives, hway]

/-- The slice and stack of an address once its channel has performed the writes that go next. -/
def writesDone (pa : Nat) (s : State) : HayState :=
  ctrlWrites (ctrlHolds s (homeOf pa)) (chanOf (localOf pa / 1024)) (hayGet s (homeOf pa)).ctrlQueue.length (hayGet s (homeOf pa))

theorem doSliceMissFill_next {pa sector : Nat} {r : CtrlReq} {s : State}
    (hpick : ctrlPick (ctrlHolds s (homeOf pa)) (writesDone pa s) (chanOf (localOf pa / 1024)) = some r) (hread : r.write = false)
    (haddr : r.addr = pa / 128 * 128 + 32 * sector) :
    doSliceMissFill pa sector s = hayPut (homeOf pa) (sectorArrives (homeOf pa) r (writesDone pa s)) s := by
  rw [writesDone] at hpick
  simp only [doSliceMissFill, hpick]
  exact if_neg (by simp [hread, haddr])

/-! ## Aged requests and ways (R267, R273) -/

theorem doCtrlAgePromote_queued {h id : Nat} {s : State} {q : CtrlReq} (hq : (hayGet s h).ctrlQueue.find? (fun q => q.id == id) = some q)
    (hchan : (chanQueue (hayGet s h) q.chan).contains q = true) :
    doCtrlAgePromote h id s = hayPut h { hayGet s h with
      ctrlQueue := (hayGet s h).ctrlQueue.map (fun x => if x.addr == q.addr && decide (x.id ≤ q.id) then { x with first := true } else x) } s := by
  simp only [doCtrlAgePromote, hq]
  exact if_neg (by rw [hchan]; decide)

theorem doHayWayCleanDone_cleaned {h : Nat} {s : State} (hclean : (hayGet s h).cleaning ≠ 0)
    (hidle : (hayGet s h).lines.any (fun e => (hayGet s h).cleaning.testBit (e.1 % 16) && locBusy (hayGet s h) e.1) = false) :
    let y := hayGet s h
    let on := y.powered &&& (65535 ^^^ y.cleaning)
    doHayWayCleanDone h s = setF hayStatusCleaning h 0 (setF hayStatusWaysPowered h (popCount on 16)
      (hayPut h ((y.lines.filter (fun e => y.cleaning.testBit (e.1 % 16))).foldl (fun y e => sliceEvict h e.1 y)
        { y with powered := on, cleaning := 0, cleanPos := 0 }) s)) :=
  if_neg (not_or.mpr ⟨hclean, ne_true_of_eq_false hidle⟩)

theorem doHayWayPowerUpDone_woken {h : Nat} {s : State} (hwake : (hayGet s h).waking ≠ 0) :
    let y := hayGet s h
    let on := y.powered ||| y.waking
    doHayWayPowerUpDone h s = setF hayStatusWaysPowered h (popCount on 16)
      (hayPut h { y with powered := on, waking := 0, lines := y.lines.filter (fun e => !y.waking.testBit (e.1 % 16)) } s) :=
  if_neg hwake

/-! ## Temperature bands (Table MS-5) -/

theorem bandHot_of_cool {b : StackBand} (h : b = .upTo85 ∨ b = .upTo95) : bandHot b = false := by
  rcases h with rfl | rfl <;> rfl

theorem bandHot_of_hot {b : StackBand} (h : b = .upTo105 ∨ b = .above105) : bandHot b = true := by
  rcases h with rfl | rfl <;> rfl

/-- A stack that passes 95 °C on its way above 105 °C is held, and its die reports it. -/
theorem bandChange_above105 {h : Nat} {s : State} (hcool : bandHot (hayGet s h).band = false) :
    doStackTempBandChange h .above105 s = writeErr (hayRec h 0x0516 0x06 vPending 0) none
      (raise flHayStatusThermal h (setF hayStatusThermHold h 1 (setF hayStatusRefreshRate h 2
        (hayPut h { hayGet s h with band := .above105 } s)))) :=
  if_pos (by rw [hcool]; rfl)

/-- Between 100 °C and 105 °C a hold stays as it is. -/
theorem bandChange_upTo105 {h : Nat} {s : State} (hhot : bandHot (hayGet s h).band = true) :
    doStackTempBandChange h .upTo105 s = setF hayStatusRefreshRate h 2 (hayPut h { hayGet s h with band := .upTo105 } s) :=
  (if_neg (by rw [hhot]; decide)).trans (if_neg (by rw [hhot]; decide))

theorem bandChange_upTo85 {h : Nat} {s : State} (hcool : bandHot (hayGet s h).band = false) :
    doStackTempBandChange h .upTo85 s = setF hayStatusThermHold h 0 (setF hayStatusRefreshRate h 0
      (hayPut h { hayGet s h with band := .upTo85 } s)) :=
  if_neg (by rw [hcool]; decide)

end Sys2Proof.Machine

namespace Sys2Proof

open Sys2Proof.Machine

theorem homeAct_leaves {s t u : State} (hr : Running s) (h : t = u) : homeAct s t = .next (leftBare s u) :=
  h ▸ homeAct_running hr

/-- Settles O16: each event's effect under its conditions, in the order of R267, R271, R273 and Table MS-5. -/
theorem hayloftEvents : Obligations.HayloftEvents := by
  intro s hr
  refine ⟨?fill, ?promote, ?clean, ?wake, ?hold, ?held, ?cool⟩
  case fill =>
    intro pa sector r w h chan y read line k loc l dirty filled hpick hread haddr hway
    exact homeAct_leaves hr ((doSliceMissFill_next hpick hread haddr).trans
      (congrArg (hayPut h · s) (sectorArrives_found hway)))
  case promote =>
    exact fun h request q hq hchan => homeAct_leaves hr (doCtrlAgePromote_queued hq hchan)
  case clean =>
    exact fun h hclean hidle => homeAct_leaves hr (doHayWayCleanDone_cleaned hclean hidle)
  case wake =>
    exact fun h hwake => homeAct_leaves hr (doHayWayPowerUpDone_woken hwake)
  case hold =>
    exact fun h hband => homeAct_leaves hr (bandChange_above105 (bandHot_of_cool hband))
  case held =>
    exact fun h hband => homeAct_leaves hr (bandChange_upTo105 (bandHot_of_hot hband))
  case cool =>
    exact fun h hband => homeAct_leaves hr (bandChange_upTo85 (bandHot_of_cool hband))

end Sys2Proof
end

section
/-! PROOFS. Errors of a memory stack and its slice, and their tests, each effect under its conditions; then O21. -/
namespace Sys2Proof.Machine

theorem thermHold_trips {h : Nat} {s : State} (hhold : flagSet s hayStatusThermHold h = true) :
    thermHold h s = trip (8 + h) (getF s dieTempTemp (8 + h)) 0x0630 s :=
  if_pos hhold

/-! ## Corrected errors (R278) -/

/-- The times of a row's corrected errors within a day, with the one now. -/
def rowTimes (pa : Nat) (s : State) : List Nat :=
  (cpTime s :: tgetD (hayGet s (homeOf pa)).ceTimes (rowKey pa) []).filter (fun x => cpTime s - x < dayNs)

theorem dramCorrected_kept {pa : Nat} {s : State} (hrow : rowPending s pa = none) (htimes : (rowTimes pa s).length < 16) :
    dramCorrected pa s =
      hayPut (homeOf pa) { hayGet s (homeOf pa) with ceTimes := tput (hayGet s (homeOf pa)).ceTimes (rowKey pa) (rowTimes pa s) }
        (bump hayCountsCeCount (homeOf pa) 1 s) :=
  (if_neg (by rw [hrow]; decide)).trans (if_neg (Nat.not_le.mpr htimes))

theorem dramCorrected_sixteenth {pa : Nat} {s : State} (hrow : rowPending s pa = none) (htimes : (rowTimes pa s).length = 16) :
    dramCorrected pa s = rowRecord pa 0x0510 0x03 (raise flHayStatusCeThresh (homeOf pa)
      (hayPut (homeOf pa) { hayGet s (homeOf pa) with ceTimes := tput (hayGet s (homeOf pa)).ceTimes (rowKey pa) [] }
        (bump hayCountsCeCount (homeOf pa) 1 s))) :=
  (if_neg (by rw [hrow]; decide)).trans (if_pos (Nat.le_of_eq htimes.symm))

/-! ## Patrol scrub (R280) -/

/-- The sector that patrol scrub reads next on a stack. -/
def scrubAddr (h : Nat) (s : State) : Nat :=
  physLine h ((hayGet s h).scrubPos / 4) * 128 + (hayGet s h).scrubPos % 4 * 32

theorem patrolRead_clean {h : Nat} {s : State} (hfree : ctrlHolds s h (bankOfRow (rowKey (scrubAddr h s))) = false) :
    patrolRead h false false s = hayPut h { hayGet s h with scrubPos := ((hayGet s h).scrubPos + 1) % 0xC0000000 } s :=
  if_neg (ne_true_of_eq_false hfree)

theorem patrolRead_waits {h : Nat} {corrected bad : Bool} {s : State}
    (hheld : ctrlHolds s h (bankOfRow (rowKey (scrubAddr h s))) = true) : patrolRead h corrected bad s = s :=
  if_pos hheld

/-! ## Tests of rows and locations (R280, R282) -/

/-- A row's test, its copy done with no uncorrectable sector: it passes, with the verdict of its record, or it is repaired. -/
theorem rowTestDone_noneBad {pa corrected : Nat} {ok : Bool} {s : State} {p : ErrRec} (hrow : rowPending s pa = some p) :
    let t := bump hayCountsCeCount (homeOf pa) (popCount corrected 64) s
    rowTestDone pa ok 0 corrected s =
      if ok then if (passes p (rowKey pa + 1) t).1 then (passes p (rowKey pa + 1) t).2 else repairRow pa p true (passes p (rowKey pa + 1) t).2
      else repairRow pa p false (bump reCountsTests 0 1 t) := by
  have hnone : (List.range 64).filter (fun i => Nat.testBit 0 i && !poisoned s (rowSector pa i) 32) = [] := by simp
  simp only [rowTestDone, hrow, hnone, List.foldl_nil]

/-- The pending record of a slice's location. -/
def locPending (s : State) (pa : Nat) : Option ErrRec :=
  s.err.pend.find? (fun p => p.level == lvPackage && p.unit == 8 + homeOf pa && p.reason == 0x0514 && p.detail == locWord pa)

theorem locTestDone_pending {pa way : Nat} {ok : Bool} {s : State} {p : ErrRec} (hloc : locPending s pa = some p) :
    let loc := sliceSet pa * 16 + way
    locTestDone pa way ok s =
      if ok then
        if (passes p (loc + 2 ^ 40) s).1 then (passes p (loc + 2 ^ 40) s).2
        else lasting p 0x0A53 p.detail true false (retireLoc (homeOf pa) loc (passes p (loc + 2 ^ 40) s).2)
      else lasting p 0x0515 p.detail true false (retireLoc (homeOf pa) loc (bump reCountsTests 0 1 s)) := by
  rw [locPending] at hloc
  simp only [locTestDone, hloc]

end Sys2Proof.Machine

namespace Sys2Proof

open Sys2Proof.Machine

theorem onHome_leaves {h : Nat} {f : State → State} {s u : State} (hr : HomeRuns s h) (hf : f s = u) :
    onHome h f s = .next (leftEvent s u) :=
  hf ▸ onHome_up hr

/-- Settles O21: each event's effect under its conditions, in the order of R276, R278–R280 and R282. -/
theorem memoryErrorEvents : Obligations.MemoryErrorEvents := by
  intro s
  refine ⟨?hold, ?corrected, ?sixteenth, ?row, ?slice, ?scrub, ?waits, ?rowPasses, ?rowFails, ?locFails, ?locPasses⟩
  case hold =>
    exact fun h hr hhold => onHome_leaves hr (thermHold_trips hhold)
  case corrected =>
    exact fun pa hr hrow htimes => onHome_leaves hr (dramCorrected_kept hrow htimes)
  case sixteenth =>
    exact fun pa hr hrow htimes => onHome_leaves hr (dramCorrected_sixteenth hrow htimes)
  case row =>
    exact fun pa hr => onHome_up hr
  case slice =>
    exact fun pa hr => onHome_up hr
  case scrub =>
    exact fun h hr hfree => onHome_leaves hr (patrolRead_clean hfree)
  case waits =>
    exact fun h corrected uncorrectable hr hheld => onHome_leaves hr (patrolRead_waits hheld)
  case rowPasses =>
    rintro pa badSectors corrected p t hr hrow rfl hpass
    exact onHome_leaves hr ((rowTestDone_noneBad hrow).trans (if_pos hpass))
  case rowFails =>
    rintro pa badSectors corrected p t hr hrow rfl
    exact onHome_leaves hr (rowTestDone_noneBad hrow)
  case locFails =>
    exact fun pa way p hr hloc => onHome_leaves hr (locTestDone_pending hloc)
  case locPasses =>
    exact fun pa way p hr hloc hpass => onHome_leaves hr ((locTestDone_pending hloc).trans (if_pos hpass))

end Sys2Proof
end

section
/-! PROOFS. Lines that a cache gives up or cleans and blocks that a core zeroes; then O54. -/
namespace Sys2Proof.Machine

/-! ## Waiting at a home -/

/-- An effect that waits on a condition and is not left waiting did not meet it. -/
theorem not_of_not_stuck {b : Prop} [Decidable b] {x : Stuck} {u v : State}
    (h : (if b then waitFor x u else v).coh.stuck = none) : ¬ b := by
  intro hb
  rw [if_pos hb] at h
  exact Option.some_ne_none _ h

/-! ## Lines of an agent (R296) -/

theorem cacheLine_setCacheLine_self {c : CacheLine} (hc : c ≠ {}) (a line : Nat) (s : State) :
    cacheLine (setCacheLine a line c s) a line = c := by
  simp only [setCacheLine, if_neg hc, cacheLine, tgetD, tget_tput_self, Option.getD_some]

/-- A line given up has left its writeback buffer, and nothing is open on it at its home. -/
theorem agentGivesUp_leaves {a line : Nat} {s : State} (h : (agentGivesUp a line s).coh.stuck = none) :
    (cacheLine (agentGivesUp a line s) a line).st ≠ .w ∧ lineOpen (agentGivesUp a line s) line = false := by
  unfold agentGivesUp at h ⊢
  have hdone := not_of_not_stuck h
  rw [if_neg hdone]
  simpa only [Bool.or_eq_true, decide_eq_true_eq, not_or, Bool.not_eq_true] using hdone

/-- A line cleaned is not modified: its copy, if it was, is now exclusive and clean. -/
theorem agentCleans_unmodified {a line : Nat} {s : State} (h : (agentCleans a line s).coh.stuck = none) :
    (cacheLine (agentCleans a line s) a line).st ≠ .m := by
  unfold agentCleans at h ⊢
  extract_lets at h ⊢
  rename_i c
  rw [if_neg (not_of_not_stuck h)]
  by_cases hm : c.st = .m
  · rw [if_pos hm, cacheLine_setCacheLine_self (fun hc => CacheSt.noConfusion (congrArg CacheLine.st hc))]
    exact CacheSt.noConfusion
  · rwa [if_neg hm]

/-- A copy that is evicted stands in the writeback buffer until its home has answered the message `k`; reservations on the line go
with it. -/
def evicted (k : CohMsgKind) (a line : Nat) (s : State) : State :=
  resvLost a line (sendMsg k a line false (setCacheLine a line { cacheLine s a line with st := .w } s))

section
variable {a line : Nat} {s : State} (hreq : (cacheLine s a line).req = none)
  (hhome : s.lostHomes.contains (homeOfLine line) = false)
include hreq hhome

theorem agentEvict_shared (hst : (cacheLine s a line).st = .s) : agentEvict a line s = evicted .evs a line s := by
  simp only [agentEvict, evicted, hst, hreq, hhome, Option.isSome_none, Bool.false_eq_true, if_false]

theorem agentEvict_exclusive (hst : (cacheLine s a line).st = .e) : agentEvict a line s = evicted .wbc a line s := by
  simp only [agentEvict, evicted, hst, hreq, hhome, Option.isSome_none, Bool.false_eq_true, if_false]

/-- The data of a modified copy goes home with its eviction. -/
theorem agentEvict_modified (hst : (cacheLine s a line).st = .m) : agentEvict a line s = evicted .wbm a line s := by
  simp only [agentEvict, evicted, hst, hreq, hhome, Option.isSome_none, Bool.false_eq_true, if_false]

end

/-! ## Cache-block instructions of a core (R344) -/

/-- The state in which a core's die owns the block of an address, for a store to all of it. -/
def blockOwned (h pa : Nat) (s : State) : State := rangeAccess .rdx (hartPort h) (pa / 64 * 64) 64 s

section
variable {h pa : Nat} {s : State}

theorem cboZeroBlock_zeroes (hup : coreUp s h = true) (hmem : coreMem s (pa / 64 * 64) 64 = true)
    (hkept : biasLost (blockOwned h pa s) (pa / 64 * 64) 64 = false) :
    cboZeroBlock h pa s = hartGets h 0 (dropResv h (pa / 64 * 64 / 128) (writeNum (pa / 64 * 64) 64 0 (blockOwned h pa s))) := by
  rw [← devWrite_kept hkept]
  exact (if_neg (by rw [hup]; decide)).trans (if_neg (by rw [hmem]; decide))

/-- Every byte of the block reads zero, unless its row or home is out of service; no other byte changes. -/
theorem readByte_cboZeroBlock (hup : coreUp s h = true) (hmem : coreMem s (pa / 64 * 64) 64 = true)
    (hkept : biasLost (blockOwned h pa s) (pa / 64 * 64) 64 = false) (x : Nat) :
    readByte (cboZeroBlock h pa s) x =
      if pa / 64 * 64 ≤ x ∧ x < pa / 64 * 64 + 64 ∧ deadAddr (blockOwned h pa s) x = false then 0
      else readByte (blockOwned h pa s) x := by
  rw [cboZeroBlock_zeroes hup hmem hkept]
  refine (readByte_writeNum (pa / 64 * 64) 64 0 x (blockOwned h pa s)).trans ?_
  rw [Nat.zero_shiftRight]
  rfl

theorem cboFlushLine_gives (hup : coreUp s h = true) (hmem : coreMem s pa 1 = true) :
    cboFlushLine h pa s = hartGets h 0 (agentGivesUp (hartPort h) (pa / 128) s) :=
  (if_neg (by rw [hup]; decide)).trans (if_pos hmem)

theorem cboCleanLine_cleans (hup : coreUp s h = true) (hmem : coreMem s pa 1 = true) :
    cboCleanLine h pa s = hartGets h 0 (agentCleans (hartPort h) (pa / 128) s) :=
  (if_neg (by rw [hup]; decide)).trans (if_pos hmem)

end

end Sys2Proof.Machine

namespace Sys2Proof

open Sys2Proof.Machine

/-- An instruction of a hart that waits for no home retires with its result. -/
theorem served_retires {h : Nat} {f : State → State} {s t : State} (hp : Powered s) (hup : coreUp s h = true)
    (hf : f s = hartGets h 0 t) (hstuck : t.coh.stuck = none) :
    served s (coreInstr h f s) = .next (leftEvent s (retires h (hartGets h 0 t))) := by
  have hleft : (retires h (hartGets h 0 t)).coh.stuck = none := hstuck
  rw [served_powered hp, coreInstr_gets hup hf, left, heldBack_of_not_stuck s hleft]

/-- Settles O54: each instruction retires, and its line or block stands as R344 says. -/
theorem cacheBlocks : Obligations.CacheBlocks := by
  intro s h pa ⟨hp, hup⟩
  refine ⟨?zero, rfl, ?flush, ?clean, ?evict⟩
  case zero =>
    intro a got t hmem ⟨hkept, hstuck⟩
    have ht : t = hartGets h 0 _ := cboZeroBlock_zeroes hup hmem hkept
    refine ⟨?_, readByte_cboZeroBlock hup hmem hkept⟩
    rw [ht]
    exact served_retires hp hup ht hstuck
  case flush =>
    exact fun ⟨hmem, hstuck⟩ =>
      ⟨served_retires hp hup (cboFlushLine_gives hup hmem) hstuck, agentGivesUp_leaves hstuck⟩
  case clean =>
    exact fun ⟨hmem, hstuck⟩ =>
      ⟨served_retires hp hup (cboCleanLine_cleans hup hmem) hstuck, agentCleans_unmodified hstuck⟩
  case evict =>
    exact fun agent line ⟨hst, hreq, hhome⟩ => agentEvict_modified hreq hhome hst

end Sys2Proof
end

section
/-! PROOFS. A request that finds its line held exclusively by another agent; then O17. -/
namespace Sys2Proof.Machine

/-- A request finds its line held exclusively by another agent, and nothing else in its way: no transaction, reservation, lost home,
sweep or host bias. -/
def MeetsOwner (r : HomeReq) (key : Nat) (e : DirEnt) (s : State) : Prop :=
  dirFind s r.line = some (key, e) ∧ e.st = 2 ∧ entryTxn s key e = none ∧ e.resv = none ∧
  s.lostHomes.contains (homeOfLine r.line) = false ∧ tget s.coh.sweeping (homeOfLine r.line) = none ∧
  hostBias s (pageOf (r.line * 128)) = false ∧ (isCaching r.kind = true → r.port < 10 ∧ e.sharers.testBit r.port = false)

/-- What the owner of a line is sent for a request (Table CO-5). -/
def ownerSnoop : ReqKind → CohMsgKind
  | .rds => .snps
  | .ncrd => .snps
  | _ => .snpi

/-- The transaction that a request opens in OS, the owner of its line being asked. -/
def ownerAsked (r : HomeReq) (key : Nat) (e : DirEnt) (s : State) : State :=
  snoopMask (ownerSnoop r.kind) e.sharers r.line (beginTxn key { e with resv := none }
    { req := r, phase := .os, await := e.sharers, owner := (List.range 10).find? (fun x => e.sharers.testBit x) } s)

variable {r : HomeReq} {key : Nat} {e : DirEnt} {s : State}

/-- In X the home asks the owner for every request but one of the owner itself (Table CO-5). -/
theorem decideStable_owned (hst : e.st = 2) (hother : isCaching r.kind = true → r.port < 10 ∧ e.sharers.testBit r.port = false) :
    decideStable r key { e with resv := none } s = ownerAsked r key e s := by
  have hmine : isCaching r.kind = true → (decide (r.port < 10) && e.sharers.testBit r.port) = false :=
    fun h => by rw [(hother h).2, Bool.and_false]
  unfold decideStable ownerAsked
  obtain ⟨kind, port, line, sectors, first, write, by_⟩ := r
  rw [hst]
  cases kind with
  | rds | rdx | upg => exact if_neg (ne_true_of_eq_false (hmine rfl))
  | _ => rfl

theorem decideReq_meetsOwner (h : MeetsOwner r key e s) : decideReq r false s = ownerAsked r key e s := by
  obtain ⟨hfound, hst, hclosed, hfree, hhome, hstill, hdevice, hother⟩ := h
  rw [← decideStable_owned hst hother]
  simp only [decideReq, hhome, hfound, hstill, hclosed, hfree, decideAt, hdevice, taken, Option.isSome_none, Bool.false_and,
    Bool.false_eq_true, if_false]

theorem homeTakes_meetsOwner (htable : inBiasTable s (r.line * 128) 128 = false)
    (h : MeetsOwner r key e (arbiterTakes r.line r.port s)) :
    homeTakes r s = settle (ownerAsked r key e (arbiterTakes r.line r.port s)) := by
  rw [← decideReq_meetsOwner h]
  exact if_neg (by rw [htable]; exact nofun)

/-- The state in which a port has sent a non-caching request: a credit of the port is in use, and the frame has raised the home's
floor. -/
def ncCharged (r : HomeReq) (s : State) : State :=
  let key := creditKey (homeOfLine r.line) r.port
  loamStamp (loamStampOf s (portDie r.port)) (8 + homeOfLine r.line)
    { s with coh.credits := tput s.coh.credits key (tgetD s.coh.credits key 0 + 1) }

theorem ncRequest_meetsOwner (hcredit : tgetD s.coh.credits (creditKey (homeOfLine r.line) r.port) 0 < portCredits r.port)
    (htable : inBiasTable (ncCharged r s) (r.line * 128) 128 = false)
    (h : MeetsOwner r key e (arbiterTakes r.line r.port (ncCharged r s))) :
    ncRequest r s = settle (ownerAsked r key e (arbiterTakes r.line r.port (ncCharged r s))) :=
  (if_neg (Nat.not_le.mpr hcredit)).trans (homeTakes_meetsOwner htable h)

end Sys2Proof.Machine

namespace Sys2Proof

open Sys2Proof.Machine

section
variable {s u : State} {k : CohMsgKind} {port line : Nat} {toAgent : Bool} {f : State → State}

/-- A message that is first of its queue and finds its receiver in service has its effect. -/
theorem msgAct_arrives (hr : Running s) (h : msgBehind k port line toAgent s = false ∧ receiverUp s port line toAgent = true)
    (hf : f (recvMsg k port line toAgent s) = u) : msgAct k port line toAgent f s = .next (leftBare s u) := by
  obtain ⟨hfirst, hup⟩ := h
  rw [← hf]
  exact homeAct_leaves hr ((if_neg (ne_true_of_eq_false hfirst)).trans (if_pos hup))

/-- A die out of service takes no message (R468). -/
theorem msgAct_discarded (hr : Running s)
    (h : msgBehind k port line toAgent s = false ∧ receiverUp s port line toAgent = false) :
    msgAct k port line toAgent f s = .next (leftBare s (recvMsg k port line toAgent s)) := by
  obtain ⟨hfirst, hdown⟩ := h
  exact homeAct_leaves hr ((if_neg (ne_true_of_eq_false hfirst)).trans (if_neg (ne_true_of_eq_false hdown)))

end

/-- Settles O17: each request opens a transaction in OS, and its kind says which snoop goes to the owner. -/
theorem requestSnoopsTheOwner : Obligations.RequestSnoopsTheOwner := by
  intro s pa a port sectors w key e hr line charged begun meets
  refine ⟨?rds, ?rdx, ?upg, ?ncrd, ?ncwr⟩
  case rds =>
    intro hhome hmsg htable hmeets
    show execRds pa a s = _
    exact msgAct_arrives hr hmsg ((if_pos hhome).trans (homeTakes_meetsOwner htable hmeets))
  case rdx =>
    intro hhome hmsg htable hmeets
    show execRdx pa a s = _
    exact msgAct_arrives hr hmsg ((if_pos hhome).trans (homeTakes_meetsOwner htable hmeets))
  case upg =>
    intro hhome hmsg htable hmeets
    show execUpg pa a s = _
    exact msgAct_arrives hr hmsg ((if_pos hhome).trans (homeTakes_meetsOwner htable hmeets))
  case ncrd =>
    intro hhome hcredit htable hmeets
    show execNcrd pa port sectors s = _
    refine homeAct_leaves hr ((if_pos hhome).trans ?_)
    exact ncRequest_meetsOwner hcredit htable hmeets
  case ncwr =>
    intro hhome hcredit htable hmeets
    show execNcwr pa port w s = _
    refine homeAct_leaves hr ((if_pos hhome).trans ?_)
    exact ncRequest_meetsOwner hcredit htable hmeets

end Sys2Proof
end

section
/-! PROOFS. What a home does with an agent's writebacks, evictions, responses and acknowledgements; then O18. -/
namespace Sys2Proof.Machine

variable {pa a key : Nat} {e : DirEnt} {t : Txn} {s : State}

/-! ## Writebacks and evictions (R296) -/

/-- A writeback's data, if it brings any, reaches the slice, and the agent is answered. -/
def writtenBack (line a : Nat) (d : Option (LineData × Nat)) (s : State) : State :=
  sendMsg .wback a line true
    (match d with | some (x, m) => applyLineData line x m (sliceAccess (slicePut line a m) s) | none => s)

/-- A writeback from the owner of a closed line leaves the line in U. -/
theorem homeWriteback_owner (d : Option (LineData × Nat)) (hfound : dirFind s (pa / 128) = some (key, e))
    (hclosed : openTxn s (pa / 128) = none) (hst : e.st = 2) (howner : e.sharers = 2 ^ a) :
    homeWriteback pa a d s = closeTxn key { e with st := 0, sharers := 0 } (writtenBack (pa / 128) a d s) := by
  simp only [homeWriteback, hfound, hclosed, hst, howner, and_self, if_true]
  rfl

/-- An eviction takes its agent from the sharers of a line that others still share. -/
theorem homeEvict_sharer (hfound : dirFind s (pa / 128) = some (key, e)) (hst : e.st = 1) (hmember : e.sharers.testBit a = true)
    (hleft : withBits e.sharers a a 0 ≠ 0) :
    homeEvict pa a s =
      dirPut key { e with sharers := withBits e.sharers a a 0, st := 1 } (sendMsg .wback a (pa / 128) true s) := by
  simp only [homeEvict, hfound, hst, hmember, hleft, and_self, if_true, false_and, if_false, Nat.one_ne_zero]

/-! ## Responses and acknowledgements (R299) -/

/-- Data of a response reaches the slice. -/
def responseData (line a : Nat) (d : Option LineData) (s : State) : State :=
  match d with | some x => applyLineData line x 15 (sliceAccess (slicePut line a 15) s) | none => s

/-- A response of an agent that is awaited with others is recorded, its data written. -/
theorem homeResponse_awaited (keepsS wbp : Bool) (d : Option LineData) (hopen : openTxn s (pa / 128) = some (key, e, t))
    (hphase : t.phase = .os) (hawaited : t.await.testBit a = true) (hmore : withBits t.await a a 0 ≠ 0) :
    homeResponse pa a keepsS wbp d s =
      txnPut key e { t with
        await := withBits t.await a a 0
        ownerKeepsS := t.ownerKeepsS || (t.owner == some a && keepsS)
        wbp := t.wbp || (t.owner == some a && wbp)
        dirty := if d.isSome then t.dirty + 1 else t.dirty } (responseData (pa / 128) a d s) := by
  simp only [homeResponse, hopen, hphase, hawaited, and_self, if_true]
  exact if_pos (bne_iff_ne.mpr hmore)

/-- CmpAck of the requester closes a transaction in OA. -/
theorem homeCmpAck_closes (hopen : openTxn s (pa / 128) = some (key, e, t)) (hmode : transientMode s = false)
    (hphase : t.phase = .oa) (hport : t.req.port = a) : homeCmpAck pa a s = closeTxn key e s := by
  simp only [homeCmpAck, hopen, hmode, hphase, hport, and_self, if_true, Bool.false_eq_true, if_false]

theorem doSliceAccessDone_grants (hopen : openTxn s (pa / 128) = some (key, e, t)) (hphase : t.phase = .om)
    (hready : sliceReady (reqSlice t.req) s = true) : doSliceAccessDone pa s = settle (sendGrant key e t s) := by
  simp only [doSliceAccessDone, hopen, hphase, hready, and_self, if_true]

end Sys2Proof.Machine

namespace Sys2Proof

open Sys2Proof.Machine

/-- Settles O18: each message finds the entry or the transaction that it is for, and has its effect there. -/
theorem homeMessages : Obligations.HomeMessages := by
  intro s pa a d dirty wbp key e t hr line got owned awaited
  refine ⟨?wbm, ?wbc, ?evs, ?rsps, ?rspi, ?rspsd, ?rspid, ?cmpack, ?slice, ?lost⟩
  case wbm =>
    intro hmsg ⟨hfound, hclosed, hst, howner⟩
    show execWbm pa a d dirty s = _
    exact msgAct_arrives hr hmsg (congrArg settle (homeWriteback_owner (some (d, dirty.toNat)) hfound hclosed hst howner))
  case wbc =>
    intro hmsg ⟨hfound, hclosed, hst, howner⟩
    show execWbc pa a s = _
    exact msgAct_arrives hr hmsg (congrArg settle (homeWriteback_owner none hfound hclosed hst howner))
  case evs =>
    intro hmsg hfound hst _ hmember hleft
    show execEvs pa a s = _
    exact msgAct_arrives hr hmsg (congrArg settle (homeEvict_sharer hfound hst hmember hleft))
  case rsps =>
    intro after hmsg ⟨hopen, hphase, hawaited, hmore⟩
    show execRsps pa a s = _
    refine msgAct_arrives hr hmsg (congrArg settle ((homeResponse_awaited true false none hopen hphase hawaited hmore).trans ?_))
    simp only [Bool.and_true, Bool.and_false, Bool.or_false]
    rfl
  case rspi =>
    intro after hmsg ⟨hopen, hphase, hawaited, hmore⟩
    show execRspi pa a wbp s = _
    refine msgAct_arrives hr hmsg (congrArg settle ((homeResponse_awaited false wbp none hopen hphase hawaited hmore).trans ?_))
    simp only [Bool.and_false, Bool.or_false]
    rfl
  case rspsd =>
    intro after hmsg ⟨hopen, hphase, hawaited, hmore⟩
    show execRspsd pa a d s = _
    refine msgAct_arrives hr hmsg (congrArg settle ((homeResponse_awaited true false (some d) hopen hphase hawaited hmore).trans ?_))
    simp only [Bool.and_true, Bool.and_false, Bool.or_false]
    rfl
  case rspid =>
    intro after hmsg ⟨hopen, hphase, hawaited, hmore⟩
    show execRspid pa a d s = _
    refine msgAct_arrives hr hmsg (congrArg settle ((homeResponse_awaited false false (some d) hopen hphase hawaited hmore).trans ?_))
    simp only [Bool.and_false, Bool.or_false]
    rfl
  case cmpack =>
    intro hmsg hopen hmode hphase hport
    show execCmpack pa a s = _
    exact msgAct_arrives hr hmsg (congrArg settle (homeCmpAck_closes hopen hmode hphase hport))
  case slice =>
    intro hopen hphase hready
    exact homeAct_leaves hr (doSliceAccessDone_grants hopen hphase hready)
  case lost =>
    intro hmsg
    show execWbm pa a d dirty s = _
    exact msgAct_discarded hr hmsg

end Sys2Proof
end

section
/-! PROOFS. What a caching agent does with a home's snoops, grants, answers, Nacks and WbAcks; then O19. -/
namespace Sys2Proof.Machine

variable {a line : Nat} {s : State}

/-! ## Snoops (Table CO-4, R295) -/

/-- SnpS shares a modified copy, whose data goes home. -/
theorem agentSnpS_modified (h : (cacheLine s a line).st = .m) :
    agentSnpS a line s = sendMsg .rspsd a line false (setCacheLine a line { cacheLine s a line with st := .s } s) := by
  simp only [agentSnpS, h]

theorem agentSnpS_exclusive (h : (cacheLine s a line).st = .e) :
    agentSnpS a line s = sendMsg .rsps a line false (setCacheLine a line { cacheLine s a line with st := .s } s) := by
  simp only [agentSnpS, h]

/-- SnpI takes a modified copy, whose data goes home. -/
theorem agentSnpI_modified (h : (cacheLine s a line).st = .m) :
    agentSnpI a line s = sendMsg .rspid a line false (setCacheLine a line { cacheLine s a line with st := .i } s) := by
  simp only [agentSnpI, h]

theorem agentSnpI_shared (h : (cacheLine s a line).st = .s) :
    agentSnpI a line s = sendMsg .rspi a line false (setCacheLine a line { cacheLine s a line with st := .i } s) := by
  simp only [agentSnpI, h]

/-! ## Grants (R298) -/

theorem agentDataS_granted (hst : (cacheLine s a line).st = .i) (hreq : (cacheLine s a line).req = some .rds) :
    agentDataS a line false s = granted a line .s s :=
  if_pos ⟨hst, hreq⟩

theorem agentDataX_read (hst : (cacheLine s a line).st = .i) (hreq : (cacheLine s a line).req = some .rds) :
    agentDataX a line s = granted a line .e s :=
  if_pos ⟨hst, hreq⟩

/-- DataX for a store grants a copy that its stores modify. -/
theorem agentDataX_store (hst : (cacheLine s a line).st = .i)
    (hreq : (cacheLine s a line).req = some .rdx ∨ (cacheLine s a line).req = some .upg) :
    agentDataX a line s = granted a line .m s := by
  have hread : (cacheLine s a line).req ≠ some .rds := by rcases hreq with h | h <;> rw [h] <;> decide
  exact (if_neg fun h => hread h.2).trans (if_pos ⟨hst, hreq⟩)

theorem agentGntX_granted (hst : (cacheLine s a line).st = .s) (hreq : (cacheLine s a line).req = some .upg) :
    agentGntX a line s = granted a line .m s :=
  if_pos ⟨hst, hreq⟩

/-! ## Answers to non-caching requests, Nacks and WbAcks -/

variable {k : CohMsgKind} {port : Nat} {toAgent : Bool} {m : CohMsg}

/-- A message that is found is one of its port and line. -/
theorem msgFind_port_line (h : msgFind k port line toAgent s = some m) : m.port = port ∧ m.line = line := by
  have hm := List.find?_some h
  simp only [Bool.and_eq_true, beq_iff_eq] at hm
  obtain ⟨⟨⟨-, hport⟩, hline⟩, -⟩ := hm
  exact ⟨hport, hline⟩

theorem recvMsg_found (h : msgFind k port line toAgent s = some m) : recvMsg k port line toAgent s = msgArrives m s := by
  simp only [recvMsg, h]

theorem msgFlag_found (h : msgFind k port line true s = some m) : msgFlag k port line s = m.flag := by
  simp only [msgFlag, h]

/-- An answer to a request that a row made is kept for its port, which has its credit again. -/
theorem ncAnswered_row (hmsg : msgBehind k port line true s = false ∧ receiverUp s port line true = true)
    (hfind : msgFind k port line true s = some m) (hby : m.answer.by_ = .row) :
    ncAnswered k port line s =
      let t := recvMsg k port line true s
      creditReturn (homeOfLine line) port { t with coh.answers := (port, line, m.answer) :: t.coh.answers } := by
  obtain ⟨hfirst, hup⟩ := hmsg
  obtain ⟨rfl, rfl⟩ := msgFind_port_line hfind
  simp only [ncAnswered, hfind, hfirst, hup, Bool.false_eq_true, if_false, if_true, recvMsg_found hfind, ncArrive, hby]

theorem agentNack_remembered (hmode : transientMode s = false) (hreq : (cacheLine s a line).req.isSome = true) :
    agentNack a line s = creditReturn (homeOfLine line) a (setCacheLine a line { cacheLine s a line with nacked := true } s) := by
  have hasks : (cacheLine s a line).req.isNone = false := by rw [← Option.not_isSome, hreq]; rfl
  exact if_neg (by rw [hmode, hasks]; exact nofun)

/-- WbAck ends state W; with no access waiting nothing else follows. -/
theorem agentWbAck_idle (hst : (cacheLine s a line).st = .w) (hstores : (cacheLine s a line).stores = [])
    (hloads : (cacheLine s a line).loads = 0) :
    agentWbAck a line s = setCacheLine a line { cacheLine s a line with st := .i, loads := 0, first := 0 } s := by
  simp only [agentWbAck, hst, hstores, hloads, if_true, List.isEmpty_nil, beq_self_eq_true, Bool.and_self]

end Sys2Proof.Machine

namespace Sys2Proof

open Sys2Proof.Machine

/-- Settles O19: each message finds the copy in a state of Tables CO-3 and CO-4. -/
theorem agentAnswersHome : Obligations.AgentAnswersHome := by
  intro s pa a port hr line got copyAt
  refine ⟨?snpsM, ?snpsE, ?snpiM, ?snpiS, ?datas, ?dataxRead, ?dataxStore, ?gntx, ?ncdata, ?ncack, ?nack, ?ncNack, ?wback, ?lost⟩
  case snpsM =>
    intro hmsg hst
    show execSnps a pa s = _
    exact msgAct_arrives hr hmsg (agentSnpS_modified hst)
  case snpsE =>
    intro hmsg hst
    show execSnps a pa s = _
    exact msgAct_arrives hr hmsg (agentSnpS_exclusive hst)
  case snpiM =>
    intro t kept hmsg hst
    show execSnpi a pa s = _
    exact msgAct_arrives hr hmsg (congrArg (resvLost a line) (agentSnpI_modified hst))
  case snpiS =>
    intro t kept hmsg hst
    show execSnpi a pa s = _
    exact msgAct_arrives hr hmsg (congrArg (resvLost a line) (agentSnpI_shared hst))
  case datas =>
    intro hmsg hflag hst hreq
    show execDatas a pa s = _
    refine msgAct_arrives hr hmsg ?_
    rw [hflag]
    exact agentDataS_granted hst hreq
  case dataxRead =>
    intro hmsg hst hreq
    show execDatax a pa s = _
    exact msgAct_arrives hr hmsg (agentDataX_read hst hreq)
  case dataxStore =>
    intro hmsg hst hreq
    show execDatax a pa s = _
    exact msgAct_arrives hr hmsg (agentDataX_store hst hreq)
  case gntx =>
    intro hmsg hst hreq
    show execGntx a pa s = _
    exact msgAct_arrives hr hmsg (agentGntX_granted hst hreq)
  case ncdata =>
    exact fun m hmsg hfind hby => homeAct_leaves hr (ncAnswered_row hmsg hfind hby)
  case ncack =>
    exact fun m hmsg hfind hby => homeAct_leaves hr (ncAnswered_row hmsg hfind hby)
  case nack =>
    intro m hmsg hfind hflag hmode hreq
    show msgAct .nack a line true (nackArrive a line (msgFlag .nack a line s)) s = _
    rw [msgFlag_found hfind, hflag]
    exact msgAct_arrives hr hmsg (agentNack_remembered hmode hreq)
  case ncNack =>
    intro m hmsg hfind hflag
    show msgAct .nack port line true (nackArrive port line (msgFlag .nack port line s)) s = _
    rw [msgFlag_found hfind, hflag]
    exact msgAct_arrives hr hmsg rfl
  case wback =>
    intro hmsg hst hstores hloads
    show execWback a pa s = _
    exact msgAct_arrives hr hmsg (agentWbAck_idle hst hstores hloads)
  case lost =>
    intro hmsg
    show execSnpi a pa s = _
    exact msgAct_discarded hr hmsg

end Sys2Proof
end

section
/-! PROOFS. What a caching agent does of itself: loads, stores, evictions and requests that go again; then O20. -/
namespace Sys2Proof.Machine

variable {a line : Nat} {s : State}

/-! ## Loads and stores (R294) -/

theorem agentLoad_hit (h : (cacheLine s a line).st = .s ∨ (cacheLine s a line).st = .e ∨ (cacheLine s a line).st = .m)
    (first : Nat) : agentLoad a line first s = s := by
  rcases h with h | h | h <;> simp only [agentLoad, h]

theorem agentLoad_miss (hst : (cacheLine s a line).st = .i) (hreq : (cacheLine s a line).req = none) (first : Nat) :
    agentLoad a line first s = agentRequest a line .rds (setCacheLine a line
      { cacheLine s a line with loads := (cacheLine s a line).loads + 1, first := first } s) := by
  simp only [agentLoad, hst, hreq, Option.isSome_none, Bool.false_eq_true, if_false]

variable {w : LineWrite}

theorem agentStore_modified (hst : (cacheLine s a line).st = .m) : agentStore a line w s = applyLineWrite line w s := by
  simp only [agentStore, hst]

theorem agentStore_exclusive (hst : (cacheLine s a line).st = .e) :
    agentStore a line w s = setCacheLine a line { cacheLine s a line with st := .m } (applyLineWrite line w s) := by
  simp only [agentStore, hst]

/-- The store waits for the line. -/
def storeWaits (a line : Nat) (w : LineWrite) (s : State) : State :=
  setCacheLine a line { cacheLine s a line with stores := (cacheLine s a line).stores ++ [w] } s

theorem agentStore_shared (hst : (cacheLine s a line).st = .s) (hreq : (cacheLine s a line).req = none) :
    agentStore a line w s = agentRequest a line .upg (storeWaits a line w s) := by
  simp only [agentStore, storeWaits, hst, hreq, Option.isSome_none, Bool.false_eq_true, if_false]

theorem agentStore_miss (hst : (cacheLine s a line).st = .i) (hreq : (cacheLine s a line).req = none) :
    agentStore a line w s = agentRequest a line .rdx (storeWaits a line w s) := by
  simp only [agentStore, storeWaits, hst, hreq, Option.isSome_none, Bool.false_eq_true, if_false]

/-! ## Requests that go again (R298) -/

theorem agentResend_nacked {k : ReqKind} (hreq : (cacheLine s a line).req = some k) (hnacked : (cacheLine s a line).nacked = true) :
    agentResend a line s = agentRequest a line (if k = .upg ∧ (cacheLine s a line).st = .i then .rdx else k) s := by
  simp only [agentResend, hreq, hnacked, if_true]

theorem ncResend_nacked {port : Nat} {r : HomeReq}
    (hfind : s.coh.ncNacked.find? (fun r => r.port == port && r.line == line) = some r) (hnone : msgFind .nack port line true s = none) :
    ncResend port line s = ncRequest r { s with coh.ncNacked := s.coh.ncNacked.erase r } := by
  simp only [ncResend, hfind, hnone, Option.isSome_none, Bool.false_eq_true, if_false]

end Sys2Proof.Machine

namespace Sys2Proof

open Sys2Proof.Machine

/-- An agent of a die in service acts on a line that has a home. -/
theorem agent_acts {s t u : State} {a : Nat} {home : Bool} (hr : Running s) (hup : dieUp s (portDie a) = true) (hhome : home = true)
    (h : t = u) : homeAct s (if home then atAgent a s t else s) = .next (leftBare s u) :=
  homeAct_leaves hr ((if_pos hhome).trans ((if_pos hup).trans h))

/-- Settles O20: each access, eviction and request sent again, by the state of the copy. -/
theorem agentActs : Obligations.AgentActs := by
  intro s pa a w hr hup line c
  refine ⟨?hit, ?miss, ?storeM, ?storeE, ?storeS, ?storeI, ?evictS, ?evictE, ?evictM, ?resend, ?ncResend⟩
  case hit => exact fun hhome hst => agent_acts hr hup hhome (agentLoad_hit hst _)
  case miss => exact fun hhome hst hreq => agent_acts hr hup hhome (agentLoad_miss hst hreq _)
  case storeM => exact fun hhome hst => agent_acts hr hup hhome (agentStore_modified hst)
  case storeE => exact fun hhome hst => agent_acts hr hup hhome (agentStore_exclusive hst)
  case storeS => exact fun hhome hst hreq => agent_acts hr hup hhome (agentStore_shared hst hreq)
  case storeI => exact fun hhome hst hreq => agent_acts hr hup hhome (agentStore_miss hst hreq)
  case evictS => exact fun hhome hreq hlost hst => agent_acts hr hup hhome (agentEvict_shared hreq hlost hst)
  case evictE => exact fun hhome hreq hlost hst => agent_acts hr hup hhome (agentEvict_exclusive hreq hlost hst)
  case evictM => exact fun hhome hreq hlost hst => agent_acts hr hup hhome (agentEvict_modified hreq hlost hst)
  case resend =>
    exact fun k hreq hnacked =>
      homeAct_leaves hr ((if_pos hup).trans ((if_pos hnacked).trans (agentResend_nacked hreq hnacked)))
  case ncResend =>
    exact fun r hnacked hfind hnone =>
      homeAct_leaves hr ((if_pos hup).trans ((if_neg (ne_true_of_eq_false hnacked)).trans (ncResend_nacked hfind hnone)))

end Sys2Proof
end

section
/-! PROOFS. A home's timeouts, directory errors and sweeps; then O22. -/
namespace Sys2Proof.Machine

/-! ## Timeouts (R302) -/

/-- The record of an agent whose answer is late. -/
def lateReport (line : Nat) (s : State) (a : Nat) : State :=
  writeErr
    { level := lvPackage, unit := 8 + homeOfLine line, reason := 0x0520, cls := 0x04, verdict := vTransient, detail := timeoutDetail line a }
    none s

/-- Agents that leave the sharers of a line. -/
def withoutSharers (late : List Nat) (e : DirEnt) : DirEnt := { e with sharers := late.foldl (fun m a => withBits m a a 0) e.sharers }

/-- A request in OS goes on without the agents that are late: their records are written, the line is poisoned, the answer is sent. -/
theorem homeTimeoutAt_asked {line key : Nat} {e : DirEnt} {t : Txn} {s : State} (hopen : openTxn s line = some (key, e, t))
    (hphase : t.phase = .os) (hhost : t.d2h = false) :
    let late := agentsOf t.await
    let e' := withoutSharers late e
    homeTimeoutAt line s = (late, settle (finishTxn key e' { t with await := 0, wbp := false }
      (late.foldl (lateReport line) (raise flCoStatusTimeout (homeOfLine line) (poisonRange (line * 128) 128 (dirPut key e' s)))))) := by
  simp only [homeTimeoutAt, hopen, hphase, hhost, Bool.and_false, Bool.false_eq_true, if_false]
  rfl

/-! ## Directory errors (R292) -/

/-- The record of a directory error. -/
def dirErrRecord (h set way : Nat) : ErrRec :=
  { level := lvPackage, unit := 8 + h, reason := 0x0522, cls := 0x02, detail := set * 16 + way }

theorem dirEcc_empty {h set way : Nat} {s : State} (hnone : tget s.coh.dir (dirBase h set + way) = none) :
    dirEcc h set way s = pendErr (dirErrRecord h set way) (raise flCoStatusDirErr h s) := by
  simp only [dirEcc, hnone]
  rfl

/-- A shared line with no transaction open is swept: every agent is snooped, no owner is named. -/
theorem dirEcc_shared {h set way : Nat} {s : State} {e : DirEnt} (hentry : tget s.coh.dir (dirBase h set + way) = some e)
    (hclosed : entryTxn s (dirBase h set + way) e = none) (hst : e.st = 1) :
    let key := dirBase h set + way
    let line := lineOfEntry key e
    dirEcc h set way s = pendErr (dirErrRecord h set way) (raise flCoStatusDirErr h (snoopMask .snpi 1023 line
      (beginTxn key e { req := { kind := .eccSweep, port := 99, line := line }, phase := .os, await := 1023, owner := none } s))) := by
  have howner : ¬ (e.st = 2) := by rw [hst]; decide
  simp only [dirEcc, hentry, hclosed, if_neg howner]
  rfl

/-! ## Sweeps (R303) -/

/-- A home's sweep for one agent writes its lasting record. -/
def sweptFor (h : Nat) (s : State) (a : Nat) : State :=
  let r := sweepAgent h a s
  writeErr { level := lvPackage, unit := 8 + h, subunit := a, reason := 0x0521, cls := 0x07, verdict := vLasting, out := true, detail := r.1 }
    none (raise flCoStatusAgentLost h r.2)

theorem sweepDone_swept {h m : Nat} {s : State} (hsweep : tget s.coh.sweeping h = some m) :
    let t := (agentsOf m).foldl (sweptFor h) s
    sweepDone h s = settle (setF coStatusSweep h 0 { t with coh.sweeping := tdel t.coh.sweeping h }) := by
  simp only [sweepDone, hsweep]
  rfl

end Sys2Proof.Machine

namespace Sys2Proof

open Sys2Proof.Machine

/-- Settles O22: the timeout of R302, the directory error of R292, the end of the sweep of R303. -/
theorem homeFailures : Obligations.HomeFailures := by
  intro s
  refine ⟨?timeout, ?noEntry, ?shared, ?swept⟩
  case timeout =>
    intro pa key e t line h late e' report told done hr hopen hphase hhost
    show execHomeTimeout pa s = _
    refine onHome_leaves hr ?_
    rw [homeTimeoutAt_asked hopen hphase hhost]
    rfl
  case noEntry =>
    intro h set way hr hnone
    show execDirEccError h set way s = _
    exact onHome_leaves hr (dirEcc_empty hnone)
  case shared =>
    intro h set way e key line swept hr hentry hclosed hst
    exact onHome_leaves hr (dirEcc_shared hentry hclosed hst)
  case swept =>
    intro h a r t hr hsweep hone
    refine onHome_leaves hr ?_
    rw [sweepDone_swept hsweep, hone]
    rfl

end Sys2Proof
end

section
/-! PROOFS. Requests of the outside host to device memory, and its answers; then O23. -/
namespace Sys2Proof.Machine

/-- The outside host reaches the device: it is a root port's endpoint, and the link is up. -/
def HostReaches (s : State) : Prop := selfHosted s = false ∧ flagSet s hlStatusLinkUp 0 = true

variable {pa : Nat} {modify : Bool} {w : LineWrite} {s : State}

theorem hostReaches_iff : HostReaches s ↔ (selfHosted s || !flagSet s hlStatusLinkUp 0) = false := by
  simp [HostReaches]

/-! ## Reads and writes (R308, R360, R362) -/

/-- A request of the host completes with poison. -/
def completesPoisoned (n : Nat) (s : State) : State := { s with hostOut := .completion n 0 true :: s.hostOut }

/-- Before Memory Active a read completes with poison and is counted (R360). -/
theorem doCxlMemRead_early (hlink : HostReaches s) (hearly : getF s hlStatusMemActive 0 = 0) :
    doCxlMemRead pa modify s = completesPoisoned 64 (bump hlCountsMemEarly 0 1 s) := by
  simp only [doCxlMemRead, hostReaches_iff.mp hlink, hearly, Bool.false_eq_true, if_false, if_true]
  rfl

/-- What a read or a write of the host asks of the line's home. -/
def hostRead (pa : Nat) (modify : Bool) : HomeReq :=
  { kind := if modify then .hostOwn else .ncrd, port := 10, line := pa / 128, sectors := if pa / 64 % 2 = 0 then 3 else 12, by_ := .cxl }
def hostWrite (pa : Nat) (w : LineWrite) : HomeReq :=
  { kind := .ncwr, port := 10, line := pa / 128, write := some (.bytes w), by_ := .cxl }

/-- A read of device memory is a request of port 10 at the line's home, after its page went to host bias. -/
theorem doCxlMemRead_asks (hlink : HostReaches s) (hactive : getF s hlStatusMemActive 0 ≠ 0) (hmem : isDevMem pa 64 = true)
    (htable : inBiasTable s pa 64 = false) :
    doCxlMemRead pa modify s = ncRequest (hostRead pa modify) (autoFlip pa s) := by
  simp only [doCxlMemRead, hostRead, hostReaches_iff.mp hlink, hactive, hmem, htable, Bool.not_true, Bool.false_eq_true, if_false]

/-- A write of device memory, with no page on its way to device bias. -/
theorem doCxlMemWrite_asks (hlink : HostReaches s) (hactive : getF s hlStatusMemActive 0 ≠ 0) (hmem : isDevMem pa 64 = true)
    (htable : inBiasTable s pa 64 = false) (hflips : s.coh.flips = []) :
    doCxlMemWrite pa w s = ncRequest (hostWrite pa w) (autoFlip pa s) := by
  simp only [doCxlMemWrite, hostWrite, hostReaches_iff.mp hlink, hactive, hmem, htable, hflips, List.any_nil, Bool.not_true,
    Bool.false_eq_true, if_false]

/-- The bias table is not open to the host (R306). -/
theorem doCxlMem_table (hlink : HostReaches s) (hactive : getF s hlStatusMemActive 0 ≠ 0) (hmem : isDevMem pa 64 = true)
    (htable : inBiasTable s pa 64 = true) :
    doCxlMemRead pa modify s = completesPoisoned 64 (tableRefused pa s) ∧
      doCxlMemWrite pa w s = completesPoisoned 0 (tableRefused pa s) := by
  simp only [doCxlMemRead, doCxlMemWrite, hostReaches_iff.mp hlink, hactive, hmem, htable, Bool.not_true, Bool.false_eq_true,
    if_false, if_true]
  exact ⟨rfl, rfl⟩

theorem doCxlMem_beyond (hlink : HostReaches s) (hactive : getF s hlStatusMemActive 0 ≠ 0) (hmem : isDevMem pa 64 = false) :
    doCxlMemRead pa modify s = completesPoisoned 64 s ∧ doCxlMemWrite pa w s = completesPoisoned 0 s := by
  simp only [doCxlMemRead, doCxlMemWrite, hostReaches_iff.mp hlink, hactive, hmem, Bool.not_false, Bool.false_eq_true,
    if_false, if_true]
  exact ⟨rfl, rfl⟩

/-! ## The host's answers (R307) -/

/-- What the host returns for a line reaches the slice. -/
def hostData (line : Nat) (d : Option LineData) (s : State) : State :=
  match d with | some x => applyLineData line x 15 (sliceAccess (slicePut line 10 15) s) | none => s

/-- The host's answer lets the request that asked it go on. -/
theorem hostResponse_asked {key : Nat} {e : DirEnt} {t : Txn} (d : Option LineData) (hopen : openTxn s (pa / 128) = some (key, e, t))
    (hasked : t.d2h = true) :
    hostResponse pa d s = settle (decideStable t.req key e (hostData (pa / 128) d s)) := by
  simp only [hostResponse, hopen, hasked, if_true]
  rfl

end Sys2Proof.Machine

namespace Sys2Proof

open Sys2Proof.Machine

theorem onLink_leaves {f : State → State} {s u : State} (hl : LinkRuns s) (h : f s = u) : onLink f s = .next (left s u) :=
  h ▸ onLink_up hl

/-- Settles O23: each request by the state of the link and the place of its address, and each answer at the line's home. -/
theorem hostMemoryRequests : Obligations.HostMemoryRequests := by
  intro s
  refine ⟨?early, ?reads, ?writes, ?table, ?beyond, ?snoop, ?answer, ?data⟩
  case early =>
    exact fun pa hl hrole hup hearly => onLink_leaves hl (doCxlMemRead_early ⟨hrole, hup⟩ hearly)
  case reads =>
    exact fun pa modify hl hrole hup ⟨hactive, hmem, htable⟩ =>
      onLink_leaves hl (doCxlMemRead_asks ⟨hrole, hup⟩ hactive hmem htable)
  case writes =>
    exact fun pa w hl hrole hup ⟨hactive, hmem, htable⟩ hflips =>
      onLink_leaves hl (doCxlMemWrite_asks ⟨hrole, hup⟩ hactive hmem htable hflips)
  case table =>
    intro pa modify w t hl hrole hup ⟨hactive, hmem⟩ htable
    obtain ⟨hread, hwrite⟩ := doCxlMem_table (modify := modify) (w := w) ⟨hrole, hup⟩ hactive hmem htable
    exact ⟨onLink_leaves hl hread, onLink_leaves hl hwrite⟩
  case beyond =>
    intro pa modify w hl hrole hup ⟨hactive, hmem⟩
    obtain ⟨hread, hwrite⟩ := doCxlMem_beyond (modify := modify) (w := w) ⟨hrole, hup⟩ hactive hmem
    exact ⟨onLink_leaves hl hread, onLink_leaves hl hwrite⟩
  case snoop =>
    exact fun addr hr hrole hup => homeAct_leaves hr (if_neg (ne_true_of_eq_false (hostReaches_iff.mp ⟨hrole, hup⟩)))
  case answer =>
    exact fun pa key e t hr hopen hasked => onHome_leaves hr (hostResponse_asked none hopen hasked)
  case data =>
    exact fun pa d key e t hr hopen hasked => onHome_leaves hr (hostResponse_asked (some d) hopen hasked)

end Sys2Proof
end

section
/-! PROOFS. Doors, windows and ports that the host and devices below the root port reach; then O30. -/
namespace Sys2Proof.Machine

variable {s : State}

/-! ## Doorbells (R372) -/

theorem doorbellWrite_open {q word : Nat} (hopen : barOpen s = true) : doorbellWrite q word s = doorbell q (word % 65536) s :=
  if_pos hopen

/-- A new TAIL within the ring is stored; a queue that re-reads nothing keeps its other state. -/
theorem doorbell_moves {q tail : Nat} (hstate : getF s sqStateState q ≠ 0)
    (hring : (tail + 65536 - getF s sqStateHead q) % 65536 ≤ 2 ^ getF s sqStateDepthLog2 q) (hnew : tail ≠ getF s sqStateTail q)
    (hgone : (tgetD s.ob.sq q {}).gone = false) (hreads : (tgetD s.ob.sq q {}).rereads = 0) :
    doorbell q tail s = setF sqStateTail q tail { s with ob.sq := tput s.ob.sq q (tgetD s.ob.sq q {}) } := by
  have hin : (getF s sqStateState q = 0 ||
      decide (2 ^ getF s sqStateDepthLog2 q < (tail + 65536 - getF s sqStateHead q) % 65536)) = false := by
    simp [hstate, hring]
  simp only [doorbell, hin, hnew, hgone, hreads, bne_self_eq_false, Bool.false_and, Bool.false_eq_true, if_false]

/-- A doorbell of a queue that is not enabled is refused. -/
theorem doorbell_disabled {q tail : Nat} (hstate : getF s sqStateState q = 0) :
    doorbell q tail s = linkErr 0x0811 (raise flHlStatusDbErr 0 s) :=
  if_pos (by rw [hstate]; rfl)

/-! ## Lark requests (R376, R377) -/

theorem larkRequest_open {k off : Nat} {words : List Nat} (hopen : barOpen s = true) :
    larkRequest k off words s = larkWrite k off words s :=
  if_pos hopen

/-- A slot's request with words written from word `off` on. -/
def larkWritten (k off : Nat) (words : List Nat) (s : State) : Nat :=
  (List.range words.length).foldl (fun r i => withBits r (64 * (off + i) + 63) (64 * (off + i)) (words.getD i 0)) (larkGet s k).req

section
variable {k off : Nat} {words : List Nat} (hwords : words ≠ []) (hfit : off + words.length ≤ 32)
include hwords hfit

theorem larkWords_fit : (words.isEmpty || decide (32 < off + words.length)) = false := by
  simp [hwords, hfit]

/-- A slot that is not busy takes the words; GO among them submits the request. -/
theorem larkWrite_idle (hidle : (larkGet s k).busy = false) :
    larkWrite k off words s = larkPut k
      (if (larkWritten k off words s).testBit 1984 then
        { req := larkWritten k off words s, ans := withBits (larkGet s k).ans 1984 1984 0, busy := true }
      else { larkGet s k with req := larkWritten k off words s }) s := by
  simp only [larkWrite, larkWords_fit hwords hfit, hidle, Bool.false_eq_true, if_false]
  exact (apply_ite (larkPut k · s) _ _ _).symm

theorem larkWrite_busy (hbusy : (larkGet s k).busy = true) :
    larkWrite k off words s = linkErr 0x0814 (raise flHlStatusLarkOvw 0 s) := by
  simp only [larkWrite, larkWords_fit hwords hfit, hbusy, Bool.false_eq_true, if_false, if_true]

end

/-! ## BAR2 (R306, R365) -/

section
variable {a n v : Nat} {bad : Bool} (hopen : barOpen s = true) (hrole : selfHosted s = false)
include hopen hrole

/-- A read of device memory waits for the writes before it, and completes with the bytes and their poison. -/
theorem bar2_reads (hmem : isDevMem a n = true) (htable : inBiasTable s a n = false) :
    let t := rangeAccess .ncrd 10 a n (writesSettle s)
    bar2 a false n v bad s = { t with hostOut := .completion n (readNum t a n) (physPoison t a n) :: t.hostOut } := by
  simp only [bar2, hopen, hrole, hmem, htable, Bool.not_true, Bool.or_self, Bool.false_eq_true, if_false]

theorem bar2_table (write : Bool) (htable : inBiasTable s a n = true) :
    let t := tableRefused a s
    bar2 a write n v bad s = if write then t else { t with hostOut := .completion n 0 true :: t.hostOut } := by
  simp only [bar2, hopen, hrole, htable, Bool.not_true, Bool.or_self, Bool.false_eq_true, if_false, if_true]

end

/-! ## The root port (R366, R368) -/

section
variable (hrole : selfHosted s = true)
include hrole

/-- A word of the root port's header that writes may change. -/
theorem ecam_header {off v : Nat} {reply : Option Nat} (hfree : rpFixed off = false) :
    ecam 0 0 off (some v) reply s = { s with link.rpCfg := tput s.link.rpCfg off (v % 2 ^ 32) } := by
  simp only [ecam, hrole, hfree, Bool.not_true, bne_self_eq_false, Bool.false_eq_true, if_false, if_true]

section
variable (hup : flagSet s hlStatusLinkUp 0 = true)
include hup

/-- A write to a bus below the root port leaves over the link. -/
theorem ecam_writes_below {bus fn off v : Nat} {reply : Option Nat} (hbus : bus ≠ 0) :
    ecam bus fn off (some v) reply s = hostSend (.cfgWrite bus fn (4 * off) 4 v) s := by
  simp only [ecam, hrole, hup, hbus, Bool.not_true, Bool.false_eq_true, if_false]

/-- A read below the root port leaves over the link; a function that does not answer reads all ones. -/
theorem ecam_reads_below {bus fn off : Nat} {reply : Option Nat} (hbus : bus ≠ 0) :
    ecam bus fn off none reply s = hostSend (.cfgRead bus fn (4 * off)) { s with link.lastCfg := reply.getD low32 } := by
  simp only [ecam, hrole, hup, hbus, Bool.not_true, Bool.false_eq_true, if_false]

/-- A device's access outside the inbound window and the interrupt files is an Unsupported Request. -/
theorem inboundDma_outside {a n v : Nat} {bad write : Bool} (hwin : inWindow s a n = false) (hmsi : isImsic a n = false) :
    inboundDma a write n v bad s = linkErr 0x0832 { s with hostOut := .unsupported :: s.hostOut } := by
  simp only [inboundDma, hrole, hup, hwin, hmsi, Bool.not_true, Bool.or_self, Bool.and_false, Bool.false_eq_true, if_false]

end
end

/-! ## HEAD registers (R396, R409) -/

theorem registerWrite_open {off n v : Nat} (hopen : barOpen s = true) : registerWrite off n v s = barWrite off n v s :=
  if_pos hopen

theorem cqHeadWrite_moves {q v : Nat} (hopen : barOpen s = true)
    (hpast : pastTail 65536 v (getF s cqStateHead q) (getF s cqStateTail q) = false) :
    cqHeadWrite q v s = setF cqStateHead q v { s with ob.cq := tmod s.ob.cq q {} (fun k => { k with irqOut := false }) } :=
  (if_pos hopen).trans (if_neg (ne_true_of_eq_false hpast))

theorem eqHeadWrite_moves {v : Nat} (hopen : barOpen s = true)
    (hpast : pastTail 65536 v (getF s eqStateHead 0) (getF s eqStateTail 0) = false) :
    eqHeadWrite v s = eqFlush 258 (setF eqStateHead 0 v { s with ob.eq := { s.ob.eq with irqOut := false } }) :=
  (if_pos hopen).trans (if_neg (ne_true_of_eq_false hpast))

/-- A HEAD that would pass TAIL is not stored. -/
theorem eqHeadWrite_refused {v : Nat} (hopen : barOpen s = true)
    (hpast : pastTail 65536 v (getF s eqStateHead 0) (getF s eqStateTail 0) = true) :
    eqHeadWrite v s = raise flObStatusHeadErr 0 s :=
  (if_pos hopen).trans (if_pos hpast)

theorem fqHeadWrite_moves {v : Nat} (hopen : barOpen s = true)
    (hpast : pastTail 8192 v (getF s atFqPtrHead 0) (getF s atFqPtrTail 0) = false) :
    let t := setF atFqPtrHead 0 v { s with xl.irqOut := false, xl.ovfOut := false }
    fqHeadWrite v s = fqDrain (t.xl.fqWait.length + 1) t :=
  (if_pos hopen).trans (if_neg (ne_true_of_eq_false hpast))

end Sys2Proof.Machine

namespace Sys2Proof

open Sys2Proof.Machine

/-- Settles O30: each access by its door and its conditions. -/
theorem hostAccesses : Obligations.HostAccesses := by
  intro s hl
  refine ⟨?bell, ?bellOff, ?lark, ?larkBusy, ?bar2Write, ?bar2Read, ?bar2Table, ?header, ?cfgWrite, ?cfgRead, ?dma, ?dmaOutside,
    ?register, ?cqHead, ?eqHead, ?fqHead, ?eqPast⟩
  case bell =>
    exact fun q word hopen hstate hring hnew ⟨hgone, hreads⟩ =>
      onLink_leaves hl ((doorbellWrite_open hopen).trans (doorbell_moves hstate hring hnew hgone hreads))
  case bellOff =>
    exact fun q word hopen hstate => onLink_leaves hl ((doorbellWrite_open hopen).trans (doorbell_disabled hstate))
  case lark =>
    intro slot off words l req go hopen ⟨hwords, hfit⟩ hidle
    refine onLink_leaves hl ((larkRequest_open hopen).trans ?_)
    rw [larkWrite_idle (fun h => hwords (List.map_eq_nil_iff.mp h)) (by rwa [List.length_map]) hidle, larkWritten, List.length_map]
  case larkBusy =>
    intro slot off words hopen ⟨hwords, hfit⟩ hbusy
    refine onLink_leaves hl ((larkRequest_open hopen).trans ?_)
    exact larkWrite_busy (fun h => hwords (List.map_eq_nil_iff.mp h)) (by rwa [List.length_map]) hbusy
  case bar2Write =>
    exact fun off len val poisoned ⟨hrole, hopen⟩ ⟨hmem, htable⟩ => onLink_leaves hl (bar2_writes hopen hrole hmem htable)
  case bar2Read =>
    exact fun off len val poisoned ⟨hrole, hopen⟩ ⟨hmem, htable⟩ => onLink_leaves hl (bar2_reads hopen hrole hmem htable)
  case bar2Table =>
    exact fun off len val poisoned ⟨hrole, hopen⟩ htable =>
      ⟨onLink_leaves hl (bar2_table hopen hrole true htable), onLink_leaves hl (bar2_table hopen hrole false htable)⟩
  case header =>
    rintro fn off v reply hrole ⟨rfl, hfree⟩
    exact onLink_leaves hl (ecam_header hrole hfree)
  case cfgWrite =>
    exact fun bus fn off v reply ⟨hrole, hup⟩ hbus => onLink_leaves hl (ecam_writes_below hrole hup hbus)
  case cfgRead =>
    exact fun bus fn off reply ⟨hrole, hup⟩ hbus => onLink_leaves hl (ecam_reads_below hrole hup hbus)
  case dma =>
    exact fun addr len val poisoned ⟨hrole, hup⟩ hwin => onLink_leaves hl (inboundDma_writes hrole hup hwin)
  case dmaOutside =>
    exact fun addr len val poisoned write ⟨hrole, hup⟩ ⟨hwin, hmsi⟩ =>
      onLink_leaves hl (inboundDma_outside hrole hup hwin hmsi)
  case register =>
    exact fun off len val hopen => onLink_leaves hl (registerWrite_open hopen)
  case cqHead =>
    exact fun q head hopen hpast => onLink_leaves hl (cqHeadWrite_moves hopen hpast)
  case eqHead =>
    exact fun head hopen hpast => onLink_leaves hl (eqHeadWrite_moves hopen hpast)
  case fqHead =>
    exact fun head hopen hpast => onLink_leaves hl (fqHeadWrite_moves hopen hpast)
  case eqPast =>
    exact fun head hopen hpast => onLink_leaves hl (eqHeadWrite_refused hopen hpast)

end Sys2Proof
end

section
/-! PROOFS. Commands of the address space, of page bias and of the host dies, each body under its conditions; then O15. -/
namespace Sys2Proof.Machine

variable {oc : OpenCmd} {s t : State} {pas : List Nat}

/-! ## MAP and INVALIDATE (R332) -/

theorem mapBody_maps (hword : wordCode oc false s = 0)
    (hpages : commandPages (wordAt oc.words 2) (wordAt oc.words 3) (wordAt oc.words 4) s = (pas, t))
    (hcodes : NoneFails (mapCodes oc.words pas t)) :
    let va := wordAt oc.words 1
    let steps := mapSteps oc.words pas t
    mapBody oc s = .ends (endDone ((steps.filter (fun x => x.2.write.isSome)).length) 0)
      (mapSettle va (va + wordAt oc.words 2) (mapWrite (mwSize (wordAt oc.words 4)) steps t)) := by
  simp only [mapBody, hword, hpages, bne_self_eq_false, Bool.false_eq_true, if_false]
  exact checked_passes hcodes _ _

/-- UNMAP and PROTECT name no pages: the leaves of the range are those there are, once the leaves that its ends cut are split. -/
theorem invalBody_leaves (hact : mwAction (wordAt oc.words 4) ≠ 2)
    (hword : wordChecks (wordAt oc.words 1) (wordAt oc.words 2) (wordAt oc.words 3) (wordAt oc.words 4) true = 0)
    (hcodes : NoneFails (invalCodes oc.words [] s)) :
    let va := wordAt oc.words 1
    let hi := va + wordAt oc.words 2
    invalBody oc s = .runs (sendRange va hi (some (oc.id, (leavesIn (doSplits va hi s) va hi).length)) (invalWrite oc.words [] s)) := by
  have hnot : (mwAction (wordAt oc.words 4) == 2) = false := beq_eq_false_iff_ne.mpr hact
  simp only [invalBody, hnot, hword, bne_self_eq_false, Bool.false_eq_true, if_false]
  exact checked_passes hcodes _ _

theorem invalBody_remaps (hact : mwAction (wordAt oc.words 4) = 2) (hword : wordCode oc true s = 0)
    (hpages : commandPages (wordAt oc.words 2) (wordAt oc.words 3) (wordAt oc.words 4) s = (pas, t))
    (hcodes : NoneFails (invalCodes oc.words pas t)) :
    let va := wordAt oc.words 1
    invalBody oc s = .runs (sendRange va (va + wordAt oc.words 2) (some (oc.id, pas.length)) (invalWrite oc.words pas t)) := by
  have his : (mwAction (wordAt oc.words 4) == 2) = true := beq_iff_eq.mpr hact
  simp only [invalBody, his, hword, hpages, bne_self_eq_false, Bool.false_eq_true, if_false, if_true]
  exact checked_passes hcodes _ _

/-! ## RESOLVE, PREFETCH and ADVISE (R330, R335, R337) -/

/-- The accesses of a fault walk again, or end with the code of a failed RESOLVE. -/
theorem resolveBody_closes {u code : Nat} (hfault : faultUnit s (wordBits oc.words 1 15 0) = some u)
    (hcode : (if wordBits oc.words 1 16 16 = 1 then 0x0204 else 0) = code) :
    resolveBody oc s = .ends (endDone 0 0) (closeFault u (wordBits oc.words 1 15 0) code s) := by
  simp only [resolveBody, hfault, hcode]

/-- The checks of PREFETCH that come before its list is read; `ws` is the command, `found` the leaves of its range. -/
def prefetchEarly (epoch : Nat) (ws : List W64) (found : List LeafAt) (s : State) : List (Option Nat) :=
  let va := wordAt ws 1
  let n := wordAt ws 2
  [failIf (wordAt ws 3 % 8 != 0) 0x0113,
    failIf (va % 4096 != 0 || n % 4096 != 0 || n == 0 || decide (vaTop < va + n)) 0x0210,
    failIf (selfHosted s) 0x0216, failIf (getF s hlStatusLinkUp 0 == 0) 0x0830,
    listCode epoch (wordAt ws 3) found.length s]

/-- A PREFETCH under way: the leaves of its range are write-protected, and each is to go to the page that its list names. -/
def prefetchGoes (id : Nat) (ws : List W64) (toHost : Bool) (found : List LeafAt) (dst : List Nat) (t : State) : State :=
  let va := wordAt ws 1
  let hi := va + wordAt ws 2
  let run : PrefetchRun := { cmd := id, lo := va, hi := hi, todo := (found.zip dst).map (fun x => (x.1.va, x.2, x.1.e)), toHost := toHost }
  sendRange va hi none { writeProtect found va hi t with xl.prefetch := some run }

theorem prefetchBody_runs {ws : List W64} {toHost : Bool} {found : List LeafAt} {dst : List Nat} (hws : oc.words = ws)
    (hside : (wordBits ws 4 0 0 == 1) = toHost) (hfound : leavesIn s (wordAt ws 1) (wordAt ws 1 + wordAt ws 2) = found)
    (hearly : NoneFails (prefetchEarly oc.epoch ws found s)) (hlist : readList (wordAt ws 3) found.length s = (dst, t))
    (hcodes : NoneFails (prefetchCodes ws found dst t)) :
    prefetchBody oc s = .runs (prefetchGoes oc.id ws toHost found dst t) := by
  subst hws
  rw [prefetchEarly] at hearly
  simp only [prefetchBody, hside, hfound, hearly, hlist, bne_self_eq_false, Bool.false_eq_true, if_false]
  exact checked_passes hcodes _ _

theorem adviseBody_advises (hva : wordAt oc.words 1 % 4096 = 0) (hn : wordAt oc.words 2 % 4096 = 0) (hsome : wordAt oc.words 2 ≠ 0)
    (htop : wordAt oc.words 1 + wordAt oc.words 2 ≤ vaTop)
    (hroom : distinct (splitNeed s (wordAt oc.words 1) (wordAt oc.words 1 + wordAt oc.words 2)) ≤ pagesFree s) :
    let va := wordAt oc.words 1
    let hi := va + wordAt oc.words 2
    let u := doSplits va hi s
    let found := leavesIn u va hi
    adviseBody oc s = .ends (endDone found.length 0) (rewrite found va hi
      (fun e cut => leafWord (entPa e) (if cut then 0 else entRun e) (wordBits oc.words 3 1 0) (entR e) (entW e) (entX e)) u) := by
  have hrange : (wordAt oc.words 1 % 4096 != 0 || wordAt oc.words 2 % 4096 != 0 || wordAt oc.words 2 == 0 ||
      decide (vaTop < wordAt oc.words 1 + wordAt oc.words 2)) = false := by
    simp [hva, hn, hsome, htop]
  simp only [adviseBody, hrange, Nat.not_lt.mpr hroom, Bool.false_eq_true, if_false]

/-! ## BIAS_SET (R309) -/

section
variable (hpa : wordAt oc.words 1 % 4096 = 0) (hn : wordAt oc.words 2 % 4096 = 0)
  (hmem : isDevMem (wordAt oc.words 1) (wordAt oc.words 2) = true) (hon : biasOn s = true)
include hpa hn hmem hon

theorem biasCodes_pass : (wordAt oc.words 1 % 4096 != 0 || wordAt oc.words 2 % 4096 != 0 ||
    !isDevMem (wordAt oc.words 1) (wordAt oc.words 2) || !biasOn s) = false := by
  rw [hpa, hn, hmem, hon]; rfl

theorem biasBody_toHost (hside : wordBits oc.words 3 0 0 = 1) :
    biasBody oc s = .ends (endDone 0 0)
      ((span (wordAt oc.words 1 / 4096) (wordAt oc.words 2 / 4096)).foldl (fun t p => setBias p true t) s) := by
  simp only [biasBody, biasCodes_pass hpa hn hmem hon, hside, Bool.false_eq_true, if_false, if_true]

/-- Pages in host bias flip, their lines asked of the host while the link is up. -/
theorem biasBody_toDevice (hside : wordBits oc.words 3 0 0 = 0)
    (hsome : (span (wordAt oc.words 1 / 4096) (wordAt oc.words 2 / 4096)).filter (hostBias s) ≠ []) :
    let pages := (span (wordAt oc.words 1 / 4096) (wordAt oc.words 2 / 4096)).filter (hostBias s)
    let lines := if flagSet s hlStatusLinkUp 0 then pages.flatMap (fun p => span (p * 32) 32) else []
    biasBody oc s = .runs (flipCheck oc.id (flipSend oc.id
      { s with coh.flips := s.coh.flips ++ [{ cmd := oc.id, pages := pages, todo := lines }] })) := by
  simp only [biasBody, biasCodes_pass hpa hn hmem hon, hside, List.isEmpty_eq_false_iff.mpr hsome, Nat.zero_ne_one, Bool.false_eq_true,
    if_false]

end

/-! ## Host dies and directories (R289, R342, R355) -/

/-- The harts of a host die as the runtime releases them, from an entry with a value in a0. -/
def hartsReleased (k entry arg : Nat) (harts : Table Hart) : Table Hart :=
  (span (48 * k) 48).foldl (fun hs h => tput hs h { mode := 1, running := true, pc := entry, a0 := arg }) harts

/-- A Loam link of a die comes back where the dies at both its ends are in service. -/
def linkBack (s : State) (l : Nat) : State :=
  if dieUp s (linkEnds l).1 && dieUp s (linkEnds l).2 && getF s ddLinkStatusState l == 2 then setF ddLinkStatusState l 0 s else s

/-- A host die in service again, the cores of die `k` at an entry (R342). -/
def coresReleased (d k entry arg : Nat) (s : State) : State :=
  setF ddDieStatusRefOk d 1 (setF ddDieStatusState d 0 { s with cores.harts := hartsReleased k entry arg s.cores.harts })

/-- The start of a host die is told: its links come back, source 4 delivers its event, a record is written. -/
def startTold (d : Nat) (s : State) : State :=
  writeErr { level := lvPackage, unit := d, reason := 0x0A41, cls := 0x07, verdict := vTransient } none
    (deliverEvent 4 ((linksOf d).foldl linkBack s))

theorem coresStartBody_starts {ws : List W64} {d : Nat} {b : State} (hws : oc.words = ws) (hd : 24 + wordBits ws 1 0 0 = d)
    (hb : leaveEnds d s = b) (hdown : dieUp s d = false) (hentry : isDevMem (wordAt ws 2) 1 = true) :
    coresStartBody oc s =
      .ends (endDone 0 0) (startTold d (coresReleased d (wordBits ws 1 0 0) (wordAt ws 2) (wordAt ws 3) b)) := by
  subst hws
  have hstarts : (dieUp s d || !isDevMem (wordAt oc.words 2) 1) = false := by rw [hdown, hentry]; rfl
  simp only [coresStartBody, hd, hb, hstarts, Bool.false_eq_true, if_false, startTold, coresReleased, hartsReleased]
  rfl

/-- The place of the directory entry that a DIR_READ names. -/
def dirAsked (oc : OpenCmd) : Nat :=
  let w := wordAt oc.words 1
  dirBase (bitsOf w 3 0) (bitsOf w 18 4) + bitsOf w 22 19

theorem dirReadBody_reads :
    dirReadBody oc s = .ends (endDone (((tget s.coh.dir (dirAsked oc)).map encodeDir).getD 0) 0) s := by
  simp only [dirReadBody, dirAsked]
  split
  case h_1 e hentry => rw [hentry, Option.map_some, Option.getD_some]
  case h_2 hentry => rw [hentry, Option.map_none, Option.getD_none]

end Sys2Proof.Machine

namespace Sys2Proof

open Sys2Proof.Machine

section
variable {op : Nat} {body : OpenCmd → State → Body} {gate : OpenCmd → State → Bool} {c : Cmd} {s u : State} {mine : Bool}

/-- An accepted command of a row, told from others of its opcode by its fields, whose body ends leaves its ending. -/
theorem row_ends {e : CmdEnd} (h : Accepts op c s (ownRecord c.door c.words) gate) (hmine : mine = true)
    (hb : body (openOf c s) (startedAt c s) = .ends e u) :
    served s (runWith (cmdOpcode c.words == op && mine) (fun _ => ownRecord c.door c.words) body c s gate) =
      .next (left s (endCmd (openOf c s) e u)) := by
  have hrow : (cmdOpcode c.words == op && mine) = true := by rw [hmine, h.2.1, beq_self_eq_true]; rfl
  rw [served_powered h.1, runWith_accepts (resv := fun _ => ownRecord c.door c.words) h hrow, hb]
  rfl

/-- One whose body runs on leaves the body's state. -/
theorem row_runs (h : Accepts op c s (ownRecord c.door c.words) gate) (hmine : mine = true)
    (hb : body (openOf c s) (startedAt c s) = .runs u) :
    served s (runWith (cmdOpcode c.words == op && mine) (fun _ => ownRecord c.door c.words) body c s gate) = .next (left s u) := by
  have hrow : (cmdOpcode c.words == op && mine) = true := by rw [hmine, h.2.1, beq_self_eq_true]; rfl
  rw [served_powered h.1, runWith_accepts (resv := fun _ => ownRecord c.door c.words) h hrow, hb]
  rfl

end

/-- Settles O15: each command is accepted and its checks pass, so it leaves what its body comes to. -/
theorem addressSpaceCommands : Obligations.AddressSpaceCommands := by
  intro s c t oc
  refine ⟨?map, ?unmap, ?protect, ?remap, ?retry, ?fail, ?toDevice, ?toHost, ?advise, ?biasHost, ?biasDevice, ?start, ?reset, ?dir⟩
  case map =>
    intro pas u va n w steps h hword hpages hcodes
    exact row_ends h rfl (mapBody_maps hword hpages hcodes)
  case unmap =>
    intro va n w leaves h hword hact hcodes
    have hmine : (mwAction w == 0 || mwAction w == 3) = true := by rw [hact]; rfl
    have hnot : mwAction w ≠ 2 := by rw [hact]; decide
    exact row_runs h hmine (invalBody_leaves hnot hword hcodes)
  case protect =>
    intro va n w leaves h hword hact hcodes
    have hnot : mwAction w ≠ 2 := by rw [hact]; decide
    exact row_runs h (beq_iff_eq.mpr hact) (invalBody_leaves hnot hword hcodes)
  case remap =>
    intro pas u va n w h hword hact hpages hcodes
    exact row_runs h (beq_iff_eq.mpr hact) (invalBody_remaps hact hword hpages hcodes)
  case retry =>
    intro u id h hact hfault
    have hcode : (if wordBits oc.words 1 16 16 = 1 then 0x0204 else 0) = 0 := by
      rw [show wordBits oc.words 1 16 16 = 0 from hact]; rfl
    have hb : resolveBody oc t = .ends (endDone 0 0) (closeFault u id 0 t) := resolveBody_closes hfault hcode
    exact row_ends h (beq_iff_eq.mpr hact) hb
  case fail =>
    intro u id h hact hfault
    have hb : resolveBody oc t = .ends (endDone 0 0) (closeFault u id 0x0204 t) := resolveBody_closes hfault (if_pos hact)
    exact row_ends h (beq_iff_eq.mpr hact) hb
  case toDevice =>
    intro dst u va n found run h hside hearly hlist hcodes
    have hthere : (wordBits c.words 4 0 0 == 1) = false := by rw [hside]; rfl
    have hfound : leavesIn t va (va + n) = found := rfl
    clear_value found
    exact row_runs h (beq_iff_eq.mpr hside) (prefetchBody_runs (openOf_words c s _) hthere hfound hearly hlist hcodes)
  case toHost =>
    intro dst u va n found run h hside hearly hlist hcodes
    have hthere : (wordBits c.words 4 0 0 == 1) = true := by rw [hside]; rfl
    have hfound : leavesIn t va (va + n) = found := rfl
    clear_value found
    exact row_runs h (beq_iff_eq.mpr hside) (prefetchBody_runs (openOf_words c s _) hthere hfound hearly hlist hcodes)
  case advise =>
    intro va hi u found h ⟨hva, hn, hsome, htop⟩ hroom
    exact row_ends h rfl (adviseBody_advises hva hn hsome htop hroom)
  case biasHost =>
    intro pa n h hside ⟨hpa, hn, hmem, hon⟩
    exact row_ends h (beq_iff_eq.mpr hside) (biasBody_toHost hpa hn hmem hon hside)
  case biasDevice =>
    intro pa n pages lines flips h hside ⟨hpa, hn, hmem, hon⟩ hsome
    exact row_runs h (beq_iff_eq.mpr hside) (biasBody_toDevice hpa hn hmem hon hside hsome)
  case start =>
    intro d b harts u back e h ⟨hdown, hentry⟩
    have hd : 24 + wordBits c.words 1 0 0 = d := rfl
    have hb : leaveEnds d t = b := rfl
    clear_value b d
    exact accepted_ends h (coresStartBody_starts (openOf_words c s _) hd hb hdown hentry)
  case reset => exact fun h => accepted_ends h rfl
  case dir => exact fun h => accepted_ends h dirReadBody_reads

end Sys2Proof
end

section
/-! PROOFS. Translation: walks, the watchdogs of stalled accesses, the reports of an invalidation, each effect under its
conditions; then O11. -/
namespace Sys2Proof.Machine

/-! ## Walks (R320, R322) -/

/-- A leaf with the rights asked for fills the buffers, and the access goes to the byte of the run that it names. -/
theorem walkDemand_leaf {a : XAcc} {l e : Nat} {s t : State}
    (hwalk : walk a.unit a.va (bump atCountsWalks a.unit 1 s) = (.leaf l e, t))
    (hrights : rightsCode a (leafBuf a.va l e false).r (leafBuf a.va l e false).w (leafBuf a.va l e false).x = 0) :
    let b := leafBuf a.va l e false
    walkDemand a s =
      (.ok (b.pa + (a.va - b.va)) (b.va + b.size - a.va), setXunit a.unit (bufFill a.unit a.sward b (xunit t a.unit)) t) := by
  simp only [walkDemand, hwalk, hrights, bne_self_eq_false, Bool.false_eq_true, if_false]

/-- A walk that serves no stalled access leaves what a demand walk leaves: the buffers of its unit filled. -/
theorem walkDone_leaf {a : XAcc} {l e : Nat} {s t : State}
    (hwalk : walk a.unit a.va (bump atCountsWalks a.unit 1 s) = (.leaf l e, t))
    (hrights : rightsCode a (leafBuf a.va l e false).r (leafBuf a.va l e false).w (leafBuf a.va l e false).x = 0) :
    walkDone a false s = setXunit a.unit (bufFill a.unit a.sward (leafBuf a.va l e false) (xunit t a.unit)) t := by
  rw [walkDone, if_neg Bool.false_ne_true, walkDemand_leaf hwalk hrights]

/-! ## Watchdogs of stalled accesses (R331) -/

theorem watchdogExpire_noSlot {u id nth code : Nat} {a : XAcc} {s : State} (hwaits : (xunit s u).noSlot[nth]? = some (a, code)) :
    watchdogExpire u .noSlot id nth s =
      resume 0x0205 (setXunit u { xunit s u with noSlot := (xunit s u).noSlot.eraseIdx nth } s) a := by
  simp only [watchdogExpire, hwaits]

/-- The faults of a unit with the accesses that wait on one of them replaced; a fault that no access waits on is closed. -/
def slotsWith (id : Nat) (accs : List XAcc) (slots : List FaultSlot) : List FaultSlot :=
  (slots.map (fun g => if g.id == id then { g with accs := accs } else g)).filter (fun g => !g.accs.isEmpty)

theorem watchdogExpire_slot {u id nth : Nat} {f : FaultSlot} {a : XAcc} {s : State}
    (hfault : (xunit s u).slots.find? (fun g => g.id == id) = some f) (hwaits : f.accs[nth]? = some a) :
    watchdogExpire u .slot id nth s =
      refill u (resume 0x0205
        (setXunit u { xunit s u with slots := slotsWith id (f.accs.eraseIdx nth) (xunit s u).slots } s) a) := by
  simp only [watchdogExpire, hfault, hwaits, slotsWith]

/-! ## Reports of an invalidation (R332) -/

/-- A unit whose report is awaited, with no access to the range in flight: its report is taken, and the last report ends the
invalidation. -/
theorem unitReports_idle {u : Nat} {r : InvalRun} {s : State} (hinval : s.xl.inval = some r) (hawaited : r.await.testBit u = true)
    (hidle : unitBusy s u r.lo r.hi = false) :
    unitReports u s =
      if r.await - 2 ^ u = 0 then invalDone { r with await := r.await - 2 ^ u } s
      else { s with xl.inval := some { r with await := r.await - 2 ^ u } } := by
  simp only [unitReports, hinval, hawaited, hidle, Bool.not_true, Bool.or_false, Bool.false_eq_true, if_false]

/-- An invalidation that a command waits for ends with that command. -/
theorem invalDone_cmd {id n : Nat} {r : InvalRun} {s : State} (hcmd : r.cmd = some (id, n)) :
    invalDone r s = endById id (endDone n 0) (setF atStatusInvalBusy 0 0 { s with xl.inval := none }) := by
  simp only [invalDone, hcmd]

end Sys2Proof.Machine

namespace Sys2Proof

open Sys2Proof.Machine

theorem onUnit_leaves {u : Nat} {f : State → State} {s t : State} (hr : DieRuns s (dieOfXunit u)) (h : f s = t) :
    onUnit u f s = .next (left s t) :=
  h ▸ onUnit_up hr

/-- Settles O11: each event's effect under its conditions, in the order of R320, R331 and R332. -/
theorem translationEvents : Obligations.TranslationEvents := by
  intro s
  refine ⟨?walk, ?noSlot, ?slot, ?report, ?last⟩
  case walk =>
    exact fun u sward tuft agent va r w x l e t hr hwalk hrights =>
      onUnit_leaves hr (walkDone_leaf hwalk hrights)
  case noSlot =>
    exact fun u fault nth code a hr hwaits => onUnit_leaves hr (watchdogExpire_noSlot hwaits)
  case slot =>
    exact fun u fault nth f a hr hfault hwaits => onUnit_leaves hr (watchdogExpire_slot hfault hwaits)
  case report =>
    exact fun u r hr hinval hawaited hidle hmore =>
      onUnit_leaves hr ((unitReports_idle hinval hawaited hidle).trans (if_neg hmore))
  case last =>
    intro u r id n hr hinval hawaited hidle hcmd
    have hbit : r.await.testBit u = true := by rw [hawaited, Nat.testBit_two_pow_self]
    have hnone : r.await - 2 ^ u.val = 0 := by rw [hawaited, Nat.sub_self]
    exact onUnit_leaves hr ((unitReports_idle hinval hbit hidle).trans ((if_pos hnone).trans (invalDone_cmd hcmd)))

end Sys2Proof
end

section
/-! PROOFS. Reason codes: the lowest of those of the checks that fail; then O45. With nothing waiting nothing follows: O42. -/
namespace Sys2Proof.Machine

/-- The codes of the checks that fail. -/
def failedCodes (codes : List (Option Nat)) : List Nat := (codes.filterMap id).filter (· != 0)

theorem mem_failedCodes {codes : List (Option Nat)} {c : Nat} : c ∈ failedCodes codes ↔ some c ∈ codes ∧ c ≠ 0 := by
  simp [failedCodes]

/-- The reason reported is the least of the failed checks' codes, 0 where none fails (R570). -/
theorem lowest_eq_min (codes : List (Option Nat)) : lowest codes = (failedCodes codes).min?.getD 0 := by
  have hfold : ∀ (l : List Nat) (m : Nat), m ≠ 0 → (∀ c ∈ l, c ≠ 0) →
      l.foldl (fun m c => if m = 0 then c else min m c) m = l.foldl min m := by
    intro l
    induction l with
    | nil => intros; rfl
    | cons c l ih =>
      intro m hm hl
      have hc : c ≠ 0 := hl c List.mem_cons_self
      rw [List.foldl_cons, List.foldl_cons, if_neg hm, ih _ (by omega) fun d hd => hl d (List.mem_cons_of_mem c hd)]
  have hcodes : ∀ c ∈ failedCodes codes, c ≠ 0 := fun c hc => (mem_failedCodes.mp hc).2
  change (failedCodes codes).foldl _ 0 = _
  cases hl : failedCodes codes with
  | nil => rfl
  | cons c l =>
    rw [hl] at hcodes
    rw [List.foldl_cons, if_pos rfl, List.min?_cons', Option.getD_some]
    exact hfold l c (hcodes c List.mem_cons_self) fun d hd => hcodes d (List.mem_cons_of_mem c hd)

/-- A code that is reported is a failed check's, and none is lower. -/
theorem lowest_of_min {codes : List (Option Nat)} {c : Nat} (hc : c ∈ failedCodes codes) :
    lowest codes ∈ failedCodes codes ∧ lowest codes ≤ c := by
  obtain ⟨m, hm⟩ := Option.ne_none_iff_exists'.mp fun h => List.ne_nil_of_mem hc (List.min?_eq_none_iff.mp h)
  obtain ⟨hmem, hle⟩ := List.min?_eq_some_iff.mp hm
  rw [lowest_eq_min, hm]
  exact ⟨hmem, hle c hc⟩

/-- Nothing is reported exactly where no check fails. -/
theorem lowest_eq_zero_iff {codes : List (Option Nat)} : lowest codes = 0 ↔ failedCodes codes = [] := by
  refine ⟨fun h => List.eq_nil_iff_forall_not_mem.mpr fun c hc => ?_, fun h => by rw [lowest_eq_min, h]; rfl⟩
  exact (mem_failedCodes.mp (lowest_of_min hc).1).2 h

theorem lowest_perm {l m : List (Option Nat)} (h : l.Perm m) : lowest l = lowest m := by
  have hmem : ∀ c, c ∈ failedCodes l ↔ c ∈ failedCodes m := fun c => by rw [mem_failedCodes, mem_failedCodes, h.mem_iff]
  cases hl : failedCodes l with
  | nil =>
    have hm : failedCodes m = [] := List.eq_nil_iff_forall_not_mem.mpr fun c hc => by simpa [hl] using (hmem c).mpr hc
    rw [lowest_eq_zero_iff.mpr hl, lowest_eq_zero_iff.mpr hm]
  | cons c t =>
    have hc : c ∈ failedCodes l := hl ▸ List.mem_cons_self
    have hlow := (lowest_of_min hc).1
    have hlow' := (lowest_of_min ((hmem c).mp hc)).1
    exact Nat.le_antisymm (lowest_of_min ((hmem _).mpr hlow')).2 (lowest_of_min ((hmem _).mp hlow)).2

end Sys2Proof.Machine

namespace Sys2Proof

open Sys2Proof.Machine

/-- Settles O45: the least of the codes that failed checks give. -/
theorem lowestReasonReported : Obligations.LowestReasonReported := by
  intro l m
  refine ⟨fun h => ?_, fun c hc => ?_, lowest_perm⟩
  · obtain ⟨c, hc⟩ := List.exists_mem_of_ne_nil _ (mt lowest_eq_zero_iff.mpr h)
    exact (mem_failedCodes.mp (lowest_of_min hc).1).1
  · obtain ⟨hmem, hle⟩ := lowest_of_min (mem_failedCodes.mpr hc)
    exact ⟨(mem_failedCodes.mp hmem).2, hle⟩

/-- Settles O42: nothing is held back, and nothing of what follows an effect has anything to do. -/
theorem nothingFollows : Obligations.NothingFollows := fun s _ h => left_of_nothingWaits s h

end Sys2Proof
end

section
/-! PROOFS. Entries of the command doors: tag and check byte; then O49. A Lark slot's answer; then O50. -/
namespace Sys2Proof.Machine

/-! ## Tag and check byte (R373) -/

/-- Byte `k` of an entry. -/
def entryByte (v k : Nat) : Nat := bitsOf v (8 * k + 7) (8 * k)

theorem xorBytes_eq_foldl (v n : Nat) : xorBytes v n = (List.range n).foldl (fun x k => x ^^^ entryByte v k) 0 := by
  induction n with
  | zero => rfl
  | succ n ih =>
    have hwidth : 8 * n + 7 + 1 - 8 * n = 8 := by omega
    have hbits : entryByte v n = (v >>> (8 * n)) % 256 := congrArg (fun w => (v >>> (8 * n)) % 2 ^ w) hwidth
    rw [List.range_succ, List.foldl_append, List.foldl_cons, List.foldl_nil, ← ih, hbits, xorBytes]

/-- An XOR over bytes, begun with `x`, is `x` with the XOR of the bytes. -/
theorem foldl_xor_from (g : Nat → Nat) (l : List Nat) (x : Nat) :
    l.foldl (fun y k => y ^^^ g k) x = x ^^^ l.foldl (fun y k => y ^^^ g k) 0 := by
  induction l generalizing x with
  | nil => rw [List.foldl_nil, List.foldl_nil, Nat.xor_zero]
  | cons k l ih => rw [List.foldl_cons, List.foldl_cons, ih, ih (0 ^^^ g k), Nat.zero_xor, Nat.xor_assoc]

theorem xor_swap_last (x y z : Nat) : z ^^^ x ^^^ y = z ^^^ y ^^^ x := by
  rw [Nat.xor_assoc, Nat.xor_comm x y, Nat.xor_assoc]

/-- The XOR of an entry's bytes is its check byte with the XOR of the others. -/
theorem xorBytes_split (v : Nat) :
    xorBytes v 64 = entryByte v 61 ^^^ ((List.range 64).filter (· != 61)).foldl (fun x k => x ^^^ entryByte v k) 0 := by
  have hperm : (List.range 64).Perm (61 :: (List.range 64).filter (· != 61)) := by decide
  rw [xorBytes_eq_foldl, hperm.foldl_eq' (fun x _ y _ z => xor_swap_last (entryByte v x) (entryByte v y) z) 0, List.foldl_cons,
    foldl_xor_from, Nat.zero_xor]

theorem entryPasses_iff (v n : Nat) :
    entryPasses v n = true ↔ bitsOf v 511 496 = n % 65536 ∧
      entryByte v 61 = 0xA5 ^^^ ((List.range 64).filter (· != 61)).foldl (fun x k => x ^^^ entryByte v k) 0 := by
  rw [entryPasses, Bool.and_eq_true, beq_iff_eq, beq_iff_eq, xorBytes_split]
  exact and_congr_right fun _ => ⟨fun h => by rw [← h, Nat.xor_assoc, Nat.xor_self, Nat.xor_zero],
    fun h => by rw [h, Nat.xor_assoc, Nat.xor_self, Nat.xor_zero]⟩

/-! ## Answers (R397) -/

theorem larkGet_larkPut (k : Nat) (l : LarkSlot) (s : State) : larkGet (larkPut k l s) k = l := by
  simp [larkGet, larkPut, tgetD, tget_tput_self]

/-- An event delivered leaves the Lark slots. -/
theorem deliverEvent_lark (src : Nat) (s : State) : (deliverEvent src s).link.lark = s.link.lark := by
  have hsend : ∀ v u, (msixSend v u).link.lark = u.link.lark := by
    intro v u; unfold msixSend; split
    · rfl
    · split <;> rfl
  have hprimary : ∀ t, routePrimary src s = some t → t.link.lark = s.link.lark := by
    intro t ht
    unfold routePrimary at ht
    split at ht
    · cases ht
    · split at ht
      · split at ht
        · cases ht; exact hsend _ s
        · cases ht
      · split at ht
        · cases ht; rfl
        · cases ht
  have hfallback : ∀ t, routeFallback src s = some t → t.link.lark = s.link.lark := by
    intro t ht
    unfold routeFallback at ht
    split at ht
    · cases ht; rfl
    · cases ht
  unfold deliverEvent
  split
  case h_1 t ht => exact hprimary t ht
  case h_2 =>
    split
    · rfl
    · split
      case h_1 t ht => exact hfallback t ht
      case h_2 => rfl

/-- Bits below a part that is placed at `k` are those of what stands under it. -/
theorem bitsOf_under {hi k : Nat} (h : hi < k) (a b lo : Nat) : bitsOf (a + b * 2 ^ k) hi lo = bitsOf a hi lo := by
  rw [bitsOf_eq_div, bitsOf_eq_div]
  rcases Nat.lt_or_ge hi lo with hlo | hlo
  · rw [show hi + 1 - lo = 0 by omega, Nat.pow_zero, Nat.mod_one, Nat.mod_one]
  · rw [show 2 ^ k = 2 ^ lo * (2 ^ (hi + 1 - lo) * 2 ^ (k - (hi + 1))) by rw [← Nat.pow_add, ← Nat.pow_add]; congr 1; omega,
      Nat.mul_left_comm, Nat.add_mul_div_left _ _ (Nat.two_pow_pos lo), Nat.mul_left_comm, Nat.add_mul_mod_self_left]

/-- Bits from `k` on are those of the part that is placed there. -/
theorem bitsOf_placed {a k lo : Nat} (ha : a < 2 ^ k) (hlo : k ≤ lo) (b hi : Nat) :
    bitsOf (a + b * 2 ^ k) hi lo = b / 2 ^ (lo - k) % 2 ^ (hi + 1 - lo) := by
  rw [bitsOf_eq_div, show 2 ^ lo = 2 ^ k * 2 ^ (lo - k) by rw [← Nat.pow_add]; congr 1; omega, ← Nat.div_div_eq_div_mul,
    Nat.add_mul_div_right _ _ (Nat.two_pow_pos k), Nat.div_eq_of_lt ha, Nat.zero_add]

/-- Each word of an answer reads as it was put: words 0 to 2, and one that stands at bit `k`. -/
theorem answer_words {w0 w1 w2 k : Nat} (h0 : w0 < 2 ^ 64) (h1 : w1 < 2 ^ 64) (h2 : w2 < 2 ^ 64) (hk : 192 ≤ k) (done : Nat) :
    let ans := packBits [(w0, 0), (w1, 64), (w2, 128), (done, k)]
    bitsOf ans 63 0 = w0 ∧ bitsOf ans 127 64 = w1 ∧ bitsOf ans 129 128 = w2 % 4 ∧ bitsOf ans 191 160 = w2 / 2 ^ 32 ∧
      bitsOf ans (k + 63) k = done % 2 ^ 64 := by
  intro ans
  have h01 : w0 + w1 * 2 ^ 64 < 2 ^ 128 := by omega
  have h012 : w0 + w1 * 2 ^ 64 + w2 * 2 ^ 128 < 2 ^ k :=
    Nat.lt_of_lt_of_le (by omega : _ < 2 ^ 192) (Nat.pow_le_pow_right (by decide) hk)
  have hans : ans = w0 + w1 * 2 ^ 64 + w2 * 2 ^ 128 + done * 2 ^ k := by
    simp only [ans, packBits, List.foldl_cons, List.foldl_nil, Nat.pow_zero, Nat.mul_one, Nat.zero_add]
  rw [hans]
  refine ⟨?_, ?_, ?_, ?_, ?_⟩
  · rw [bitsOf_under (by omega), bitsOf_under (by decide), bitsOf_under (by decide), bitsOf_eq_div, Nat.pow_zero, Nat.div_one,
      Nat.mod_eq_of_lt h0]
  · rw [bitsOf_under (by omega), bitsOf_under (by decide), bitsOf_placed h0 (by decide), Nat.pow_zero, Nat.div_one,
      Nat.mod_eq_of_lt h1]
  · exact (bitsOf_under (by omega) _ _ _).trans ((bitsOf_placed h01 (by decide) w2 129).trans (congrArg (· % 4) (Nat.div_one w2)))
  · rw [bitsOf_under (by omega), bitsOf_placed h01 (by decide)]
    exact Nat.mod_eq_of_lt (by omega)
  · rw [bitsOf_placed h012 (Nat.le_refl k), Nat.sub_self, Nat.pow_zero, Nat.div_one, Nat.add_assoc, Nat.add_sub_cancel_left]

/-- LARK_DONE as it is read back: LEN and the reason code (Table HL-7). -/
theorem larkDone_words {reason : Nat} (tag : Nat) (hreason : reason < 65536) :
    let done := packBits [(tag, 48), (reason, 16), (3, 11), (1, 0)] % 2 ^ 64
    bitsOf done 15 11 = 3 ∧ bitsOf done 31 16 = reason := by
  simp only [packBits, List.foldl_cons, List.foldl_nil, bitsOf_eq_div]
  omega

end Sys2Proof.Machine

namespace Sys2Proof

open Sys2Proof.Machine

/-- A command of a Lark slot ends by its answer. -/
theorem endCmd_lark {oc : OpenCmd} {k : Fin 64} (hdoor : oc.door = .lark k) (e : CmdEnd) (s : State) :
    ∃ t, endCmd oc e s = larkAnswer k e.reason 3 e.r0 e.r1 (e.status + cmdToken oc.words * 2 ^ 32) t := by
  simp only [endCmd, hdoor]
  exact ⟨_, rfl⟩

theorem larkGet_larkAnswer (k reason len w0 w1 w2 : Nat) (s : State) :
    larkGet (larkAnswer k reason len w0 w1 w2 s) k =
      { larkGet s k with
        busy := false
        ans := packBits [(w0 % 2 ^ 64, 0), (w1 % 2 ^ 64, 64), (w2 % 2 ^ 64, 128),
          (packBits [(bitsOf (larkCtrl (larkGet s k)) 63 48, 48), (reason, 16), (len, 11), (1, 0)], 1984)] } := by
  rw [larkAnswer, larkGet, deliverEvent_lark]
  exact larkGet_larkPut k _ s

/-- Settles O50: the slot's answer as it was packed. -/
theorem larkAnswerWords : Obligations.LarkAnswerWords := by
  intro oc e s k hdoor ⟨hstatus, hreason⟩
  obtain ⟨t, ht⟩ := endCmd_lark hdoor e s
  intro l done
  have hl : l = _ := (congrArg (larkGet · k.val) ht).trans (larkGet_larkAnswer ..)
  have htoken : cmdToken oc.words < 2 ^ 32 := bitsOf_lt _ 63 32
  have hw2 : (e.status + cmdToken oc.words * 2 ^ 32) % 2 ^ 64 = e.status + cmdToken oc.words * 2 ^ 32 := by omega
  obtain ⟨h0, h1, h2, htok, h31⟩ := answer_words (k := 1984) (Nat.mod_lt e.r0 (Nat.two_pow_pos 64))
    (Nat.mod_lt e.r1 (Nat.two_pow_pos 64)) (Nat.mod_lt (e.status + cmdToken oc.words * 2 ^ 32) (Nat.two_pow_pos 64)) (by decide)
    (packBits [(bitsOf (larkCtrl (larkGet t k)) 63 48, 48), (e.reason, 16), (3, 11), (1, 0)])
  obtain ⟨hlen, hcode⟩ := larkDone_words (bitsOf (larkCtrl (larkGet t k)) 63 48) hreason
  have hans : l.ans = packBits _ := congrArg LarkSlot.ans hl
  have hbusy : l.busy = false := congrArg LarkSlot.busy hl
  rw [← hans] at h0 h1 h2 htok h31
  rw [← h31] at hlen hcode
  have hstat : bitsOf l.ans 129 128 = e.status := by rw [h2, hw2]; omega
  have htok' : bitsOf l.ans 191 160 = cmdToken oc.words := by rw [htok, hw2]; omega
  exact ⟨hbusy, h0, h1, hstat, htok', hlen, hcode⟩

/-- Settles O49: the XOR of all bytes is 0xA5 exactly where the check byte is 0xA5 with the XOR of the others. -/
theorem entryCheck : Obligations.EntryCheck := fun v n => ⟨entryPasses_iff v n, by
  have hxor : xorBytes 0 64 = 0 := by decide
  rw [entryPasses, hxor, show ((0 : Nat) == 0xA5) = false from rfl, Bool.and_false]⟩

end Sys2Proof
end

section
/-! PROOFS. F and D arithmetic of a hart: the result's register, the flags, the count of instructions; then O60. -/
namespace Sys2Proof.Machine

theorem hart_setHart (h : Nat) (x : Hart) (s : State) : hart (setHart h x s) h = x := by
  simp [hart, setHart, tgetD, tget_tput_self]

/-- An instruction that retires is counted and changes nothing else that a program reads but the cycles. -/
theorem hart_retires (h : Nat) (s : State) :
    hart (retires h s) h =
      { hart s h with minstret := ((hart s h).minstret + 1) % 2 ^ 64, mcycle := ((hart s h).mcycle + 1 + freshVal s) % 2 ^ 64 } :=
  hart_setHart h _ s

section
variable {s : State} {h rm : Nat} {mode : RMode} (hmode : coreMode (hart s h).fcsr rm = some mode)
include hmode

/-- The result and flags of an operation on the registers it names. -/
theorem coreFp_retires (op : CoreFpOp) (dbl : Bool) (rd ra rb rc : Nat) :
    let x := hart s h
    let r := coreFpResult op (if dbl then .fp64 else .fp32) mode (fregOperand x dbl ra) (fregOperand x dbl rb) (fregOperand x dbl rc)
    let y := { x with fcsr := x.fcsr ||| fcsrFlags r.2 }
    coreFp h op dbl rm rd ra rb rc s = retires h (setHart h (if isCompare op then { y with result := r.1 }
      else { y with fregs := tput y.fregs rd (if dbl then r.1 else (2 ^ 32 - 1) * 2 ^ 32 + r.1) }) s) := by
  simp only [coreFp, hmode]

end

theorem isCompare_iff (op : CoreFpOp) : isCompare op = true ↔ op = .eq ∨ op = .lt ∨ op = .le := by
  simp [isCompare, or_assoc]

end Sys2Proof.Machine

namespace Sys2Proof

open Sys2Proof.Machine

/-- Settles O60: the retired hart read field by field, for a compare and for an operation with a result in an F register. -/
theorem coreFloatingPoint : Obligations.CoreFloatingPoint := by
  intro s h op dbl rm rd ra rb rc x f box mode r y hmode
  have hy : y = _ := (congrArg (hart · h) (coreFp_retires hmode op dbl rd ra rb rc)).trans (hart_retires h _)
  simp only [hart_setHart] at hy
  cases hcmp : isCompare op with
  | true =>
    rw [if_pos hcmp] at hy
    have hop := (isCompare_iff op).mp hcmp
    refine ⟨fun heq hlt hle => absurd hop (by simp [heq, hlt, hle]), fun _ => ?_, ?_, ?_⟩
    · rw [hy]; exact ⟨rfl, rfl⟩
    · rw [hy]
    · rw [hy]
  | false =>
    rw [if_neg (by simp [hcmp])] at hy
    refine ⟨fun _ _ _ => ?_, fun hop => absurd ((isCompare_iff op).mpr hop) (by simp [hcmp]), ?_, ?_⟩
    · rw [hy]
      refine ⟨?_, fun k hk => tget_tput_other _ _ hk.symm⟩
      rw [tget_tput_self]
      cases dbl
      · rfl
      · exact congrArg some (Nat.zero_add _).symm
    · rw [hy]
    · rw [hy]

end Sys2Proof
end

section
/-! PROOFS. Events for the host: a route's vector, a masked vector, a held event; then O51. -/
namespace Sys2Proof.Machine

variable {s : State}

/-- An event routed to the host goes as its route's vector where the link can carry it, and is held where not. -/
theorem deliverEvent_toHost {src : Nat} (hen : getF s evRouteEn src = 1) (hhost : getF s evRouteToHost src = 1) :
    deliverEvent src s =
      if msixReady s then setF evRoutePend src 0 (msixSend (getF s evRouteEiid src) s) else setF evRoutePend src 1 s := by
  cases hready : msixReady s with
  | true => simp [deliverEvent, routePrimary, hen, hhost, hready]
  | false => simp [deliverEvent, routePrimary, heldForHost, hen, hhost, hready]

theorem msixSend_zero : msixSend 0 s = s := if_pos rfl

theorem msixSend_vector {v : Nat} (hv : v ≠ 0) :
    msixSend v s =
      if (tgetD s.link.msix v {}).masked then { s with link.pba := setAdd s.link.pba v } else { s with hostOut := .msix v :: s.hostOut } :=
  if_neg hv

theorem msixSend_regs (v : Nat) (s : State) : (msixSend v s).regs = s.regs := by
  unfold msixSend
  split
  · rfl
  · split <;> rfl

/-- The one vector that is pending goes once it is not masked. -/
theorem msixFlush_single {v : Nat} (hready : msixReady s = true) (hpending : s.link.pba = [v])
    (hmask : (tgetD s.link.msix v {}).masked = false) :
    msixFlush s = { s with link.pba := [], hostOut := .msix v :: s.hostOut } := by
  simp [msixFlush, hready, hpending, hmask, setDel]

/-- A range about one of its numbers. -/
theorem range_split {k n : Nat} (h : k < n) : List.range n = List.range k ++ k :: List.range' (k + 1) (n - (k + 1)) := by
  have happend := List.range'_append_1 (s := 0) (m := k) (n := n - (k + 1) + 1)
  rw [Nat.zero_add, List.range'_succ, show k + (n - (k + 1) + 1) = n by omega] at happend
  rw [List.range_eq_range', List.range_eq_range', happend]

/-- Routes that hold nothing are passed over. -/
theorem retry_none {l : List Nat} (h : ∀ n ∈ l, getF s evRoutePend n = 0) :
    l.foldl (fun t src => if getF t evRoutePend src = 1 then deliverEvent src t else t) s = s := by
  induction l with
  | nil => rfl
  | cons n l ih =>
    have hn : getF s evRoutePend n ≠ 1 := by rw [h n List.mem_cons_self]; decide
    rw [List.foldl_cons, if_neg hn, ih fun m hm => h m (List.mem_cons_of_mem n hm)]

/-- The one event that is held goes once the link can carry it. -/
theorem retryHeld_single {src : Nat} (hsrc : src < 72) (hpend : getF s evRoutePend src = 1) (hen : getF s evRouteEn src = 1)
    (hhost : getF s evRouteToHost src = 1) (hready : msixReady s = true)
    (hothers : ∀ n, n < 72 → n ≠ src → getF s evRoutePend n = 0) :
    retryHeld s = setF evRoutePend src 0 (msixSend (getF s evRouteEiid src) s) := by
  have hbelow : ∀ n ∈ List.range src, getF s evRoutePend n = 0 := fun n hn => by
    rw [List.mem_range] at hn
    exact hothers n (by omega) (by omega)
  have habove : ∀ n ∈ List.range' (src + 1) (72 - (src + 1)), getF (deliverEvent src s) evRoutePend n = 0 := fun n hn => by
    rw [List.mem_range'_1] at hn
    rw [deliverEvent_toHost hen hhost, if_pos hready, getF_setF_other (by omega) (by omega) (.inr (by omega)), getF, regRaw,
      msixSend_regs]
    exact hothers n (by omega) (by omega)
  rw [retryHeld, range_split hsrc, List.foldl_append, retry_none hbelow, List.foldl_cons, if_pos hpend, retry_none habove,
    deliverEvent_toHost hen hhost, if_pos hready]

/-- The link comes up at a speed and width that it can take. -/
theorem linkUp_comes {speed width : Nat} (hdown : flagSet s hlStatusLinkUp 0 = false) (halive : linksAlive s = true)
    (hspeed : speed ≠ 0) (hcap : speed ≤ capSpeed s) (hwidth : widthOk width = true) :
    linkUp speed width s = msixFlush (retryHeld (linkRuns speed width (setF hlStatusLinkUp 0 1 s))) := by
  simp [linkUp, hdown, halive, hspeed, Nat.not_lt.mpr hcap, hwidth]

theorem msixAct_endpoint (hrole : selfHosted s = false) (a : MsixAct) :
    msixAct a s = match a with
    | .vector v => msixFlush { s with link.msix := tmod s.link.msix v.val {} (fun e => { e with masked := false }) }
    | .enable => msixFlush (retryHeld { s with link.msixEn := true })
    | .busMaster => msixFlush (retryHeld (setF hlStatusBme 0 1 s)) :=
  if_neg (by rw [hrole]; decide)

end Sys2Proof.Machine

namespace Sys2Proof

open Sys2Proof.Machine

/-- Settles O51: each event's way to the host, in the order of R378. -/
theorem eventsToTheHost : Obligations.EventsToTheHost := by
  intro s
  refine ⟨fun src ⟨hen, hhost⟩ => deliverEvent_toHost hen hhost, msixSend_zero, fun v hv => msixSend_vector hv, ?unmask,
    fun src ⟨hsrc, hpend, hen, hhost, hready⟩ hothers => retryHeld_single hsrc hpend hen hhost hready hothers, ?allowed, ?up⟩
  case unmask =>
    intro v opened ⟨hl, hrole, hready⟩ hpending
    have hopen : (tgetD opened v.val {}).masked = false := by simp [opened, tmod, tgetD, tget_tput_self]
    have hact : msixAct (.vector v) s = { s with link.msix := opened, link.pba := [], hostOut := .msix v.val :: s.hostOut } :=
      (msixAct_endpoint hrole _).trans (msixFlush_single (s := { s with link.msix := opened }) hready hpending hopen)
    exact onLink_leaves hl hact
  case allowed =>
    intro ⟨hl, hrole⟩
    exact ⟨onLink_leaves hl (msixAct_endpoint hrole _), onLink_leaves hl (msixAct_endpoint hrole _)⟩
  case up =>
    intro speed width ⟨hl, hdown, hspeed, hcap, hwidth⟩
    exact onLink_leaves hl (linkUp_comes hdown hl.2 hspeed hcap hwidth)

end Sys2Proof
end

section
/-! PROOFS. Commands that fail a check common to all commands, row by row of the opcode table; then O57. -/
namespace Sys2Proof.Machine

/-- The rows of the opcode table that serve every command of their opcode: opcode, body and row. -/
noncomputable def plainRows : List (Nat × (OpenCmd → State → Body) × (Cmd → Instr)) :=
  [(0x00, nopBody, .nop), (0x01, queryBody, .query), (0x02, sqConfigBody, .sqConfig), (0x03, cqConfigBody, .cqConfig),
    (0x04, eqConfigBody, .eqConfig), (0x08, regReadBody, .regRead), (0x09, regWriteBody, .regWrite), (0x0A, cfgReadBody, .cfgRead),
    (0x0B, cfgWriteBody, .cfgWrite), (0x10, jobCreateBody, .jobCreate), (0x11, jobDestroyBody, .jobDestroy),
    (0x19, graphCancelBody, .graphCancel), (0x1C, seqOpenBody, .seqOpen), (0x1D, seqCloseBody, .seqClose),
    (0x20, bufCreateBody, .bufCreate), (0x21, bufFreeBody, .bufFree), (0x24, regionArmBody, .regionArm),
    (0x25, regionQuiesceBody, .regionQuiesce), (0x26, regionReleaseBody, .regionRelease), (0x40, coresStartBody, .coresStart),
    (0x41, hostDieResetBody, .hostDieReset), (0x48, dirReadBody, .dirRead), (0x61, imageStageBody, .imageStage),
    (0x62, imageActivateBody, .imageActivate), (0x63, svnCommitBody, .svnCommit), (0x64, measureReadBody, .measureRead),
    (0x65, attestBody, .attest), (0x70, partCreateBody, .partCreate), (0x71, partDestroyBody, .partDestroy),
    (0x72, spareSwapBody, .spareSwap), (0x75, patternBody, .pattern), (0x78, netConfigBody, .netConfig),
    (0x79, qpConfigBody, .qpConfig), (0x7B, imageFetchBody, .imageFetch), (0x7C, xgroupBody, .xgroupOpen),
    (0x80, capSetBody, .capSet), (0x81, phaseReadBody, .phaseRead), (0x82, phaseLoadBody, .phaseLoad), (0x83, pwReadBody, .pwRead),
    (0x88, logReadBody, .errLogRead), (0x89, selfTestBody, .selfTest), (0x8B, injectBody, .errInject)]

/-- Each of these rows is its opcode's body, run by the control processor. -/
theorem exec_plainRow : ∀ r ∈ plainRows, ∀ c s, exec (r.2.2 c) s = served s (runCmd r.1 r.2.1 c s) := by
  simp only [plainRows, List.forall_mem_cons, List.not_mem_nil, false_imp_iff, implies_true, and_true]
  and_intros
  all_goals exact fun _ _ => rfl

end Sys2Proof.Machine

namespace Sys2Proof

open Sys2Proof.Machine

section
variable {op : Nat} {body : OpenCmd → State → Body} {c : Cmd} {s : State}

/-- Before the control processor is ready a command has no effect (R389). -/
theorem runCmd_notReady (h : flagSet s obStatusReady 0 = false) : runCmd op body c s = s :=
  if_pos (by rw [h, Bool.not_false, Bool.or_true])

/-- A new command that starts and fails a common check ends refused, with the lowest code of those that fail (R570). -/
theorem runCmd_refused {code : Nat} (hop : cmdOpcode c.words = op) (hready : flagSet s obStatusReady 0 = true)
    (hnew : s.ob.openCmds.find? (fun o => o.door == c.door && o.words == c.words && !o.started) = none)
    (hroom : s.ob.openCmds.length < 1024) (hfit : recordsFit (ownRecord c.door c.words) s = true)
    (hstart : mayStart (openOf c s) (takeCmd c.door c.words (ownRecord c.door c.words) s).2 = true)
    (hcode : lowest [failIf (afterDestroy (openOf c s) (startedAt c s)) 0x0102,
      some (commonCode c.door c.words (ownRecord c.door c.words) (startedAt c s))] = code) (hfails : code ≠ 0) :
    runCmd op body c s =
      endCmd (openOf c s) (endRefused (lowest [some code, bodyCode body (openOf c s) (startedAt c s)])) (startedAt c s) := by
  have hmine : (!(cmdOpcode c.words == op) || !flagSet s obStatusReady 0) = false := by simp [hop, hready]
  have hrefused : runStarted body (openOf c s) (startedAt c s) =
      endCmd (openOf c s) (endRefused (lowest [some code, bodyCode body (openOf c s) (startedAt c s)])) (startedAt c s) := by
    rw [← hcode] at hfails ⊢
    exact if_pos (bne_iff_ne.mpr hfails)
  have hgo : startCmd (fun _ _ => true) body (openOf c s) (takeCmd c.door c.words (ownRecord c.door c.words) s).2 =
      runStarted body (openOf c s) (startedAt c s) :=
    if_neg (by rw [hstart]; exact Bool.false_ne_true)
  simp only [runCmd, runWith, hmine, hnew, hfit, Nat.not_le.mpr hroom, Bool.not_true, Bool.false_eq_true, if_false]
  exact hgo.trans hrefused

end

/-- Settles O57: each row runs its body under the common checks. -/
theorem refusedCommands : Obligations.RefusedCommands := by
  intro s c
  refine ⟨?refused, ?notReady⟩
  case refused =>
    intro op body mk code hrow ⟨hp, hop, hready⟩ hnew ⟨hroom, hfit⟩ hstart hfails
    have hexec : exec (mk c) s = served s (runCmd op body c s) := exec_plainRow (op, body, mk) hrow c s
    rw [hexec, served_powered hp, runCmd_refused hop hready hnew hroom hfit hstart rfl hfails]
  case notReady =>
    intro op mk hrow ⟨hp, hready⟩
    obtain ⟨r, hr, heq⟩ := List.mem_map.mp (show (op, mk) ∈ plainRows.map (fun r => (r.1, r.2.2)) from hrow)
    obtain ⟨rfl, rfl⟩ := Prod.mk.inj heq
    rw [exec_plainRow r hr, served_powered hp, runCmd_notReady hready]

end Sys2Proof
end

section
/-! PROOFS. Routes of the tensor fabric (R427), paths of the Loam (R461), the order of network classes (R445); then O59. -/
namespace Sys2Proof.Machine

/-! ## Walks in x -/

/-- The plane that an x direction leads to. -/
def planeStep (p d : Nat) : Nat := (neighbourOf (p, 0, 0) d).1

/-- The x directions `w` lead from plane `p` to plane `q` and never enter the spare plane. -/
def IsXWalk (spare q : Nat) : Nat → List Nat → Prop
  | p, [] => p = q
  | p, d :: w => d < 4 ∧ planeStep p d ≠ spare ∧ IsXWalk spare q (planeStep p d) w

theorem mem_xPreference (d : Nat) : d ∈ xPreference ↔ d < 4 := by
  simp only [xPreference, List.mem_cons, List.not_mem_nil, or_false]
  omega

theorem mem_xWalks {spare q n p : Nat} {w : List Nat} : w ∈ xWalks spare q n p ↔ w.length = n ∧ IsXWalk spare q p w := by
  induction n generalizing p w with
  | zero => cases w <;> simp [xWalks, IsXWalk]
  | succ n ih =>
    have hstep : ∀ d, w ∈ (if planeStep p d = spare then [] else (xWalks spare q n (planeStep p d)).map (d :: ·)) ↔
        planeStep p d ≠ spare ∧ ∃ t, (t.length = n ∧ IsXWalk spare q (planeStep p d) t) ∧ d :: t = w := by
      intro d
      split
      case isTrue hspare => simp [hspare]
      case isFalse hnot => simp [hnot, ih]
    change w ∈ xPreference.flatMap (fun d => if planeStep p d = spare then [] else (xWalks spare q n (planeStep p d)).map (d :: ·)) ↔ _
    simp only [List.mem_flatMap, mem_xPreference, hstep]
    constructor
    · rintro ⟨d, hd, hne, t, ⟨hlen, hwalk⟩, rfl⟩
      exact ⟨by rw [List.length_cons, hlen], hd, hne, hwalk⟩
    · rintro ⟨hlen, hwalk⟩
      cases w with
      | nil => cases hlen
      | cons d t => exact ⟨d, hwalk.1, hwalk.2.1, t, ⟨Nat.succ_inj.mp hlen, hwalk.2.2⟩, rfl⟩

/-- The four directions of a step in x, and the four places of a ring. -/
theorem four_cases {d : Nat} (hd : d < 4) : d = 0 ∨ d = 1 ∨ d = 2 ∨ d = 3 := by omega

theorem planeStep_back {p d : Nat} (hp : p < 9) (hd : d < 4) : planeStep (planeStep p d) (d ^^^ 1) = p := by
  rcases four_cases hd with rfl | rfl | rfl | rfl <;> simp only [planeStep, neighbourOf, Nat.reduceXor] <;> omega

theorem planeStep_lt {d : Nat} (hd : d < 4) (p : Nat) : planeStep p d < 9 := by
  rcases four_cases hd with rfl | rfl | rfl | rfl <;> exact Nat.mod_lt _ (by decide)

theorem IsXWalk.concat {spare p q d : Nat} (hd : d < 4) (hne : planeStep q d ≠ spare) {w : List Nat} (h : IsXWalk spare q p w) :
    IsXWalk spare (planeStep q d) p (w ++ [d]) := by
  induction w generalizing p with
  | nil =>
    obtain rfl : p = q := h
    exact ⟨hd, hne, rfl⟩
  | cons e w ih => exact ⟨h.1, h.2.1, ih h.2.2⟩

/-- A walk in the other direction. -/
def reversedWalk (w : List Nat) : List Nat := w.reverse.map (· ^^^ 1)

/-- A walk read backwards takes the same planes in reverse. -/
theorem IsXWalk.reversed {spare p q : Nat} (hp : p < 9) (hspare : p ≠ spare) {w : List Nat} (h : IsXWalk spare q p w) :
    IsXWalk spare p q (reversedWalk w) := by
  induction w generalizing p with
  | nil => exact h.symm
  | cons d w ih =>
    obtain ⟨hd, hne, hwalk⟩ := h
    have hback := planeStep_back hp hd
    have hturn : d ^^^ 1 < 4 := Nat.xor_lt_two_pow (n := 2) hd (by decide)
    have hrest := (ih (planeStep_lt hd p) hne hwalk).concat hturn (by rw [hback]; exact hspare)
    rw [hback] at hrest
    simpa [reversedWalk] using hrest

theorem reversedWalk_reversedWalk (w : List Nat) : reversedWalk (reversedWalk w) = w := by
  have htwice : ∀ d, ((· ^^^ 1) ∘ (· ^^^ 1)) d = d := fun d =>
    (Nat.xor_assoc d 1 1).trans ((congrArg (d ^^^ ·) (Nat.xor_self 1)).trans (Nat.xor_zero d))
  rw [reversedWalk, reversedWalk, ← List.map_reverse, List.reverse_reverse, List.map_map, List.map_id'' htwice]

/-! ## The x route -/

/-- What is found first over a range is found at the least number where there is any. -/
theorem findSome?_range {α : Type} {f : Nat → Option α} {n : Nat} (h : ∃ k < n, f k ≠ none) :
    ∃ k < n, (List.range n).findSome? f = f k ∧ f k ≠ none ∧ ∀ j, f j ≠ none → k ≤ j := by
  induction n with
  | zero => exact absurd h (fun ⟨k, hk, _⟩ => Nat.not_lt_zero k hk)
  | succ n ih =>
    rw [List.range_succ, List.findSome?_append]
    by_cases hfirst : ∃ k < n, f k ≠ none
    · obtain ⟨k, hk, hfound, hne, hleast⟩ := ih hfirst
      obtain ⟨a, ha⟩ := Option.ne_none_iff_exists'.mp hne
      exact ⟨k, Nat.lt_succ_of_lt hk, by rw [hfound, ha, Option.some_or], hne, hleast⟩
    · have hnone : ∀ j < n, f j = none := fun j hj => Classical.byContradiction fun hne => hfirst ⟨j, hj, hne⟩
      obtain ⟨k, hk, hne⟩ := h
      have hlast : k = n := Nat.le_antisymm (Nat.le_of_lt_succ hk) (Nat.le_of_not_lt fun hlt => hne (hnone k hlt))
      subst hlast
      have hbelow : (List.range k).findSome? f = none :=
        List.findSome?_eq_none_iff.mpr fun j hj => hnone j (List.mem_range.mp hj)
      obtain ⟨a, ha⟩ := Option.ne_none_iff_exists'.mp hne
      exact ⟨k, hk, by rw [hbelow, List.findSome?_cons, ha, Option.none_or], hne,
        fun j hj => Nat.le_of_not_lt fun hlt => hj (hnone j hlt)⟩

/-- Planes of the segments between two planes are joined by steps of x+1. -/
theorem isXWalk_replicate {spare p q k : Nat} (hs : spare < 9) (hp : p < 9) (hq : q < 9) (hqs : q ≠ spare)
    (hk : seg spare q = seg spare p + k) : IsXWalk spare q p (List.replicate k 0) := by
  unfold seg at hk
  induction k generalizing p with
  | zero =>
    show p = q
    omega
  | succ k ih =>
    have hnext : planeStep p 0 = (p + 1) % 9 := rfl
    refine ⟨by decide, ?_, ?_⟩
    · rw [hnext]
      omega
    · rw [hnext]
      exact ih (by omega) (by omega)

section
variable {spare p q : Nat} (hs : spare < 9) (hp : p < 9) (hq : q < 9) (hqs : q ≠ spare)
include hs hp hq hqs

/-- Read from the plane of lower segment index, the x route is a walk, and none is shorter. -/
theorem xRead_shortest (hseg : seg spare p ≤ seg spare q) :
    IsXWalk spare q p (xRead spare p q) ∧ ∀ w, IsXWalk spare q p w → (xRead spare p q).length ≤ w.length := by
  have hsome : ∀ {n w}, w.length = n → IsXWalk spare q p w → (xWalks spare q n p).head? ≠ none := fun hlen hw =>
    mt List.head?_eq_none_iff.mp (List.ne_nil_of_mem (mem_xWalks.mpr ⟨hlen, hw⟩))
  have hlong : seg spare q - seg spare p < 9 := by
    unfold seg
    omega
  have hwalk := isXWalk_replicate (k := seg spare q - seg spare p) hs hp hq hqs (by omega)
  obtain ⟨n, _, hfound, hne, hleast⟩ := findSome?_range (f := fun n => (xWalks spare q n p).head?)
    ⟨_, hlong, hsome List.length_replicate hwalk⟩
  obtain ⟨w, hw⟩ := Option.ne_none_iff_exists'.mp hne
  have hread : xRead spare p q = w := by rw [xRead, hfound, hw, Option.getD_some]
  obtain ⟨hlen, hwalks⟩ := mem_xWalks.mp (List.mem_of_mem_head? hw)
  rw [hread, hlen]
  exact ⟨hwalks, fun v hv => hleast _ (hsome rfl hv)⟩

variable (hps : p ≠ spare)
include hps

/-- The x route is a walk, and none is shorter. -/
theorem xRoute_shortest :
    IsXWalk spare q p (xRoute spare p q) ∧ ∀ w, IsXWalk spare q p w → (xRoute spare p q).length ≤ w.length := by
  unfold xRoute
  split
  next hseg => exact xRead_shortest hs hp hq hqs hseg
  next hseg =>
    obtain ⟨hwalk, hleast⟩ := xRead_shortest hs hq hp hps (by omega)
    refine ⟨hwalk.reversed hq hqs, fun w hw => ?_⟩
    simpa [reversedWalk] using hleast _ (hw.reversed hp hps)

theorem xRoute_reversed : xRoute spare q p = reversedWalk (xRoute spare p q) := by
  rcases Nat.lt_trichotomy (seg spare p) (seg spare q) with h | h | h
  · rw [xRoute, if_neg (by omega), xRoute, if_pos (by omega)]
    rfl
  · have hsame : p = q := by unfold seg at h; omega
    subst hsame
    have hnil : (xRoute spare p p).length ≤ 0 := (xRoute_shortest hs hp hp hps hps).2 [] rfl
    rw [List.eq_nil_of_length_eq_zero (Nat.le_zero.mp hnil)]
    rfl
  · rw [xRoute, if_pos (by omega), xRoute, if_neg (by omega)]
    exact (reversedWalk_reversedWalk _).symm

end

/-! ## The stops of a route -/

/-- The directions `w` lead from `a` to `b`, by modules outside the spare plane. -/
def Leads (spare : Nat) (a b : HeathPos) (w : List Nat) : Prop :=
  (routeStops a w).getLast?.getD a = b ∧ ∀ m ∈ routeStops a w, m.1 ≠ spare

theorem leads_cons {spare d : Nat} {a b : HeathPos} {w : List Nat} :
    Leads spare a b (d :: w) ↔ (neighbourOf a d).1 ≠ spare ∧ Leads spare (neighbourOf a d) b w := by
  simp only [Leads, routeStops, List.getLast?_cons, Option.getD_some, List.forall_mem_cons]
  exact and_left_comm

theorem leads_nil {spare : Nat} {a b : HeathPos} : Leads spare a b [] ↔ a = b := by simp [Leads, routeStops]

theorem Leads.append {spare : Nat} {a b c : HeathPos} {v w : List Nat} (h : Leads spare a b v) (h' : Leads spare b c w) :
    Leads spare a c (v ++ w) := by
  induction v generalizing a with
  | nil =>
    obtain rfl := leads_nil.mp h
    exact h'
  | cons d v ih =>
    obtain ⟨hne, hrest⟩ := leads_cons.mp h
    exact leads_cons.mpr ⟨hne, ih hrest⟩

theorem IsXWalk.leads {spare p q : Nat} {w : List Nat} (h : IsXWalk spare q p w) (y z : Nat) :
    Leads spare (p, y, z) (q, y, z) w := by
  induction w generalizing p with
  | nil =>
    obtain rfl : p = q := h
    exact leads_nil.mpr rfl
  | cons d w ih =>
    obtain ⟨hd, hne, hwalk⟩ := h
    have hnext : neighbourOf (p, y, z) d = (planeStep p d, y, z) := by
      rcases four_cases hd with rfl | rfl | rfl | rfl <;> rfl
    rw [leads_cons, hnext]
    exact ⟨hne, ih hwalk⟩

/-- The route of a ring of four ends where it is to, in the plane it is in. -/
theorem ringRoute_leads {spare p : Nat} (hp : p ≠ spare) {a b : Nat} (ha : a < 4) (hb : b < 4) (c : Nat) :
    Leads spare (p, a, c) (p, b, c) (ringRoute 4 a b) ∧ Leads spare (p, c, a) (p, c, b) (ringRoute 6 a b) := by
  rcases four_cases ha with rfl | rfl | rfl | rfl <;> rcases four_cases hb with rfl | rfl | rfl | rfl <;>
    simp [ringRoute, leads_cons, leads_nil, neighbourOf, hp]

theorem fixedRoute_leads {spare : Nat} {a b : HeathPos} (hs : spare < 9) (ha : a.1 < 9 ∧ a.2.1 < 4 ∧ a.2.2 < 4)
    (hb : b.1 < 9 ∧ b.2.1 < 4 ∧ b.2.2 < 4) (has : a.1 ≠ spare) (hbs : b.1 ≠ spare) : Leads spare a b (fixedRoute spare a b) := by
  obtain ⟨hx, hy, hz⟩ := ha
  obtain ⟨hx', hy', hz'⟩ := hb
  exact (((xRoute_shortest hs hx hx' hbs has).1.leads a.2.1 a.2.2).append (ringRoute_leads hbs hy hy' a.2.2).1).append
    (ringRoute_leads hbs hz hz' b.2.1).2

/-! ## Paths of the Loam -/

theorem loamPath_joined {s : State} {a b l : Nat} (hjoin : linkJoining a b = some l) (hcarries : linkCarries s l = true) :
    loamPath s a b = .links [l] := by
  rw [loamPath, hjoin, Option.filter_some_pos hcarries]

/-- With no link between, a message takes the first ring of the order that joins its dies. -/
theorem loamPath_ring {s : State} {a b r : Nat} (hnone : (linkJoining a b).filter (linkCarries s) = none)
    (hring : (ringOrder a b).find? (fun r => ringJoins s r a b) = some r) : loamPath s a b = .ring r := by
  simp [loamPath, hnone, hring]

/-- The rings are tried in the direction with fewer stops between, of the sum's parity first. -/
theorem ringOrder_begins (a b : Nat) :
    let way := if (b + 28 - a) % 28 ≤ 14 then 0 else 2
    ∃ rest, ringOrder a b = (way + (a + b) % 2) :: (way + 1 - (a + b) % 2) :: rest := by
  intro way
  by_cases h : (b + 28 - a) % 28 ≤ 14
  · have hway : way = 0 := if_pos h
    rw [hway, ringOrder, if_pos (by omega), Nat.zero_add, Nat.zero_add]
    exact ⟨_, rfl⟩
  · have hway : way = 2 := if_neg h
    rw [hway, ringOrder, if_neg (by omega)]
    exact ⟨_, rfl⟩

/-! ## Classes of the ordinary network -/

/-- The classes that share a port by weight, in their order. -/
def weighted (waiting : List NetClass) : List NetClass := [NetClass.coll, .start, .store, .host].filter (fun c => waiting.contains c)

theorem mem_weighted {waiting : List NetClass} {c : NetClass} : c ∈ weighted waiting ↔ c ≠ .ctrl ∧ c ∈ waiting := by
  cases c <;> simp [weighted]

/-- The class that a port prefers as it looks through them. -/
def preferred (s : State) (p : Nat) (best : Option NetClass) (c : NetClass) : Option NetClass :=
  match best with
  | some b => if lessServed s p c b then some c else best
  | none => some c

/-- Shares compare transitively, as the class between has a weight. -/
theorem lessServed_false_trans {s : State} {p : Nat} {b c d : NetClass} (hb : b ≠ .ctrl) (hdb : lessServed s p d b = false)
    (hbc : lessServed s p b c = false) : lessServed s p d c = false := by
  have hweight : 0 < (classRow b).2.2.2 := by
    cases b
    case ctrl => exact absurd rfl hb
    all_goals decide
  simp only [lessServed, decide_eq_false_iff_not, Nat.not_lt] at *
  refine Nat.le_of_mul_le_mul_right ?_ hweight
  calc classSent s p (classRow c).1 * (classRow d).2.2.2 * (classRow b).2.2.2
      = classSent s p (classRow c).1 * (classRow b).2.2.2 * (classRow d).2.2.2 := Nat.mul_right_comm ..
    _ ≤ classSent s p (classRow b).1 * (classRow c).2.2.2 * (classRow d).2.2.2 := Nat.mul_le_mul_right _ hbc
    _ = classSent s p (classRow b).1 * (classRow d).2.2.2 * (classRow c).2.2.2 := Nat.mul_right_comm ..
    _ ≤ classSent s p (classRow d).1 * (classRow b).2.2.2 * (classRow c).2.2.2 := Nat.mul_le_mul_right _ hdb
    _ = classSent s p (classRow d).1 * (classRow c).2.2.2 * (classRow b).2.2.2 := Nat.mul_right_comm ..

theorem lessServed_asymm {s : State} {p : Nat} {b c : NetClass} (h : lessServed s p b c = true) : lessServed s p c b = false := by
  simp only [lessServed, decide_eq_true_eq, decide_eq_false_iff_not] at *
  omega

theorem lessServed_self (s : State) (p : Nat) (c : NetClass) : lessServed s p c c = false := by simp [lessServed]

/-- Of the classes looked through none has had a smaller share than the one preferred. -/
theorem foldl_preferred {s : State} {p : Nat} {l : List NetClass} {b c : NetClass} (hl : ∀ d ∈ b :: l, d ≠ .ctrl)
    (h : l.foldl (preferred s p) (some b) = some c) : c ∈ b :: l ∧ ∀ d ∈ b :: l, lessServed s p d c = false := by
  induction l generalizing b with
  | nil =>
    obtain rfl : b = c := Option.some.inj h
    simp [lessServed_self]
  | cons e l ih =>
    have hlook : preferred s p (some b) e = if lessServed s p e b then some e else some b := rfl
    obtain ⟨hb, hrest⟩ := List.forall_mem_cons.mp hl
    obtain ⟨he, hl⟩ := List.forall_mem_cons.mp hrest
    rw [List.foldl_cons, hlook] at h
    cases hless : lessServed s p e b with
    | true =>
      rw [hless, if_pos rfl] at h
      obtain ⟨hmem, hall⟩ := ih hrest h
      have hbc := lessServed_false_trans he (lessServed_asymm hless) (hall e List.mem_cons_self)
      exact ⟨List.mem_cons_of_mem b hmem, List.forall_mem_cons.mpr ⟨hbc, hall⟩⟩
    | false =>
      rw [hless, if_neg Bool.false_ne_true] at h
      obtain ⟨hmem, hall⟩ := ih (List.forall_mem_cons.mpr ⟨hb, hl⟩) h
      have hbc := hall b List.mem_cons_self
      have hec := lessServed_false_trans hb hless hbc
      refine ⟨?_, List.forall_mem_cons.mpr ⟨hbc, List.forall_mem_cons.mpr ⟨hec, fun d hd => hall d (List.mem_cons_of_mem b hd)⟩⟩⟩
      rcases List.mem_cons.mp hmem with hcb | hcl
      · exact hcb ▸ List.mem_cons_self
      · exact List.mem_cons_of_mem b (List.mem_cons_of_mem e hcl)

/-- What a port has sent of all classes. -/
theorem sent_total (s : State) (p : Nat) :
    ((List.range 5).map (classSent s p)).foldl (· + ·) 0 =
      classSent s p 0 + classSent s p 1 + classSent s p 2 + classSent s p 3 + classSent s p 4 := by
  simp [List.range_succ]

/-- CTRL goes first within its 2 %, or where nothing else waits. -/
theorem nextClass_eq (s : State) (p : Nat) (waiting : List NetClass) :
    nextClass s p waiting =
      if NetClass.ctrl ∈ waiting ∧ (weighted waiting = [] ∨ classSent s p 0 * 50 ≤
        classSent s p 0 + classSent s p 1 + classSent s p 2 + classSent s p 3 + classSent s p 4) then some .ctrl
      else (weighted waiting).foldl (preferred s p) none := by
  rw [← sent_total]
  simp only [nextClass, Bool.and_eq_true, Bool.or_eq_true, List.contains_iff_mem, List.isEmpty_iff, decide_eq_true_eq]
  rfl

theorem nextClass_waits {s : State} {p : Nat} {waiting : List NetClass} {c : NetClass} (h : nextClass s p waiting = some c) :
    c ∈ waiting ∧ (c ≠ .ctrl → ∀ d ∈ weighted waiting, lessServed s p d c = false) := by
  rw [nextClass_eq] at h
  split at h
  next hctrl =>
    obtain rfl := Option.some.inj h
    exact ⟨hctrl.1, fun hne => absurd rfl hne⟩
  next =>
    cases hw : weighted waiting with
    | nil => rw [hw] at h; cases h
    | cons b l =>
      rw [hw] at h
      have hctrl : ∀ d ∈ b :: l, d ≠ .ctrl := fun d hd => (mem_weighted.mp (hw ▸ hd)).1
      obtain ⟨hmem, hall⟩ := foldl_preferred hctrl h
      exact ⟨(mem_weighted.mp (hw ▸ hmem)).2, fun _ => hall⟩

end Sys2Proof.Machine

namespace Sys2Proof

open Sys2Proof.Machine

/-- Settles O59: routes of bursts, paths of messages between dies, and the class a port sends of next. -/
theorem routesAndPaths : Obligations.RoutesAndPaths := by
  intro s
  refine ⟨?route, ?shortest, fun a b l ⟨hjoin, hcarries⟩ => loamPath_joined hjoin hcarries, ?ring, ?share, ?ctrl⟩
  case route =>
    intro spare a b start stops ⟨has, hbs⟩
    exact fixedRoute_leads spare.isLt ⟨a.1.isLt, a.2.1.isLt, a.2.2.isLt⟩ ⟨b.1.isLt, b.2.1.isLt, b.2.2.isLt⟩
      (Fin.val_ne_of_ne has) (Fin.val_ne_of_ne hbs)
  case shortest =>
    intro spare p q n ⟨hp, hq⟩
    have hps := Fin.val_ne_of_ne hp
    have hqs := Fin.val_ne_of_ne hq
    refine ⟨fun hwalks => ?_, xRoute_reversed spare.isLt p.isLt q.isLt hqs hps⟩
    obtain ⟨w, hw⟩ := List.exists_mem_of_ne_nil _ hwalks
    obtain ⟨hlen, hwalk⟩ := mem_xWalks.mp hw
    exact hlen ▸ (xRoute_shortest spare.isLt p.isLt q.isLt hqs hps).2 w hwalk
  case ring =>
    intro a b way first other hnone
    obtain ⟨rest, hrest⟩ : ∃ rest, ringOrder a b = first :: other :: rest := ringOrder_begins a b
    refine ⟨fun hjoins => loamPath_ring hnone ?_, fun hnot hjoins => loamPath_ring hnone ?_⟩
    · simp only [hrest, List.find?_cons, hjoins]
    · simp only [hrest, List.find?_cons, hnot, hjoins]
  case share =>
    intro p waiting c d h
    obtain ⟨hmem, hall⟩ := nextClass_waits h
    exact ⟨hmem, fun hc hd hdw => hall hc d (mem_weighted.mpr ⟨hd, hdw⟩)⟩
  case ctrl =>
    intro p waiting hctrl hshare
    rw [nextClass_eq, if_pos ⟨hctrl, .inr hshare⟩]

end Sys2Proof
end

section
/-! PROOFS. What a hart in service does: loads, stores, atomics, cache-block instructions, timer comparators; then O12. -/
namespace Sys2Proof.Machine

section
variable {s : State} {h pa : Nat}

theorem coreLoad_gets {kind n : Nat} (hclean : physPoison (rangeAccess .rds (hartPort h) pa n s) pa n = false) :
    coreLoad h kind pa n s =
      hartGets h (readNum (rangeAccess .rds (hartPort h) pa n s) pa n) (rangeAccess .rds (hartPort h) pa n s) :=
  if_neg (by rw [hclean]; exact Bool.false_ne_true)

variable (hup : coreUp s h = true)
include hup

/-! ## Atomics (R346) -/

section
variable {dbl : Bool} {x n : Nat} (hn : (if dbl then 8 else 4) = n) (hmem : coreMem s pa n = true ∧ pa % n = 0)
include hn hmem

/-- An atomic on aligned device memory is performed. -/
theorem coreAmo_performs (op : CoreAmo) :
    coreAmo h pa op dbl x s =
      if op = .sc then
        if tget s.cores.resv h == some (pa / 128) then
          hartGets h 0 (coreWrite h pa n (amoNew op n 0 x) { s with cores.resv := tdel s.cores.resv h })
        else hartGets h 1 { s with cores.resv := tdel s.cores.resv h }
      else
        let t := rangeAccess .rdx (hartPort h) pa n s
        if physPoison t pa n then hartPoison h (if op = .lr then 2 else 3) t
        else if op = .lr then hartGets h (signExt n (readNum t pa n)) { t with cores.resv := tput t.cores.resv h (pa / 128) }
        else hartGets h (signExt n (readNum t pa n)) (coreWrite h pa n (amoNew op n (readNum t pa n) x) t) := by
  have hopen : (!coreMem s pa n || pa % n != 0) = false := by simp [hmem.1, hmem.2]
  subst hn
  simp only [coreAmo, hup, hopen, Bool.not_true, Bool.false_eq_true, if_false]

theorem coreAmo_conditional (x : Nat) :
    coreAmo h pa .sc dbl x s =
      if tget s.cores.resv h = some (pa / 128) then
        hartGets h 0 (coreWrite h pa n (amoNew .sc n 0 x) { s with cores.resv := tdel s.cores.resv h })
      else hartGets h 1 { s with cores.resv := tdel s.cores.resv h } := by
  rw [coreAmo_performs hup hn hmem, if_pos rfl]
  simp only [beq_iff_eq]

variable (hclean : physPoison (rangeAccess .rdx (hartPort h) pa n s) pa n = false)
include hclean

theorem coreAmo_modifies {op : CoreAmo} (hop : op ≠ .lr ∧ op ≠ .sc) :
    let t := rangeAccess .rdx (hartPort h) pa n s
    coreAmo h pa op dbl x s =
      hartGets h (signExt n (readNum t pa n)) (coreWrite h pa n (amoNew op n (readNum t pa n) x) t) := by
  simp only [coreAmo_performs hup hn hmem, hclean, if_neg hop.1, if_neg hop.2, Bool.false_eq_true, if_false]

theorem coreAmo_reserves :
    let t := rangeAccess .rdx (hartPort h) pa n s
    coreAmo h pa .lr dbl x s =
      hartGets h (signExt n (readNum t pa n)) { t with cores.resv := tput t.cores.resv h (pa / 128) } := by
  simp only [coreAmo_performs hup hn hmem, hclean, reduceCtorEq, if_true, Bool.false_eq_true, if_false]

end

/-! ## Cache-block instructions and timers (R344, R350) -/

theorem cboZeroBlock_owns (hmem : coreMem s (pa / 64 * 64) 64 = true) :
    cboZeroBlock h pa s = hartGets h 0 (dropResv h (pa / 64 * 64 / 128) (devWrite (pa / 64 * 64) 64 0 (blockOwned h pa s))) :=
  (if_neg (by rw [hup]; exact Bool.false_ne_true)).trans (if_neg (by rw [hmem]; exact Bool.false_ne_true))

theorem coreTimer_compares (supervisor : Bool) (cmp : Nat) :
    coreTimer h supervisor cmp s =
      if supervisor then setHart h { hart s h with stimecmp := cmp, stip := decide (cmp ≤ localTime s (hartDie h)) } s
      else setHart h { hart s h with mtimecmp := cmp, mtip := decide (cmp ≤ localTime s (hartDie h)) } s :=
  if_neg (by rw [hup]; exact Bool.false_ne_true)

end

/-- A modified copy on which nothing is under way is written to the slice, and stays, clean. -/
theorem agentCleans_modified {s : State} {a line : Nat} (hm : (cacheLine s a line).st = .m) (hclosed : lineOpen s line = false)
    (hstep : lineStep line s = none) :
    agentCleans a line s =
      setCacheLine a line { cacheLine s a line with st := .e } (sliceWhole (slicePut line a 15) s) := by
  simp only [agentCleans, hstep, Option.isNone_none, if_true, hclosed, hm]
  rfl

end Sys2Proof.Machine

namespace Sys2Proof

open Sys2Proof.Machine

/-- An instruction of a hart that leaves a result retires. -/
theorem served_gets {h v : Nat} {f : State → State} {s t : State} (hp : Powered s) (hup : coreUp s h = true) (hf : f s = hartGets h v t) :
    served s (coreInstr h f s) = .next (left s (retires h (hartGets h v t))) := by
  rw [served_powered hp, coreInstr_gets hup hf]

theorem served_eq {s t u : State} (hp : Powered s) (h : t = u) : served s t = .next (left s u) := h ▸ served_powered hp

/-- Settles O12: each instruction of a hart in service, with what it leaves. -/
theorem coreCommands : Obligations.CoreCommands := by
  intro s h pa hp hup
  refine ⟨?store, ?load, ?fetch, ?amo, ?lr, ?sc, ?scFails, ?zero, ?clean, ?cleanModified, ?flush, ?inval, ?mtimer, ?stimer, ?watchdog⟩
  case store =>
    intro size data n hmem
    exact served_gets hp hup (coreAccess_store hup hmem)
  case load =>
    intro size data n t hmem hclean
    exact served_gets hp hup ((coreAccess_load hup hmem).trans (coreLoad_gets hclean))
  case fetch =>
    intro size data hmem
    exact served_eq hp (coreAccess_fetch hup hmem)
  case amo =>
    intro op dbl data n t old hop hmem hclean
    exact served_gets hp hup (coreAmo_modifies hup rfl hmem hclean hop)
  case lr =>
    intro dbl data n t resv hmem hclean
    exact served_gets hp hup (coreAmo_reserves hup rfl hmem hclean)
  case sc =>
    intro dbl data n free hmem hresv
    exact served_gets hp hup ((coreAmo_conditional hup rfl hmem _).trans (if_pos hresv))
  case scFails =>
    intro dbl data n free hmem hresv
    exact served_gets hp hup ((coreAmo_conditional hup rfl hmem _).trans (if_neg hresv))
  case zero => exact fun hmem => served_gets hp hup (cboZeroBlock_owns hup hmem)
  case clean => exact fun hmem => served_gets hp hup (cboCleanLine_cleans hup hmem)
  case cleanModified =>
    intro line c hmem ⟨hm, hclosed, hstep⟩
    have hcleans : cboCleanLine h pa.toNat s = hartGets h 0 _ :=
      (cboCleanLine_cleans hup hmem).trans (congrArg (hartGets h 0) (agentCleans_modified hm hclosed hstep))
    exact served_gets hp hup hcleans
  case flush => exact fun hmem => served_gets hp hup (cboFlushLine_gives hup hmem)
  case inval => exact fun hmem => served_gets hp hup (cboFlushLine_gives hup hmem)
  case mtimer =>
    intro cmp due
    exact served_eq hp (coreTimer_compares hup false _)
  case stimer =>
    intro cmp due
    exact served_eq hp (coreTimer_compares hup true _)
  case watchdog => exact fun d hr => served_eq hp (if_pos (by rw [hr.1.2, hr.2]; rfl))

end Sys2Proof
end

section
/-! PROOFS. The command doors: heads of queues, Lark requests, re-reads; the control processor's restart; then O28. -/
namespace Sys2Proof.Machine

variable {s : State}

/-! ## Queues (R374, R393) -/

/-- With no Lark request waiting the next queue gives its head. -/
theorem sqEntryFetch_takes {host : List W64} {q : Nat} (hready : flagSet s obStatusReady 0 = true) (hlark : larkWaits s = none)
    (hnext : nextQueue s host = some q) : sqEntryFetch host s = takeHead (Fin.ofNat 256 q) host s := by
  simp only [sqEntryFetch, hready, hlark, hnext, Bool.not_true, Option.isSome_none, Bool.or_self, Bool.false_eq_true, if_false]

/-- A head that passes its check becomes an open command where nothing keeps it waiting and its opcode is one. -/
theorem takeHead_accepts {q : Fin 256} {host ws : List W64} {n : Nat} (hhead : readHead (headReads q host s) q host = .cmd n false ws)
    (hlimits : limitsReached (.sq q) ws (headReads q host s) = false) (hrecords : recordsLack (.sq q) ws (headReads q host s) = false)
    (hshape : (cmdShape (cmdOpcode ws)).isSome = true) :
    let t := headReads q host s
    takeHead q host s = (takeCmd (.sq q) ws (reservesOf (.sq q) ws t)
      (setF sqStateHead q (getF t sqStateHead q + n) { t with ob.lastSq := tput t.ob.lastSq (getF t sqStatePrio q) q.val })).2 := by
  have hknown : (false || (cmdShape (cmdOpcode ws)).isNone) = false := by
    rw [Bool.false_or, ← Option.not_isSome, hshape]
    rfl
  simp only [takeHead, hhead, hlimits, hrecords, hknown, Bool.false_eq_true, if_false]

/-- A re-read's read of the entry, counted once for the entry. -/
def reread (q : Fin 256) (s : State) : State :=
  let k := tgetD s.ob.sq q.val {}
  entryRead q.val (if k.counted then s else bump hlCountsRereads 0 1 s) k.entry

/-- An entry that has become visible is taken, its queue running again. -/
theorem rereadQueue_visible {q : Fin 256} {host : List W64} {v : Nat} (hreads : (tgetD s.ob.sq q.val {}).rereads ≠ 0)
    (hentry : ringEntry s q.val (tgetD s.ob.sq q.val {}).entry host = some v) :
    rereadQueue q host s = takeHead q host (setF sqStateState q.val 1 { reread q s with
      ob.sq := tput (reread q s).ob.sq q.val { tgetD s.ob.sq q.val {} with rereads := 0, entry := 0, counted := false } }) := by
  simp only [rereadQueue, hreads, hentry, Option.isSome_some, if_false, if_true]
  rfl

/-- One that has not has a re-read less left. -/
theorem rereadQueue_again {q : Fin 256} {host : List W64} (hreads : 1 < (tgetD s.ob.sq q.val {}).rereads)
    (hentry : ringEntry s q.val (tgetD s.ob.sq q.val {}).entry host = none) :
    rereadQueue q host s = { reread q s with
      ob.sq := tput (reread q s).ob.sq q.val
        { tgetD s.ob.sq q.val {} with rereads := (tgetD s.ob.sq q.val {}).rereads - 1, counted := true } } := by
  have hsome : (tgetD s.ob.sq q.val {}).rereads ≠ 0 := by omega
  have hmore : (tgetD s.ob.sq q.val {}).rereads ≠ 1 := by omega
  simp only [rereadQueue, hsome, hmore, hentry, Option.isSome_none, Bool.false_eq_true, if_false]
  rfl

/-! ## Lark requests (R376, R377) -/

theorem larkGo_waiting {k : Nat} (hready : flagSet s obStatusReady 0 = true) (hwaits : larkWaits s = some k) :
    larkGo s = if larkPasses (larkGet s k) then larkTake (Fin.ofNat 64 k) s else larkPut k { larkGet s k with rereads := 8 } s := by
  simp only [larkGo, hready, hwaits, Bool.not_true, Bool.false_eq_true, if_false]

theorem rereadLark_visible {k : Fin 64} (hbusy : (larkGet s k.val).busy = true) (htaken : (larkGet s k.val).taken = false)
    (hreads : (larkGet s k.val).rereads ≠ 0) (hpasses : larkPasses (larkGet s k.val) = true) :
    rereadLark k s = larkTake k (if (larkGet s k.val).rereads = 8 then bump hlCountsRereads 0 1 s else s) := by
  simp only [rereadLark, hbusy, htaken, hreads, hpasses, Bool.not_true, Bool.or_self, decide_false, Bool.false_eq_true, if_false, if_true]

theorem entryReread_ready (hready : flagSet s obStatusReady 0 = true) (door : Door) (host : List W64) :
    entryReread door host s = match door with | .sq q => rereadQueue q host s | .lark k => rereadLark k s :=
  if_neg (by rw [hready]; exact Bool.false_ne_true)

/-! ## Restarts (R511) -/

/-- The record of a restart. -/
def restartRecord : ErrRec := { level := lvPackage, unit := 0x001A, reason := 0x0A55, cls := 0x09, verdict := vTransient }

/-- The control processor restarts: READY clears, the moment is kept, a record is written. -/
def restarts (s : State) : State :=
  writeErr restartRecord none { setF obStatusReady 0 0 s with ob.restarting := true, ob.lastRestart := some (cpTime s) }

theorem cpRestart_restarts (hrun : s.ob.restarting = false) (hready : flagSet s obStatusReady 0 = true) :
    cpRestart s =
      if s.ob.lastRestart.all (fun t => 1000000000 ≤ cpTime s - t) then restarts s else packageStops 1 7 (restarts s) := by
  simp only [cpRestart, hrun, hready, Bool.not_true, Bool.or_self, Bool.false_eq_true, if_false]
  cases s.ob.lastRestart with
  | none => rfl
  | some t =>
    by_cases h : cpTime s - t < 1000000000
    · simp only [h, decide_true, if_true, Option.all_some, Nat.not_le.mpr h, decide_false, Bool.false_eq_true, if_false]
      rfl
    · simp only [h, decide_false, Bool.false_eq_true, if_false, Option.all_some, Nat.not_lt.mp h, decide_true, if_true]
      rfl

/-- An INVALIDATE in progress begins again from its first step: every unit in service is to report. -/
def invalAgain (s : State) : State :=
  match s.xl.inval with
  | some r => if r.cmd.isSome then { s with xl.inval := some { r with await := unitsUp s } } else s
  | none => s

/-- The commands that a restart ends. -/
def endedByRestart (s u : State) : List Nat := (u.ob.openCmds.filter (fun o => !outlives s o)).map (·.id)

theorem cpRestarted_ends (hrun : s.ob.restarting = true) (hdue : s.start.due = none) :
    let u := prefetchStops (endFailed 0x0A55 0) (invalAgain s)
    let v := (endedByRestart s u).foldl (fun t i => endById i (endFailed 0x0A55 0) t) (forgetCmds (endedByRestart s u) u)
    cpRestarted s = raise flReStatusCpRestart 0 (setF obStatusReady 0 1 { v with ob.restarting := false }) :=
  if_neg (by rw [hrun, hdue]; exact Bool.false_ne_true)

end Sys2Proof.Machine

namespace Sys2Proof

open Sys2Proof.Machine

/-- An effect of the control processor while the west I/O die takes steps. -/
theorem served_west {f : State → State} {s u : State} (hr : DieRuns s 26) (h : f s = u) :
    served s (if moduleRuns s && dieUp s 26 then f s else s) = .next (left s u) :=
  served_eq hr.1.1 ((if_pos (by rw [hr.1.2, hr.2]; rfl)).trans h)

/-- A fault and an expired watchdog have one effect. -/
theorem exec_restart {i : Instr} {s u : State} (hi : i ∈ [Instr.cpFault, .cpWatchdogExpire]) (hr : DieRuns s 26) (h : cpRestart s = u) :
    exec i s = .next (left s u) := by
  simp only [List.mem_cons, List.not_mem_nil, or_false] at hi
  rcases hi with rfl | rfl
  · exact served_west hr h
  · exact served_west hr h

/-- Settles O28: what each door gives, and what a restart leaves. -/
theorem doorsAndRestart : Obligations.DoorsAndRestart := by
  intro s hp
  refine ⟨?fetch, ?go, ?goFails, ?visible, ?lark, ?again, ?first, ?second, ?done⟩
  case fetch =>
    intro host ws q n t door u ⟨hready, hlark⟩ hnext hhead ⟨hlimits, hrecords⟩ hshape
    exact served_eq hp ((sqEntryFetch_takes hready hlark hnext).trans (takeHead_accepts hhead hlimits hrecords hshape))
  case go => exact fun k hready hwaits hpasses => served_eq hp ((larkGo_waiting hready hwaits).trans (if_pos hpasses))
  case goFails =>
    exact fun k hready hwaits hfails => served_eq hp ((larkGo_waiting hready hwaits).trans (if_neg (ne_true_of_eq_false hfails)))
  case visible =>
    intro q host v k t again hready hreads hentry
    exact served_eq hp ((entryReread_ready hready (.sq q) host).trans (rereadQueue_visible hreads hentry))
  case lark =>
    intro k host l hready ⟨hbusy, htaken, hreads⟩ hpasses
    exact served_eq hp ((entryReread_ready hready (.lark k) host).trans (rereadLark_visible hbusy htaken hreads hpasses))
  case again =>
    intro q host k t hready hreads hentry
    exact served_eq hp ((entryReread_ready hready (.sq q) host).trans (rereadQueue_again hreads hentry))
  case first =>
    intro i e t hi hr ⟨hrun, hready⟩ hlong
    exact exec_restart hi hr ((cpRestart_restarts hrun hready).trans (if_pos hlong))
  case second =>
    intro i last e t hi hr ⟨hrun, hready⟩ hlast hsoon
    have hshort : ¬ (s.ob.lastRestart.all (fun t => 1000000000 ≤ cpTime s - t) = true) := by
      rw [hlast, Option.all_some, decide_eq_true_eq]
      omega
    exact exec_restart hi hr ((cpRestart_restarts hrun hready).trans (if_neg hshort))
  case done =>
    intro t u ids v hr ⟨hrun, hdue⟩
    exact served_west hr (cpRestarted_ends hrun hdue)

end Sys2Proof
end

section
/-! PROOFS. The host link: retrained, lost, its reads completed, its power states; then O29. -/
namespace Sys2Proof.Machine

variable {s : State}

theorem linkRetrain_runs {speed width : Nat} (hup : flagSet s hlStatusLinkUp 0 = true) (hspeed : speed ≠ 0)
    (hcap : speed ≤ capSpeed s) (hwidth : widthOk width = true) :
    linkRetrain speed width s = linkRuns speed width (bump hlCountsRetrains 0 1 s) := by
  simp [linkRetrain, hup, hspeed, Nat.not_lt.mpr hcap, hwidth]

/-- A loss that resets the configuration leaves the endpoint as it is before enumeration (R381, R383). -/
def configLost (configReset : Bool) (t : State) : State :=
  if configReset then setF hlStatusBme 0 0
    { t with link.msixEn := false, link.msix := [], link.pba := [], link.dState := 0, link.fn := {}, link.rpCfg := [] }
  else t

/-- The link is down and its epoch is over. -/
def linkFallen (s : State) : State :=
  raise flHlStatusHostLost 0 (bump hlStatusLinkEpoch 0 1
    { setF hlStatusSpeed 0 0 (setF hlStatusWidth 0 0 (setF hlStatusLinkUp 0 0 s)) with link.heldOut := [] })

/-- The loss of a link that was up ends what used it, in the order of R381. -/
theorem linkLoss_ends (hup : flagSet s hlStatusLinkUp 0 = true) (configReset : Bool) :
    let d := linkFallen s
    let used := (d.copies.recs.filter (copyUsesHost d)).map (·.id)
    let a := homesLinkLost ((d.link.reads.map (·.1)).foldl (fun t tag => readReturns tag (0, true) 0x0830 t) d)
    let b := prefetchStops (endFailed 0x0217 0) (used.foldl (fun t i => copyEnds i 0x0830 t) a)
    let c := netHostLost (stilesHostLost (collsFail (fun c => (c.src ++ c.dst).any (fun r => isHostWin r.2.1 r.2.2)) 0x0830 b))
    linkLoss configReset s = configLost configReset (stopHostRings c) := by
  simp only [linkLoss, hup, Bool.not_true, Bool.false_eq_true, if_false, linkFallen, configLost]

section
variable {tag : Nat} (hout : tget s.link.reads tag ≠ none)
include hout

theorem readCompletion_outstanding (v : Nat) (refused : Bool) :
    readCompletion tag v refused s =
      if refused then readReturns tag (0, true) 0x0820 (raise flHlStatusPeerRefused 0 s) else readReturns tag (v, false) 0 s :=
  if_neg (mt Option.isNone_iff_eq_none.mp hout)

theorem readTimeout_outstanding :
    readTimeout tag s = readReturns tag (0, true) 0x0821 (raise flHlStatusCplTimeout 0 s) :=
  if_neg (mt Option.isNone_iff_eq_none.mp hout)

end

theorem powerState_endpoint (hrole : selfHosted s = false) (hup : flagSet s hlStatusLinkUp 0 = true) (d3 : Bool) :
    powerState d3 s = if d3 then { s with link.dState := 3 }
      else msixFlush (retryHeld { s with link.dState := 0, hostOut := s.link.heldOut ++ s.hostOut, link.heldOut := [] }) :=
  if_neg (by rw [hrole, hup]; exact Bool.false_ne_true)

end Sys2Proof.Machine

namespace Sys2Proof

open Sys2Proof.Machine

/-- Settles O29: each event of the link's controller under its conditions. -/
theorem hostLinkEvents : Obligations.HostLinkEvents := by
  intro s hl
  refine ⟨?up, ?retrain, ?loss, ?completes, ?refused, ?late, ?vector, ?enable, ?master, ?sleeps, ?wakes⟩
  case up =>
    exact fun speed width hdown ⟨hspeed, hcap, hwidth⟩ => onLink_leaves hl (linkUp_comes hdown hl.2 hspeed hcap hwidth)
  case retrain =>
    exact fun speed width hup ⟨hspeed, hcap, hwidth⟩ => onLink_leaves hl (linkRetrain_runs hup hspeed hcap hwidth)
  case loss =>
    intro fullReset d used a b c t hup hdie
    have hlost : linkLoss fullReset s = configLost fullReset t := linkLoss_ends hup fullReset
    clear_value t
    exact happens_leaves hl.1 ((if_pos hdie).trans hlost)
  case completes => exact fun tag val hout => onLink_leaves hl (readCompletion_outstanding hout val false)
  case refused => exact fun tag val hout => onLink_leaves hl (readCompletion_outstanding hout val true)
  case late => exact fun tag hout => onLink_leaves hl (readTimeout_outstanding hout)
  case vector => exact fun v hrole => onLink_leaves hl (msixAct_endpoint hrole (.vector v))
  case enable => exact fun hrole => onLink_leaves hl (msixAct_endpoint hrole .enable)
  case master => exact fun hrole => onLink_leaves hl (msixAct_endpoint hrole .busMaster)
  case sleeps => exact fun ⟨hrole, hup⟩ => onLink_leaves hl (powerState_endpoint hrole hup true)
  case wakes =>
    intro t ⟨hrole, hup⟩
    exact onLink_leaves hl (powerState_endpoint hrole hup false)

end Sys2Proof
end

section
/-! PROOFS. Commands that configure queues and read or write registers and configuration items; then O13. -/
namespace Sys2Proof.Machine

variable {oc : OpenCmd} {s : State}

/-! ## Queues (R407) -/

theorem checkedShowing_passes {codes : List (Option Nat)} (h : NoneFails codes) (r : Reg) (u : Nat) (s : State) (go : Body) :
    checkedShowing codes r u s go = go :=
  if_neg (by rw [h]; exact Bool.false_ne_true)

section
variable {ws : List W64} (hws : oc.words = ws) (hen : wordBits ws 2 16 16 = 1)
include hws hen

/-- A submission queue that is not enabled is set up: empty, from the HEAD given, and running. -/
theorem sqConfigBody_enables {q d : Nat} (hq : wordBits ws 2 7 0 = q) (hd : wordBits ws 2 11 8 = d)
    (hoff : getF s sqStateState q = 0) (hcodes : NoneFails (ringCodes s 0 q (wordAt ws 1) d 64)) :
    let x : SubQ := { base := wordAt ws 1 }
    let head := wordBits ws 3 15 0
    let w := setF sqStateState q 1 (setF sqStateTail q head (setF sqStateHead q head (setF sqStateDepthLog2 q d
      (setF sqStatePrio q (wordBits ws 2 13 12) { s with ob.sq := tput s.ob.sq q x }))))
    sqConfigBody oc s = .ends (endDone (regRead w .sqState q) 0) w := by
  subst hws hq hd
  simp only [sqConfigBody, hoff, hen, checkedShowing_passes hcodes, BEq.rfl, Bool.not_true, Bool.false_eq_true, if_true, if_false]

theorem cqConfigBody_enables (hoff : flagSet s cqStateEn (wordBits ws 2 5 0) = false)
    (hcodes : NoneFails (ringCodes s 1 (wordBits ws 2 5 0) (wordAt ws 1) (wordBits ws 2 11 8) 32)) :
    let q := wordBits ws 2 5 0
    let w := cqStart q (wordAt ws 1) (wordBits ws 2 11 8) s
    cqConfigBody oc s = .ends (endDone (regRead w .cqState q) 0) w := by
  subst hws
  simp only [cqConfigBody, hoff, hen, checkedShowing_passes hcodes, BEq.rfl, Bool.not_true, Bool.not_false, Bool.false_eq_true,
    if_true, if_false]

theorem eqConfigBody_enables (hoff : flagSet s eqStateEn 0 = false)
    (hcodes : NoneFails (ringCodes s 2 0 (wordAt ws 1) (wordBits ws 2 11 8) 64)) :
    let w := eqStart (wordAt ws 1) (wordBits ws 2 11 8) s
    eqConfigBody oc s = .ends (endDone (regRead w .eqState 0) 0) w := by
  subst hws
  simp only [eqConfigBody, hoff, hen, checkedShowing_passes hcodes, BEq.rfl, Bool.not_true, Bool.not_false, Bool.false_eq_true,
    if_true, if_false]

end

/-! ## Registers and configuration items (R405, R406) -/

theorem regReadBody_reads {r : Reg} (hr : regOfWord oc.words = some r) :
    regReadBody oc s =
      .ends (endReg s r (wordBits oc.words 1 31 16)) (readClears r (wordBits oc.words 1 31 16) s) := by
  simp only [regReadBody, hr]

theorem regApply_evRoute (u v m : Nat) (s : State) :
    regApply .evRoute u v m s = retryHeld (setRegRaw .evRoute u (merged .evRoute (regRaw s .evRoute u) v m) s) := rfl

theorem regApply_hayCtrl {m : Nat} (hasks : m &&& fieldMask .hayCtrl requestable ≠ 0) (u v : Nat) (s : State) :
    regApply .hayCtrl u v m s = hayCtrlApply u (merged .hayCtrl (regRaw s .hayCtrl u) v m) s :=
  if_pos (bne_iff_ne.mpr hasks)

/-- One check that does not fail. -/
theorem noneFails_single {b : Bool} (h : b = false) (code : Nat) : NoneFails [failIf b code] := by rw [h]; rfl

theorem cfgReadBody_reads {v : Nat} (hv : cfgValue s (wordBits oc.words 1 15 0) = some v) :
    cfgReadBody oc s = .ends (endDone v 0) s := by
  simp only [cfgReadBody, hv]

/-- An item that may take the value is written to flash, where no write is under way. -/
theorem cfgWriteBody_begins (hitem : (cfgValue s (wordBits oc.words 1 15 0)).isSome = true)
    (hcode : cfgCode (wordBits oc.words 1 15 0) (wordAt oc.words 2) = none) (hidle : s.sec.writing = none) :
    cfgWriteBody oc s =
      .runs { s with sec.writing := some (.config oc.id (wordBits oc.words 1 15 0) (wordAt oc.words 2)) } := by
  obtain ⟨v, hv⟩ := Option.isSome_iff_exists.mp hitem
  simp only [cfgWriteBody, hv, hcode, hidle, Option.isSome_none, Bool.false_eq_true, if_false]

end Sys2Proof.Machine

namespace Sys2Proof

open Sys2Proof.Machine

/-- A write of one register that passes its checks leaves the register as `regApply` does. -/
theorem regWrite_leaves {r : Reg} {c : Cmd} {s w : State} (h : Accepts 0x09 c s) (hn : NamesReg r c)
    (hc : NoneFails (writeCodes (startedAt c s) r (wordBits c.words 1 31 16) (regRaw (startedAt c s) r (wordBits c.words 1 31 16))
      (writtenBy r c (startedAt c s)) (wordAt c.words 2) (wordAt c.words 3 % 2 ^ min 64 (regWidth r))))
    (hw : regApply r (wordBits c.words 1 31 16) (wordAt c.words 2) (wordAt c.words 3 % 2 ^ min 64 (regWidth r)) (startedAt c s) = w) :
    served s (doRegWriteOf r c s) = .next (left s (endCmd (openOf c s) (endReg w r (wordBits c.words 1 31 16)) w)) := by
  subst hw
  exact served_eq h.1 (regWrite_accepts h rfl hn hc)

/-- Settles O13: each command is accepted and its checks pass, so it ends with what its body leaves. -/
theorem queueAndRegisterCommands : Obligations.QueueAndRegisterCommands := by
  intro s c t oc
  refine ⟨?nop, ?query, ?sq, ?cq, ?eq, ?regRead, ?regWrite, ?evRoute, ?hayCtrl, ?coCtrl, ?atCtrl, ?obCtrl, ?mgCtrl, ?inwin,
    ?cfgRead, ?cfgWrite⟩
  case nop => exact fun h => accepted_ends h rfl
  case query => exact fun h => accepted_ends h rfl
  case sq =>
    intro q d x u v w h hen ⟨hoff, hcodes⟩
    have hb : sqConfigBody oc t = .ends (endDone (regRead w .sqState q) 0) w := 
      sqConfigBody_enables (openOf_words c s _) hen rfl rfl hoff hcodes
    exact accepted_ends h hb
  case cq =>
    intro q d w h hen ⟨hoff, hcodes⟩
    exact accepted_ends h (cqConfigBody_enables (openOf_words c s _) hen hoff hcodes)
  case eq =>
    intro d w h hen ⟨hoff, hcodes⟩
    exact accepted_ends h (eqConfigBody_enables (openOf_words c s _) hen hoff hcodes)
  case regRead => exact fun r h hr => accepted_ends h (regReadBody_reads hr)
  case regWrite =>
    intro r n m w h hn hcodes
    exact accepted_ends h (regWriteBody_writes hn hcodes)
  case evRoute =>
    intro n v w h hn hcode
    exact regWrite_leaves h hn (show NoneFails [evRouteCode _ _ _] by rw [hcode]; rfl) (regApply_evRoute ..)
  case hayCtrl =>
    intro n v w h hn hcode hasks
    have hcodes : NoneFails (writeCodes t .hayCtrl n (regRaw t .hayCtrl n) v (wordAt c.words 2)
        (wordAt c.words 3 % 2 ^ min 64 (regWidth .hayCtrl))) := by
      have hlist : writeCodes t .hayCtrl n (regRaw t .hayCtrl n) v (wordAt c.words 2) (wordAt c.words 3 % 2 ^ min 64 (regWidth .hayCtrl)) =
          [hayCtrlCheck n v t] := if_pos (bne_iff_ne.mpr hasks)
      rw [hlist, hcode]
      rfl
    exact regWrite_leaves h hn hcodes (regApply_hayCtrl hasks ..)
  case coCtrl =>
    intro n v w h hn hbits htest
    refine regWrite_leaves h hn (noneFails_single ?_ 0x0526) (regApply_plain (by simp) ..)
    rw [beq_eq_false_iff_ne.mpr hbits, Bool.and_false, Bool.false_or]
    exact htest
  case atCtrl =>
    intro n v w h hn hbits
    refine regWrite_leaves h hn (noneFails_single ?_ 0x0218) (regApply_plain (by simp) ..)
    rw [beq_eq_false_iff_ne.mpr hbits, Bool.and_false]
  case obCtrl =>
    intro n v w h hn hbits
    exact regWrite_leaves h hn (noneFails_single (beq_eq_false_iff_ne.mpr hbits) 0x010A) (regApply_plain (by simp) ..)
  case mgCtrl =>
    intro n v w h hn hbits
    exact regWrite_leaves h hn (noneFails_single (beq_eq_false_iff_ne.mpr hbits) 0x0A64) (regApply_plain (by simp) ..)
  case inwin =>
    intro n v w h hn hcode
    exact regWrite_leaves h hn (show NoneFails [inwinCode _ _] by rw [hcode]; rfl) (regApply_plain (by simp) ..)
  case cfgRead => exact fun v h hv => accepted_ends h (cfgReadBody_reads hv)
  case cfgWrite =>
    intro k v h ⟨hitem, hcode, hidle⟩
    exact accepted_runs h (cfgWriteBody_begins hitem hcode hidle)

end Sys2Proof
end

section
/-! PROOFS. Commands of the tensor fabric: what each body comes to where its checks pass; then O25. -/
namespace Sys2Proof.Machine

variable {oc : OpenCmd} {s : State}

/-! ## Partitions and plane swaps (R423, R432) -/

theorem partCreateBody_enters (hbox : partBad oc.words s = false) (hstrap : flagSet s tfPosStrapValid 0 = true) :
    partCreateBody oc s = .runs (enterBarrier oc.id (askedPart oc.words s).id (membersOf (askedPart oc.words s) (some (sparePlane s)))
      (setFences (setPos (some (askedPart oc.words s)) { s with fab.part := some (askedPart oc.words s) }))) :=
  checked_passes (by rw [hbox, hstrap]; rfl) _ _

/-- A plane of the partition that is up can be swapped for the spare. -/
theorem spareSwapBody_swaps {p : Partition} {f : Nat} (hf : wordBits oc.words 1 3 0 = f) (hpart : s.fab.part = some p)
    (hwhole : p.whole = true) (hne : f ≠ sparePlane s) (hin : p.planeOf.contains f = true) (hup : flagSet s tfPosPartUp 0 = true) :
    spareSwapBody oc s =
      if s.fab.barrier.isSome then .runs (notYet oc.id s)
      else if ownPlane s = f then .ends (endDone 0 0) (fenceAll (swapPlanes f p s))
      else .runs (enterBarrier oc.id p.id (membersOf (swappedPart f p s) none) (swapPlanes f p s)) := by
  subst hf
  have hswaps : (!p.whole || wordBits oc.words 1 3 0 == sparePlane s || !p.planeOf.contains (wordBits oc.words 1 3 0) ||
      !flagSet s tfPosPartUp 0) = false := by
    rw [hwhole, beq_eq_false_iff_ne.mpr hne, hin, hup]
    rfl
  simp only [spareSwapBody, hpart, hswaps, Bool.false_eq_true, if_false]

/-! ## Ports (R430, R437) -/

/-- What an action of PORT_CTRL does at a port that no other PORT_CTRL holds: retrain, disable, enable, lane test. -/
def portAction (action p id : Nat) (s : State) : Body :=
  match action with
  | 0 => if flagSet s tfPortStatusDisabled p then .ends (endDone 0 0) s
    else .runs (fabPortMod p (fun x => { x with cmd := some id }) (portFalls p s))
  | 1 => .ends (endDone 0 0) (setF tfPortStatusFenced p 1 (setF tfPortStatusDisabled p 1 (portFalls p s)))
  | 2 => .runs (fabPortMod p (fun x => { x with cmd := some id, bad := 0 }) (setF tfPortStatusDisabled p 0 s))
  | _ =>
    if !portUp s p then .ends (endDone 0 0) s
    else .runs ((List.range 10).foldl (fun t l => laneError p l t) (fabPortMod p (fun x => { x with cmd := some id }) s))

section
variable {p : Nat} (hp : wordBits oc.words 1 3 0 = p)
include hp

theorem portCtrlBody_waits (hheld : (fabPort s p).cmd.isSome = true) : portCtrlBody oc s = .runs (notYet oc.id s) := by
  subst hp
  exact if_pos hheld

theorem portCtrlBody_acts {action : Nat} (hact : wordBits oc.words 1 5 4 = action) (hfree : (fabPort s p).cmd = none) :
    portCtrlBody oc s = portAction action p oc.id s := by
  subst hp hact
  simp only [portCtrlBody, hfree, Option.isSome_none, Bool.false_eq_true, if_false]
  rfl

/-- On a port outside the partition a pattern runs, or waits for the one that runs there. -/
theorem patternBody_runs (hout : portInPart s p = false) :
    patternBody oc s = .runs (if (fabPort s p).pattern.isSome then notYet oc.id s
      else fabPortMod p (fun x => { x with pattern := some oc.id }) s) := by
  subst hp
  simp only [patternBody, hout, Bool.false_eq_true, if_false]
  exact (apply_ite Body.runs _ _ _).symm

end

/-! ## Collectives (R434) -/

/-- The access by which a collective's engine reads its source; its destination's is a write. -/
def collAccess (oc : OpenCmd) : XAcc := { unit := 8, agent := 2, va := wordAt oc.words 1, r := true, who := .cmd oc.id }

/-- A collective whose fields are right and whose bytes are all mapped enters. -/
theorem collBody_enters {src dst : List (Nat × Nat × Nat)} {u v : State} {sizes : Nat × Nat} (hfields : collBad oc.words s = false)
    (hrank : rankOk s (getF s tfPosRank 0) = true)
    (hsizes : collSizes (wordAt oc.words 4) (wordAt oc.words 3)
      (groupRanks (wordAt oc.words 4) ((s.fab.part.map (·.planes)).getD 1) (getF s tfPosRank 0)).length (getF s tfPosRank 0) = sizes)
    (hsrc : readOrCode (some oc.epoch) (translateRange (collAccess oc) sizes.1 s) = (.runs src, u))
    (hdst : runsOrCode (some oc.epoch)
      (translateRange { collAccess oc with va := wordAt oc.words 2, r := false, w := true } sizes.2 u) = (.runs dst, v)) :
    collBody oc s = .runs (collEnter oc src dst v) := by
  unfold collAccess at hsrc hdst
  simp only [collBody, hfields, hrank, hsizes, hsrc, hdst, Bool.not_true, Bool.false_eq_true, if_false]

end Sys2Proof.Machine

namespace Sys2Proof

open Sys2Proof.Machine

section
variable {c : Cmd} {s : State} (h : Accepts 0x73 c s)
include h

/-- An accepted PORT_CTRL runs as the row of its action. -/
theorem portCtrl_runs {action : Nat} {u : State} (hact : wordBits c.words 1 5 4 = action)
    (hb : portCtrlBody (openOf c s) (startedAt c s) = .runs u) : served s (doPortCtrl action c s) = .next (left s u) :=
  row_runs h (beq_iff_eq.mpr hact) hb

theorem portCtrl_ends {action : Nat} {e : CmdEnd} {u : State} (hact : wordBits c.words 1 5 4 = action)
    (hb : portCtrlBody (openOf c s) (startedAt c s) = .ends e u) :
    served s (doPortCtrl action c s) = .next (left s (endCmd (openOf c s) e u)) :=
  row_ends h (beq_iff_eq.mpr hact) hb

end

/-- An accepted collective runs as the row of its operation. -/
theorem coll_runs {c : Cmd} {s u : State} {op : Nat} (h : Accepts 0x74 c s (ownRecord c.door c.words) collGate)
    (hop : clOp (wordAt c.words 4) = op) (hb : collBody (openOf c s) (startedAt c s) = .runs u) :
    served s (doColl op c s) = .next (left s u) :=
  row_runs h (by rw [hop, BEq.rfl, Bool.true_or]) hb

/-- Settles O25: each command is accepted and its checks pass, so it leaves what its body comes to. -/
theorem fabricCommands : Obligations.FabricCommands := by
  intro s c t oc
  refine ⟨?create, ?destroy, ?swap, ?swapOwn, ?swapWaits, ?retrain, ?disable, ?enable, ?test, ?portWaits, ?coll, ?pattern,
    ?patternWaits⟩
  case create =>
    intro p u h ⟨hbox, hstrap⟩
    exact accepted_runs h (partCreateBody_enters hbox hstrap)
  case destroy => exact fun h => accepted_ends h rfl
  case swap =>
    intro p f h hpart ⟨hwhole, hne, hin, hup, hfree⟩ hother
    have hb := spareSwapBody_swaps (oc := oc) (f := f) rfl hpart hwhole hne hin hup
    rw [hfree, Option.isSome_none, if_neg Bool.false_ne_true, if_neg hother] at hb
    exact accepted_runs h hb
  case swapOwn =>
    intro p f h hpart ⟨hwhole, hne, hin, hup, hfree⟩ hown
    have hb := spareSwapBody_swaps (oc := oc) (f := f) rfl hpart hwhole hne hin hup
    rw [hfree, Option.isSome_none, if_neg Bool.false_ne_true, if_pos hown] at hb
    exact accepted_ends h hb
  case swapWaits =>
    intro p f h hpart ⟨hwhole, hne, hin, hup, hheld⟩
    have hb := spareSwapBody_swaps (oc := oc) (f := f) rfl hpart hwhole hne hin hup
    rw [if_pos (Option.isSome_iff_ne_none.mpr hheld)] at hb
    exact accepted_runs h hb
  case retrain =>
    intro p h ⟨hact, hfree⟩ hon
    exact portCtrl_runs h hact ((portCtrlBody_acts (oc := oc) (p := p) rfl hact hfree).trans (if_neg (ne_true_of_eq_false hon)))
  case disable =>
    intro p h ⟨hact, hfree⟩
    exact portCtrl_ends h hact (portCtrlBody_acts (oc := oc) (p := p) rfl hact hfree)
  case enable =>
    intro p h ⟨hact, hfree⟩
    exact portCtrl_runs h hact (portCtrlBody_acts (oc := oc) (p := p) rfl hact hfree)
  case test =>
    intro p h ⟨hact, hfree⟩ hup
    exact portCtrl_runs h hact ((portCtrlBody_acts (oc := oc) (p := p) rfl hact hfree).trans (if_neg (by rw [hup]; exact Bool.false_ne_true)))
  case portWaits =>
    intro i p hrow h hheld
    have hb := portCtrlBody_waits (oc := oc) (p := p) rfl hheld
    simp only [List.mem_cons, List.not_mem_nil, or_false, Prod.mk.injEq] at hrow
    rcases hrow with ⟨hact, rfl⟩ | ⟨hact, rfl⟩ | ⟨hact, rfl⟩ | ⟨hact, rfl⟩
    · exact portCtrl_runs h hact hb
    · exact portCtrl_runs h hact hb
    · exact portCtrl_runs h hact hb
    · exact portCtrl_runs h hact hb
  case coll =>
    intro i src dst u v w r g sizes a hrow h ⟨hfields, hrank⟩ hsrc hdst
    have hb : collBody oc t = .runs (collEnter oc src dst v) := collBody_enters hfields hrank rfl hsrc hdst
    simp only [List.mem_cons, List.not_mem_nil, or_false, Prod.mk.injEq] at hrow
    rcases hrow with ⟨hop, rfl⟩ | ⟨hop, rfl⟩ | ⟨hop, rfl⟩ | ⟨hop, rfl⟩ | ⟨hop, rfl⟩
    · exact coll_runs h hop hb
    · exact coll_runs h hop hb
    · exact coll_runs h hop hb
    · exact coll_runs h hop hb
    · exact coll_runs h hop hb
  case pattern =>
    intro p h ⟨_, hout, hfree⟩
    have hb := patternBody_runs (oc := oc) (p := p) rfl hout
    rw [hfree, Option.isSome_none, if_neg Bool.false_ne_true] at hb
    exact accepted_runs h hb
  case patternWaits =>
    intro p h ⟨hout, hheld⟩
    have hb := patternBody_runs (oc := oc) (p := p) rfl hout
    rw [if_pos hheld] at hb
    exact accepted_runs h hb

end Sys2Proof
end

section
/-! PROOFS. Events of the tensor fabric: ports, barriers, collectives, bursts, lanes; then O31. -/
namespace Sys2Proof.Machine

variable {s : State} {p : Nat}

/-! ## Ports (R419, R430) -/

/-- What a port that has trained knows: the partition its neighbour carries, its width and its lanes. -/
def portTrained (p part width lanes : Nat) (s : State) : State :=
  setF tfPortStatusLanesUsed p lanes (setF tfPortStatusWidth p width
    (fabPortMod p (fun x => { x with nbrPart := part, failed := false }) (sendHello p s)))

/-- A link trained on 8 lanes or more with the neighbour its straps name comes up at full width, fenced where no partition is up. -/
theorem linkTrained_full {n : LinkIdent} {lanes : Nat} (hstrap : flagSet s tfPosStrapValid 0 = true) (hrec : inRecovery s = false)
    (hon : flagSet s tfPortStatusDisabled p = false) (hdie : dieUp s (26 + p / 8) = true)
    (hlanes : 8 ≤ popCount (lanes &&& (1023 - (fabPort s p).bad)) 10)
    (hn : n.heath = getF s tfPosHeathId 0 ∧ (n.plane, n.y, n.z) = neighbour s p ∧ n.spare = sparePlane s)
    (hpart : s.fab.part = none) :
    linkTrained p true n lanes s = portCmdEnds p (resendBursts (setF tfPortStatusFenced p 1
      (portTrained p n.part 2 (lowLanes (lanes &&& (1023 - (fabPort s p).bad)) 8) s))) := by
  obtain ⟨hheath, hplace, hspare⟩ := hn
  have htrains : (!flagSet s tfPosStrapValid 0 || inRecovery s || flagSet s tfPortStatusDisabled p || !dieUp s (26 + p / 8)) = false := by
    rw [hstrap, hrec, hon, hdie]
    rfl
  have henough : (!true || decide (popCount (lanes &&& (1023 - (fabPort s p).bad)) 10 < 4)) = false := by
    simp only [Bool.not_true, Bool.false_or, decide_eq_false_iff_not]
    omega
  have hwired : (n.heath != getF (sendHello p s) tfPosHeathId 0 || (n.plane, n.y, n.z) != neighbour (sendHello p s) p ||
      n.spare != sparePlane (sendHello p s)) = false := by
    simp only [Bool.or_eq_false_iff, bne_eq_false_iff_eq]
    exact ⟨⟨hheath, hplace⟩, hspare⟩
  have hpart' : ∀ x w, (setF tfPortStatusLanesUsed p x (setF tfPortStatusWidth p w
      (fabPortMod p (fun x => { x with nbrPart := n.part, failed := false }) (sendHello p s)))).fab.part = none := fun _ _ => hpart
  simp only [linkTrained, htrains, henough, hwired, hlanes, hpart', Bool.false_eq_true, if_false, if_true]
  rfl

theorem laneError_tests {l : Nat} (hup : portUp s p = true) (hused : (getF s tfPortStatusLanesUsed p).testBit l = true)
    (hnew : (fabPort s p).testing ≠ some l) :
    laneError p l s =
      fabPortMod p (fun x => if x.testing.isNone then { x with testing := some l } else { x with toTest := setAdd x.toTest l }) s :=
  if_pos (by rw [hup, hused, bne_iff_ne.mpr hnew]; rfl)

/-- The lane tested: counted, and the port tests none for now. -/
def laneTested (p : Nat) (s : State) : State := bump reCountsTests 0 1 (fabPortMod p (fun x => { x with testing := none }) s)

/-- After a lane's test the next is tested, or PORT_CTRL ends. -/
def afterLane (p : Nat) (u : State) : State := if (fabPort u p).testing.isNone then portCmdEnds p u else u

section
variable {l : Nat} (htesting : (fabPort s p).testing = some l)
include htesting

theorem laneTestDone_fails : laneTestDone p false s = afterLane p (nextLane p (laneFails p l false (laneTested p s))) := by
  simp only [laneTestDone, htesting, Bool.not_false, if_true]
  rfl

/-- A lane that passes has a transient verdict, which is kept. -/
theorem laneTestDone_passes
    (hfew : recentTransients (laneTested p s) lvPackage (26 + p / 8) (p * 16 + l + 1) 0x05 < 2) :
    let t := laneTested p s
    let place := (lvPackage, 26 + p / 8, p * 16 + l + 1, 0x05, (cpTime t : Int))
    laneTestDone p true s =
      afterLane p (nextLane p (bump reCountsTransient 0 1 { t with err.hist := place :: t.err.hist })) := by
  intro t place
  have hcounts : countsTransient lvPackage (26 + p / 8) (p * 16 + l + 1) 0x05 t =
      (true, { t with err.hist := place :: t.err.hist }) :=
    if_neg (Nat.not_le.mpr hfew)
  have hbump : bump reCountsTests 0 1 (fabPortMod p (fun x => { x with testing := none }) s) = t := rfl
  simp only [laneTestDone, htesting, Bool.not_true, Bool.false_eq_true, if_false, hbump, hcounts]
  rfl

end

theorem patternDone_ends {lane errors bits id : Nat} (hpattern : (fabPort s p).pattern = some id) :
    patternDone p lane errors bits s =
      endById id (endDone (lane % 16 + errors % 2 ^ 56 * 256) bits) (fabPortMod p (fun x => { x with pattern := none }) s) := by
  simp only [patternDone, hpattern]

/-! ## Partitions and peers (R423, R429) -/

theorem barrierMsg_counts {id member : Nat} {b : FabBarrier} {x : Partition} (hid : x.id = id)
    (hbarrier : (learnPart id member s).fab.barrier = some b) (hpart : (learnPart id member s).fab.part = some x) :
    barrierMsg id member s =
      barrierCheck { learnPart id member s with fab.barrier := some { b with got := setAdd b.got member } } := by
  simp only [barrierMsg, hbarrier, hpart, hid, if_true]

theorem barrierTimeout_ends {b : FabBarrier} (hbarrier : s.fab.barrier = some b) (hdown : flagSet s tfPosPartUp 0 = false) :
    barrierTimeout s = endById b.cmd (endFailed 0x0306 0) (partEnds 0x0322 s) := by
  simp only [barrierTimeout, hbarrier, hdown, Bool.false_eq_true, if_false]

/-! ## Collectives (R434) -/

section
variable {x : CollPart}

/-- A member's fields for a collective that failed here are dropped. -/
theorem collMsg_late (hlate : s.fab.lateColl.any (fun e => e.1 == clGroup (x.fields.getD 1 0) && e.2.contains x.rank) = true) :
    collMsg x s = { s with fab.lateColl := lateTaken (clGroup (x.fields.getD 1 0)) x.rank s.fab.lateColl } :=
  if_pos hlate

variable (hlate : s.fab.lateColl.any (fun e => e.1 == clGroup (x.fields.getD 1 0) && e.2.contains x.rank) = false)
include hlate

theorem collMsg_joins {k : CollRun}
    (hfound : s.fab.colls.find? (fun c => c.xgroup.isNone && clGroup (wordAt c.words 4) == clGroup (x.fields.getD 1 0) &&
      !c.parts.any (fun p => p.rank == x.rank)) = some k) :
    let c := { k with parts := k.parts ++ [x] }
    collMsg x s = collCheck c { s with fab.colls := s.fab.colls.map (fun y => if y.cmd == k.cmd then c else y) } := by
  simp only [collMsg, hlate, hfound, Bool.false_eq_true, if_false]

theorem collMsg_early
    (hnone : s.fab.colls.find? (fun c => c.xgroup.isNone && clGroup (wordAt c.words 4) == clGroup (x.fields.getD 1 0) &&
      !c.parts.any (fun p => p.rank == x.rank)) = none) :
    collMsg x s = { s with fab.earlyColl := s.fab.earlyColl ++ [x] } := by
  simp only [collMsg, hlate, hnone, Bool.false_eq_true, if_false]

end

/-! ## Bursts (R428) -/

section
variable {m rank seq va len val : Nat} {bad : List Nat} (hopen : burstFenced s rank = false)
include hopen

/-- A burst that has come before is acknowledged again and not applied. -/
theorem burstArrive_seen (hseen : s.fab.seen.contains (rank, seq) = true) :
    burstArrive m rank seq va len val bad s = { s with fabOut := .ack rank seq :: s.fabOut } := by
  simp only [burstArrive, hopen, hseen, Bool.false_eq_true, if_false, if_true]

theorem burstArrive_lands {rs : List (Nat × Nat × Nat)} {t : State} (hnew : s.fab.seen.contains (rank, seq) = false)
    (hruns : vruns { unit := m, agent := 5, va := va } va len { s with fab.seen := (rank, seq) :: s.fab.seen } = (.runs rs, t)) :
    burstArrive m rank seq va len val bad s =
      { vput m rs val bad t with fabOut := .ack rank seq :: (vput m rs val bad t).fabOut } := by
  simp only [burstArrive, hopen, hnew, remoteWrite, hruns, Bool.false_eq_true, if_false]

end

end Sys2Proof.Machine

namespace Sys2Proof

open Sys2Proof.Machine

theorem onPort_leaves {p : Nat} {f : State → State} {s u : State} (hr : DieRuns s (26 + p / 8)) (h : f s = u) :
    onPort p f s = .next (left s u) :=
  h ▸ onPort_up hr

theorem onFabric_leaves {f : State → State} {s u : State} (hr : Running s) (h : f s = u) : onFabric f s = .next (left s u) :=
  h ▸ onFabric_runs hr

/-- A burst arrives at a unit whose die takes steps. -/
theorem burst_leaves {u : UnitNo} {rank : Fin 128} {burst : Nat} {va : VA} {len val : Nat} {bad : List Nat} {s t : State}
    (hr : DieRuns s (dieOfXunit u)) (hu : 8 ≤ u.val) (h : burstArrive u rank burst va.toNat len val bad s = t) :
    exec (.fabricBurstArrive u rank burst va len val bad) s = .next (left s t) :=
  served_eq hr.1.1 ((if_pos (by rw [hr.1.2, hr.2, decide_eq_true hu]; rfl)).trans h)

/-- Settles O31: each event under its conditions. -/
theorem fabricEvents : Obligations.FabricEvents := by
  intro s
  refine ⟨?trained, ?down, ?barrier, ?timeout, ?joins, ?early, ?late, ?pattern, ?burst, ?again, ?ack, ?flit, ?peer, ?lane, ?fails,
    ?passes, ?replay⟩
  case trained =>
    intro p n lanes good t u hr ⟨hstrap, hrec, hon⟩ hlanes hn hpart
    exact onPort_leaves hr (linkTrained_full hstrap hrec hon hr.2 hlanes hn hpart)
  case down => exact fun p hr => onPort_leaves hr rfl
  case barrier =>
    intro part plane y z b p got t hr hid ⟨hbarrier, hpart⟩
    exact onFabric_leaves hr (barrierMsg_counts hid hbarrier hpart)
  case timeout => exact fun b hr hbarrier hdown => onFabric_leaves hr (barrierTimeout_ends hbarrier hdown)
  case joins =>
    intro rank fields val poison k x c all hr hlate hfound
    exact onFabric_leaves hr (collMsg_joins hlate hfound)
  case early =>
    intro rank fields val poison x hr hlate hnone
    exact onFabric_leaves hr (collMsg_early hlate hnone)
  case late =>
    intro rank fields val poison g hr hlate
    exact onFabric_leaves hr (collMsg_late hlate)
  case pattern => exact fun p lane errors bits id hr hpattern => onPort_leaves hr (patternDone_ends hpattern)
  case burst =>
    intro u rank burst va len val poisoned rs t r done ⟨hr, hu⟩ hopen hnew hruns
    exact burst_leaves hr hu (burstArrive_lands hopen hnew hruns)
  case again => exact fun u rank burst va len val poisoned ⟨hr, hu⟩ hopen hseen => burst_leaves hr hu (burstArrive_seen hopen hseen)
  case ack => exact fun rank burst hr => onFabric_leaves hr rfl
  case flit => exact fun p hr hfenced => onPort_leaves hr (if_pos hfenced)
  case peer =>
    intro rank unreachable code t hr hrank
    exact onFabric_leaves hr (if_neg (by rw [hrank]; exact Bool.false_ne_true))
  case lane => exact fun p lane hr ⟨hup, hused⟩ hnew => onPort_leaves hr (laneError_tests hup hused hnew)
  case fails =>
    intro p l t hr htesting
    exact onPort_leaves hr (laneTestDone_fails htesting)
  case passes =>
    intro p l t place hr htesting hfew
    exact onPort_leaves hr (laneTestDone_passes htesting hfew)
  case replay => exact fun p hr hup => onPort_leaves hr (if_pos hup)

end Sys2Proof
end

section
/-! PROOFS. Commands of the ordinary network: what each body comes to where its checks pass; then O26. -/
namespace Sys2Proof.Machine

variable {oc : OpenCmd} {s : State}

/-! ## Posts (R442–R444) -/

/-- The state in which a queue pair's post goes on port `p`. -/
def routedOn (q p : Nat) (s : State) : State := failoverBits (qpMod q (fun x => { x with now := p }) s)

/-- A NET_POST of the kind, as it is kept until it ends. -/
def postOf (oc : OpenCmd) (kind : Nat) : NetPost :=
  { cmd := oc.id, qp := wordBits oc.words 1 11 0, kind := kind, va := wordAt oc.words 2, len := wordAt oc.words 4 }

/-- The message of a post goes to the network and the post is kept. -/
def posted (oc : OpenCmd) (kind : Nat) (m : NetOut) (s : State) : State :=
  { netSend m s with net.posts := (netSend m s).net.posts ++ [postOf oc kind] }

/-- How a post's local bytes are read. -/
def postAccess (oc : OpenCmd) (p : Nat) : XAcc := { unit := unitOfEth p, agent := 6, va := wordAt oc.words 2, r := true }

/-- The message of a post that sends bytes: an RDMA write, or a send. -/
def postMessage (oc : OpenCmd) (kind v : Nat) : NetOut :=
  if kind = 1 then .rdmaWrite (wordBits oc.words 1 11 0) (wordAt oc.words 3) (wordAt oc.words 4) v
  else .send (wordBits oc.words 1 11 0) (wordAt oc.words 4) v

section
variable {p : Nat} (hen : (qpGet s (wordBits oc.words 1 11 0)).en = true) (hpath : qpPath s (wordBits oc.words 1 11 0) = some p)
include hen hpath

theorem netPostBody_reads (hkind : wordBits oc.words 1 17 16 = 0) :
    netPostBody oc s = .runs (posted oc 0 (.rdmaRead (wordBits oc.words 1 11 0) (wordAt oc.words 3) (wordAt oc.words 4))
      (routedOn (wordBits oc.words 1 11 0) p s)) := by
  have hok : ((0 : Nat) == 3 || !(qpGet s (wordBits oc.words 1 11 0)).en) = false := by rw [hen]; rfl
  simp only [netPostBody, hok, hpath, hkind, Bool.false_eq_true, if_false, if_true]
  rfl

theorem netPostBody_sends {kind : Nat} {rs : List (Nat × Nat × Nat)} {u : State} (hkind : wordBits oc.words 1 17 16 = kind)
    (hsends : kind = 1 ∨ kind = 2)
    (hread : readOrCode (some oc.epoch) (translateRange (postAccess oc p) (wordAt oc.words 4) (routedOn (wordBits oc.words 1 11 0) p s)) =
      (.runs rs, u))
    (hclean : (ioRead (unitOfEth p) rs u).2.1 = false) :
    netPostBody oc s =
      .runs (posted oc kind (postMessage oc kind (ioRead (unitOfEth p) rs u).1) (ioRead (unitOfEth p) rs u).2.2) := by
  have hne3 : kind ≠ 3 := by omega
  have hne0 : kind ≠ 0 := by omega
  have hok : (kind == 3 || !(qpGet s (wordBits oc.words 1 11 0)).en) = false := by
    rw [beq_eq_false_iff_ne.mpr hne3, hen]
    rfl
  unfold routedOn postAccess at hread
  simp only [netPostBody, hkind, hok, hpath, hne0, hread, hclean, Bool.false_eq_true, if_false]
  rfl

end

/-! ## Images (R448) -/

theorem imageFetchBody_asks (hsrc : wordBits oc.words 1 1 0 = 1) (hidle : s.net.fetch = none) :
    imageFetchBody oc s = .runs (netSend (manifestRead oc.words) { s with net.fetch := some { cmd := oc.id, words := oc.words } }) := by
  simp only [imageFetchBody, hsrc, hidle, Option.isSome_none, Bool.false_eq_true, if_false, if_true]
  rfl

/-- A manifest in memory is checked at once: a code, or the fetch runs. -/
def fetchOutcome (r : Option Nat × State) : Body := match r with
  | (some c, t) => .ends (endRefused c) t
  | (none, t) => .runs t

theorem imageFetchBody_checks {rs : List (Nat × Nat × Nat)} {u : State} (hsrc : wordBits oc.words 1 1 0 = 0) (hidle : s.net.fetch = none)
    (hread : readOrCode (some oc.epoch) (translateRange (cpAccess (wordAt oc.words 4) true false) (wordAt oc.words 2) s) = (.runs rs, u))
    (hclean : (ioRead 8 rs u).2.1 = false) :
    imageFetchBody oc s = fetchOutcome (fetchGo (leBytes (wordAt oc.words 2) (ioRead 8 rs u).1) oc (ioRead 8 rs u).2.2) := by
  have hmemory : ¬ 2 ≤ (0 : Nat) := by omega
  simp only [imageFetchBody, hsrc, hidle, hread, hclean, hmemory, Option.isSome_none, Bool.false_eq_true, if_false, Nat.zero_ne_one]
  rfl

/-! ## Groups (R452) -/

section
variable (hsize : wordBits oc.words 2 6 0 ≠ 0 ∧ wordBits oc.words 2 6 0 ≤ 64 ∧ wordBits oc.words 2 13 8 < wordBits oc.words 2 6 0)
include hsize

theorem xgroupBody_sized :
    (wordBits oc.words 2 6 0 == 0 || decide (64 < wordBits oc.words 2 6 0) ||
      decide (wordBits oc.words 2 6 0 ≤ wordBits oc.words 2 13 8)) = false := by
  obtain ⟨hsome, hfits, hown⟩ := hsize
  rw [beq_eq_false_iff_ne.mpr hsome, decide_eq_false (Nat.not_lt.mpr hfits), decide_eq_false (Nat.not_le.mpr hown)]
  rfl

theorem xgroupBody_waits (hopening : (tget s.net.groups (wordBits oc.words 1 31 0)).any (fun x => x.cmd.isSome) = true) :
    xgroupBody oc s = .runs (notYet oc.id s) := by
  simp only [xgroupBody, xgroupBody_sized hsize, hopening, Bool.false_eq_true, if_false, if_true]

theorem xgroupBody_opens {rs : List (Nat × Nat × Nat)} {u : State}
    (hfree : (tget s.net.groups (wordBits oc.words 1 31 0)).any (fun x => x.cmd.isSome) = false)
    (hread : readOrCode (some oc.epoch)
      (translateRange (cpAccess (wordAt oc.words 3) true false) (16 * wordBits oc.words 2 6 0) s) = (.runs rs, u))
    (hclean : (ioRead 8 rs u).2.1 = false) :
    xgroupBody oc s = .runs (groupOpened oc (ioRead 8 rs u).1 (ioRead 8 rs u).2.2) := by
  simp only [xgroupBody, xgroupBody_sized hsize, hfree, hread, hclean, Bool.false_eq_true, if_false]

end

/-! ## Collectives between heaths (R453) -/

/-- How a network collective reads its source; its destination's access is a write. -/
def xcollAccess (oc : OpenCmd) : XAcc := { unit := 8, agent := 6, va := wordAt oc.words 2, r := true }

theorem xcollBody_enters {x : NetGroup} {src dst : List (Nat × Nat × Nat)} {u v : State} {sizes : Nat × Nat}
    (hgroup : tget s.net.groups (wordBits oc.words 1 31 0) = some x) (hfields : xcollBad oc.words x = false)
    (hsizes : collSizes (wordAt oc.words 5) (wordAt oc.words 4) x.members.length x.own = sizes)
    (hsrc : readOrCode (some oc.epoch) (translateRange (xcollAccess oc) sizes.1 s) = (.runs src, u))
    (hdst : runsOrCode (some oc.epoch)
      (translateRange { xcollAccess oc with va := wordAt oc.words 3, r := false, w := true } sizes.2 u) = (.runs dst, v))
    (hclean : runsPoison src v = []) :
    xcollBody oc s = .runs (xcollEnter oc x src dst v) := by
  unfold xcollAccess at hsrc hdst
  simp only [xcollBody, hgroup, hfields, hsizes, hsrc, hdst, hclean, List.isEmpty_nil, Bool.not_true, Bool.false_eq_true, if_false]

end Sys2Proof.Machine

namespace Sys2Proof

open Sys2Proof.Machine

/-- An accepted network collective runs as the row of its operation. -/
theorem xcoll_runs {c : Cmd} {s u : State} {op : Nat} (h : Accepts 0x7D c s) (hop : clOp (wordAt c.words 5) = op)
    (hb : xcollBody (openOf c s) (startedAt c s) = .runs u) : served s (doXcoll op c s) = .next (left s u) :=
  row_runs h (by rw [hop, BEq.rfl, Bool.true_or]) hb

/-- An accepted post runs as the row of its kind. -/
theorem netPost_runs {c : Cmd} {s u : State} {kind : Nat} (h : Accepts 0x7A c s) (hkind : wordBits c.words 1 17 16 = kind)
    (hb : netPostBody (openOf c s) (startedAt c s) = .runs u) : served s (doNetPost kind c s) = .next (left s u) :=
  row_runs h (by rw [hkind, BEq.rfl, Bool.true_or]) hb

/-- Settles O26: each command is accepted and its checks pass, so it leaves what its body comes to. -/
theorem networkCommands : Obligations.NetworkCommands := by
  intro s c t oc
  refine ⟨?netConfig, ?qpConfig, ?read, ?write, ?send, ?fetchAsks, ?fetchChecks, ?groupOpens, ?groupWaits, ?coll⟩
  case netConfig =>
    intro mtu p h ⟨hsome, hfits⟩
    refine accepted_ends h (if_neg ?_)
    change ¬ (mtu == 0 || decide (9216 < mtu)) = true
    rw [beq_eq_false_iff_ne.mpr hsome, decide_eq_false (Nat.not_lt.mpr hfits)]
    exact Bool.false_ne_true
  case qpConfig =>
    intro w p q h haddressed
    refine accepted_ends h (if_neg ?_)
    change ¬ (w.testBit 16 && (ethPort t p).mtu == 0) = true
    rcases haddressed with hoff | hmtu
    · rw [hoff]
      exact Bool.false_ne_true
    · rw [beq_eq_false_iff_ne.mpr hmtu, Bool.and_false]
      exact Bool.false_ne_true
  case read =>
    intro p q len u post m h hkind hen hpath
    exact netPost_runs h hkind (netPostBody_reads (oc := oc) hen hpath hkind)
  case write =>
    intro p rs u q len on a d post m h hkind hen hpath hread hclean
    exact netPost_runs h hkind (netPostBody_sends (oc := oc) hen hpath hkind (.inl rfl) hread hclean)
  case send =>
    intro p rs u q len on a d post m h hkind hen hpath hread hclean
    exact netPost_runs h hkind (netPostBody_sends (oc := oc) hen hpath hkind (.inr rfl) hread hclean)
  case fetchAsks => exact fun h hsrc hidle => accepted_runs h (imageFetchBody_asks (oc := oc) hsrc hidle)
  case fetchChecks =>
    intro rs u len d r h hsrc hidle hread hclean
    have hb : imageFetchBody oc t = fetchOutcome r := imageFetchBody_checks hsrc hidle hread hclean
    clear_value r
    obtain ⟨_ | code, w⟩ := r
    · exact accepted_runs h hb
    · exact accepted_ends h hb
  case groupOpens =>
    intro rs u n d h hsize hfree hread hclean
    exact accepted_runs h (xgroupBody_opens (oc := oc) hsize hfree hread hclean)
  case groupWaits =>
    intro n h hsize hopening
    exact accepted_runs h (xgroupBody_waits (oc := oc) hsize hopening)
  case coll =>
    intro i x src dst u v w sizes a hrow h hgroup hfields hsrc hdst hclean
    have hb : xcollBody oc t = .runs (xcollEnter oc x src dst v) := xcollBody_enters hgroup hfields rfl hsrc hdst hclean
    simp only [List.mem_cons, List.not_mem_nil, or_false, Prod.mk.injEq] at hrow
    rcases hrow with ⟨hop, rfl⟩ | ⟨hop, rfl⟩ | ⟨hop, rfl⟩ | ⟨hop, rfl⟩ | ⟨hop, rfl⟩
    · exact xcoll_runs h hop hb
    · exact xcoll_runs h hop hb
    · exact xcoll_runs h hop hb
    · exact xcoll_runs h hop hb
    · exact xcoll_runs h hop hb

end Sys2Proof
end

section
/-! PROOFS. Events of the ordinary network: what each comes to under its conditions; then O32. -/
namespace Sys2Proof.Machine

variable {s : State}

/-! ## Messages of a queue pair (R442, R443) -/

/-- How a message of port `p` reaches job memory: an access of the port's I/O die at `va`. -/
def messageAccess (p va : Nat) (read write : Bool) : XAcc := { unit := unitOfEth p, agent := 6, va := va, r := read, w := write }

section
variable {p q : Nat} (hen : (qpGet s q).en = true)
include hen

theorem netMessage_write {va : VA} {len val : Nat} {rs : List (Nat × Nat × Nat)} {t : State}
    (hmap : translateRange (messageAccess p va.toNat false true) len s = (.runs rs, t)) :
    netMessage p q (.write va len val) s = netSend (.ack q) (ioPut (unitOfEth p) rs (val % 256 ^ len) false t) := by
  unfold messageAccess at hmap
  simp only [netMessage, hen, hmap, Bool.not_true, Bool.false_and, Bool.false_eq_true, if_false]

theorem netMessage_read {va : VA} {len : Nat} {rs : List (Nat × Nat × Nat)} {t : State}
    (hmap : translateRange (messageAccess p va.toNat true false) len s = (.runs rs, t))
    (hclean : (ioRead (unitOfEth p) rs t).2.1 = false) :
    netMessage p q (.read va len) s =
      netSend (.readData q len (ioRead (unitOfEth p) rs t).1) (ioRead (unitOfEth p) rs t).2.2 := by
  unfold messageAccess at hmap
  simp only [netMessage, hen, hmap, hclean, Bool.not_true, Bool.false_and, Bool.false_eq_true, if_false]

theorem netMessage_send {len val : Nat} : netMessage p q (.send len val) s = netSend (.ack q) s :=
  if_neg (by rw [hen]; exact Bool.false_ne_true)

theorem netMessage_ack : netMessage p q .ack s = postEnds q (fun x => x.kind != 0) (endDone 0 0) s :=
  if_neg (by rw [hen]; exact Bool.false_ne_true)

theorem netMessage_refused : netMessage p q .refused s = postEnds q (fun _ => true) (endFailed 0x0208 0) s :=
  if_neg (by rw [hen]; exact Bool.false_ne_true)

end

/-! ## The image's fetch (R447–R450) -/

section
variable {f : Fetch} (hfetch : s.net.fetch = some f)
include hfetch

section
variable {b : List Byte} {oc : OpenCmd} {t : State} (hasked : f.man = none)
  (hcmd : s.ob.openCmds.find? (fun o => o.id == f.cmd) = some oc)
include hasked hcmd

/-- The manifest that was asked for fails a check. -/
theorem manifestArrives_fails {code : Nat} (hgo : fetchGo (b.map (·.toNat)) oc { s with net.fetch := none } = (some code, t)) :
    manifestArrives b s = endById oc.id (endRefused code) t := by
  simp only [manifestArrives, hfetch, hasked, hcmd, hgo, Option.isSome_none, Bool.false_eq_true, if_false]

/-- The manifest that was asked for starts the fetch. -/
theorem manifestArrives_starts (hgo : fetchGo (b.map (·.toNat)) oc { s with net.fetch := none } = (none, t)) :
    manifestArrives b s = t := by
  simp only [manifestArrives, hfetch, hasked, hcmd, hgo, Option.isSome_none, Bool.false_eq_true, if_false]

end

section
variable {m : Manifest} (hman : f.man = some m)
include hman

section
variable {src : ChunkFrom} {i : Nat} {b : List Byte} (hfrom : chunkFrom src = f.parent) (hasked : f.asked.contains i = true)
include hfrom hasked

theorem chunkArrives_lands {rs : List (Nat × Nat × Nat)} {t : State} (hgood : chunkGood m i b = true)
    (hmap : runsOrCode (cmdEpoch s f.cmd) (translateRange (chunkAccess f m i) (chunkLen m i) s) = (.runs rs, t)) :
    chunkArrives src i b s = chunkLands f m i b rs t := by
  simp only [chunkArrives, hfetch, hman, hfrom, hasked, hgood, hmap, bne_self_eq_false, Bool.not_true, Bool.or_false,
    Bool.false_eq_true, if_false, if_true]

theorem chunkArrives_fails (hbad : chunkGood m i b = false) : chunkArrives src i b s = chunkFails f m i s := by
  simp only [chunkArrives, hfetch, hman, hfrom, hasked, hbad, bne_self_eq_false, Bool.not_true, Bool.or_false,
    Bool.false_eq_true, if_false]

end

/-- A chunk asked for by a child that is known. -/
theorem chunkRequest_served {node i : Nat} (hnode : node < m.nodes.length) (hchunk : i < m.hashes.length)
    (hkid : f.kids.any (fun k => k.node == node) = true) :
    chunkRequest node i s =
      if i < f.front then serveChunk node i f m s else fetchMod (fun g => { g with held := g.held ++ [(node, i)] }) s := by
  have hin : (decide (m.nodes.length ≤ node) || decide (m.hashes.length ≤ i)) = false := by
    rw [decide_eq_false (Nat.not_le.mpr hnode), decide_eq_false (Nat.not_le.mpr hchunk)]
    rfl
  simp only [chunkRequest, hfetch, hman, hin, hkid, Bool.true_or, Bool.false_eq_true, if_false, if_true]

theorem parentFails_alternate {p : Nat} (hparent : f.parent = some p)
    (halt : (m.nodes[wordBits f.words 1 27 16]?.map (·.alt)).getD 0xFFFF ≠ 0xFFFF)
    (hfresh : (f.failed ++ [p]).contains ((m.nodes[wordBits f.words 1 27 16]?.map (·.alt)).getD 0xFFFF) = false) :
    parentFails s =
      askChunks { raise flNetStatusReparent 0 (notice 0x0920 p 26 s) with
        net.fetch := some { f with failed := f.failed ++ [p], asked := [], again := [], limit := 0, reparents := f.reparents + 1,
                                   parent := some ((m.nodes[wordBits f.words 1 27 16]?.map (·.alt)).getD 0xFFFF) } } := by
  have hswitch : ((m.nodes[wordBits f.words 1 27 16]?.map (·.alt)).getD 0xFFFF != 0xFFFF &&
      !(f.failed ++ [p]).contains ((m.nodes[wordBits f.words 1 27 16]?.map (·.alt)).getD 0xFFFF)) = true := by
    rw [bne_iff_ne.mpr halt, hfresh]
    rfl
  simp only [parentFails, hfetch, hman, hparent, hswitch, if_true]

end

theorem prefixArrives_parent {node count : Nat} (hparent : f.parent = some node) :
    prefixArrives node count s = askChunks (fetchMod (fun g => { g with limit := max g.limit count }) s) := by
  simp only [prefixArrives, hfetch, hparent, if_true]

theorem prefixArrives_child {node count : Nat} (hchild : f.parent ≠ some node) :
    prefixArrives node count s = fetchCheck (fetchMod (fun g => { g with
      kids := g.kids.map (fun k => if k.node == node then { k with prog := max k.prog count } else k) }) s) := by
  simp only [prefixArrives, hfetch, hchild, if_false]

theorem sendPrefix_tells :
    sendPrefix s = (f.kids.filter (fun k => !k.gone)).foldl (fun t k => netSend (.progress k.node f.front) t) s := by
  simp only [sendPrefix, hfetch]

end

/-! ## Groups (R452, R453) -/

section
variable {g : Nat} {x : NetGroup} (hgroup : tget s.net.groups g = some x)
include hgroup

theorem helloArrives_opening {k low high : Nat} (hopening : x.cmd ≠ none) :
    helloArrives g k low high s =
      groupCheck g { s with net.groups := tput s.net.groups g { x with hellos := (k, low, high) :: x.hellos.filter (fun h => h.1 != k) } } := by
  simp only [helloArrives, hgroup, Option.isSome_iff_ne_none.mpr hopening, if_true]

theorem groupTimeout_fails {id : Nat} (hopening : x.cmd = some id) :
    groupTimeout g s = endById id (endFailed 0x0931 0) (raise flNetStatusXgroupFail 0 { s with net.groups := tdel s.net.groups g }) := by
  simp only [groupTimeout, hgroup, hopening]

theorem memberLost_fails {k : Nat} :
    memberLost g k s = (s.fab.colls.filter (fun c => c.xgroup == some g && !c.parts.any (fun p => p.rank == k))).foldl (fun t c =>
      collFails c 0x0932 (raise flNetStatusXgroupFail 0 (xcollLeaves c g x t))) s := by
  simp only [memberLost, hgroup]

end

end Sys2Proof.Machine

namespace Sys2Proof

open Sys2Proof.Machine

/-- An event at an Ethernet port of a die that takes steps. -/
theorem onEth_leaves {p : Nat} {f : State → State} {s u : State} (hr : DieRuns s (26 + p / 2)) (h : f s = u) :
    onEth p f s = .next (left s u) :=
  h ▸ onEth_up hr

/-- Settles O32: each event under its conditions. -/
theorem networkEvents : Obligations.NetworkEvents := by
  intro s
  refine ⟨?write, ?read, ?send, ?ack, ?refused, ?ecn, ?cnp, ?down, ?up, ?retry, ?manifest, ?lands, ?bad, ?request, ?parentPrefix,
    ?childPrefix, ?prefixTimer, ?parentFails, ?childSilent, ?hello, ?openTimeout, ?memberLost⟩
  case write =>
    intro p qp va len val rs t a ⟨hr, hen⟩ hmap
    exact onEth_leaves hr (netMessage_write hen hmap)
  case read =>
    intro p qp va len rs t a d ⟨hr, hen⟩ hmap hclean
    exact onEth_leaves hr (netMessage_read hen hmap hclean)
  case send => exact fun p qp len val ⟨hr, hen⟩ => onEth_leaves hr (netMessage_send hen)
  case ack => exact fun p qp ⟨hr, hen⟩ => onEth_leaves hr (netMessage_ack hen)
  case refused => exact fun p qp ⟨hr, hen⟩ => onEth_leaves hr (netMessage_refused hen)
  case ecn => exact fun qp hr hen => onFabric_leaves hr (if_pos hen)
  case cnp => exact fun qp hr hen => onFabric_leaves hr (if_pos hen)
  case down =>
    intro p t moved hr hon
    exact onEth_leaves hr (if_neg hon)
  case up => exact fun p hr => onEth_leaves hr (if_pos hr.2)
  case retry => exact fun qp hr => onFabric_leaves hr rfl
  case manifest =>
    intro bytes f oc r hr ⟨hfetch, hasked⟩ hcmd
    have hgo : fetchGo (bytes.map (·.toNat)) oc { s with net.fetch := none } = r := rfl
    clear_value r
    obtain ⟨_ | code, w⟩ := r
    · exact onFabric_leaves hr (manifestArrives_starts hfetch hasked hcmd hgo)
    · exact onFabric_leaves hr (manifestArrives_fails hfetch hasked hcmd hgo)
  case lands =>
    intro src chunk bytes f m rs t hr ⟨hfetch, hman⟩ ⟨hfrom, hasked⟩ hgood hmap
    exact onFabric_leaves hr (chunkArrives_lands hfetch hman hfrom hasked hgood hmap)
  case bad =>
    intro src chunk bytes f m hr ⟨hfetch, hman⟩ ⟨hfrom, hasked⟩ hbad
    exact onFabric_leaves hr (chunkArrives_fails hfetch hman hfrom hasked hbad)
  case request =>
    intro node chunk f m hr ⟨hfetch, hman⟩ ⟨hnode, hchunk⟩ hkid
    exact onFabric_leaves hr (chunkRequest_served hfetch hman hnode hchunk hkid)
  case parentPrefix => exact fun node count f hr hfetch hparent => onFabric_leaves hr (prefixArrives_parent hfetch hparent)
  case childPrefix =>
    intro node count f heard hr hfetch hchild
    exact onFabric_leaves hr (prefixArrives_child hfetch hchild)
  case prefixTimer => exact fun f hr hfetch => onFabric_leaves hr (sendPrefix_tells hfetch)
  case parentFails =>
    intro f m p alt t g hr ⟨hfetch, hman, hparent⟩ ⟨halt, hfresh⟩
    exact onFabric_leaves hr (parentFails_alternate hfetch hman hparent halt hfresh)
  case childSilent =>
    intro node gone hr
    exact onFabric_leaves hr rfl
  case hello =>
    intro group member low high x hellos hr hgroup hopening
    exact onFabric_leaves hr (helloArrives_opening hgroup hopening)
  case openTimeout => exact fun group x id hr hgroup hopening => onFabric_leaves hr (groupTimeout_fails hgroup hopening)
  case memberLost =>
    intro group member x hit hr hgroup
    exact onFabric_leaves hr (memberLost_fails hgroup)

end Sys2Proof
end

section
/-! PROOFS. Test access: what each instruction of a TAP and each pin comes to; then O34, O48 and O53. -/
namespace Sys2Proof.Machine

variable {s : State}

/-! ## Test access ports (R476, R477) -/

/-- A TAP can take an instruction: the module's and the Loam's always, a die's while it stands in the chain. -/
def tapThere (s : State) : TapId → Bool
  | .die d => dieInChain s d.val
  | _ => true

section
variable {tap : TapId} (hthere : tapThere s tap = true)
include hthere

theorem tapThere_not_absent : ¬ (!tapThere s tap) = true := by
  rw [hthere]
  exact Bool.false_ne_true

theorem tapInstr_idcode : tapInstr tap .idcode s = tapLoad 1 (idcodeOf tap) s := if_neg (tapThere_not_absent hthere)

theorem tapInstr_bypass : tapInstr tap .bypass s = tapLoad 0 0 s := if_neg (tapThere_not_absent hthere)

theorem tapInstr_extest_held (hheld : s.pins.testReset = true) : tapInstr tap .extest s = tapLoad 3 (freshVal s) (drawn s) :=
  (if_neg (tapThere_not_absent hthere)).trans (if_pos hheld)

theorem tapInstr_extest_refused (hfree : s.pins.testReset = false) :
    tapInstr tap .extest s =
      writeErr { level := lvPackage, unit := 28, reason := 0x0A31, cls := 0x04, verdict := vTransient } none (tapLoad 0 0 s) :=
  (if_neg (tapThere_not_absent hthere)).trans (if_neg (ne_true_of_eq_false hfree))

end

theorem tapInstr_select {d : Fin 28} (hunlocked : flagSet s ddStatusDebugLocked 0 = false) (hup : dieUp s d.val = true) :
    tapInstr (.die d) .select s = { s with tap.selected := setAdd s.tap.selected d.val, tap.idle := false } :=
  (if_neg (ne_true_of_eq_false hunlocked)).trans (if_pos hup)

theorem tapInstr_select_locked {d : Fin 28} (hlocked : flagSet s ddStatusDebugLocked 0 = true) :
    tapInstr (.die d) .select s = tapRefused s :=
  if_pos hlocked

/-- A TAP's instruction leaves its effect, whether or not the module has started. -/
theorem tapInstruction_leaves {tap : TapId} {op : TapOp} {t : State} (h : tapInstr tap op s = t) :
    exec (.tapInstruction tap op) s = .next (leftBare s t) :=
  h ▸ finish_eq s _

/-! ## The cap in force (R494) -/

theorem capNow_alone (h : getF s pwCtrlMgmtCapW 0 = 0) : capNow s = getF s pwCtrlCapW 0 := if_pos h

theorem capNow_managed (h : 0 < getF s pwCtrlMgmtCapW 0) :
    capNow s = min (getF s pwCtrlCapW 0) (max 1500 (getF s pwCtrlMgmtCapW 0)) :=
  if_neg (Nat.pos_iff_ne_zero.mp h)

theorem capSetBody_refuses {oc : OpenCmd} (h : wordBits oc.words 1 15 0 < 1500 ∨ 4200 < wordBits oc.words 1 15 0) :
    capSetBody oc s = .ends (endRefused 0x0601) s := by
  have hbad : (decide (wordBits oc.words 1 15 0 < 1500) || decide (4200 < wordBits oc.words 1 15 0)) = true := by
    simpa using h
  simp only [capSetBody, hbad]
  rfl

end Sys2Proof.Machine

namespace Sys2Proof

open Sys2Proof.Machine

/-- Settles O34: each instruction and each pin under its conditions. -/
theorem testAccess : Obligations.TestAccess := by
  intro s
  refine ⟨?idcode, ?bypass, ?extest, ?extestRefused, ?select, ?selectLocked, ?assert, ?release, ?insert, ?remove⟩
  case idcode => exact fun tap hthere => tapInstruction_leaves (tapInstr_idcode hthere)
  case bypass => exact fun tap hthere => tapInstruction_leaves (tapInstr_bypass hthere)
  case extest => exact fun tap hthere hheld => tapInstruction_leaves (tapInstr_extest_held hthere hheld)
  case extestRefused =>
    intro tap e hthere hfree
    exact tapInstruction_leaves (tapInstr_extest_refused hthere hfree)
  case select => exact fun d ⟨hunlocked, hup⟩ => tapInstruction_leaves (tapInstr_select hunlocked hup)
  case selectLocked => exact fun d hlocked => tapInstruction_leaves (tapInstr_select_locked hlocked)
  case assert =>
    intro t hfree
    exact onPin_leaves_of_eq (if_neg (ne_true_of_eq_false hfree))
  case release =>
    intro t hheld
    exact onPin_leaves_of_eq (if_neg (by rw [hheld]; exact Bool.false_ne_true))
  case insert => exact fun hout => onPin_leaves_of_eq (if_neg (by rw [hout]; exact Bool.false_ne_true))
  case remove => exact fun hin => onPin_leaves_of_eq (if_neg (by rw [hin]; exact Bool.false_ne_true))

/-- Settles O48: each of the TAP's codes has the fields of R476. -/
theorem idcodes : Obligations.Idcodes := by
  intro s tap
  refine ⟨?loads, ?fields⟩
  case loads =>
    intro code hthere
    cases tap with
    | module => exact tapInstruction_leaves (tapInstr_idcode hthere)
    | loam => exact tapInstruction_leaves (tapInstr_idcode hthere)
    | die d => exact tapInstruction_leaves (tapInstr_idcode hthere)
  case fields =>
    intro c
    cases tap with
    | module => decide
    | loam => decide
    | die d =>
      revert c d
      decide

/-- Settles O53: the check of CAP_SET, and the cap in force by cases of the management cap. -/
theorem capLimits : Obligations.CapLimits := by
  intro s
  refine ⟨?refused, capNow_alone, ?low, ?managed⟩
  case refused => exact fun c h hout => accepted_ends h (capSetBody_refuses hout)
  case low =>
    rintro ⟨hset, hlow⟩
    rw [capNow_managed hset, Nat.max_eq_left (Nat.le_of_lt hlow)]
  case managed =>
    intro hset
    rw [capNow_managed (by omega), Nat.max_eq_right hset]

end Sys2Proof
end

section
/-! PROOFS. Tests, remaps, starts and flash writes, and the security responder: what each event comes to under its conditions;
then O36 and O37. -/
namespace Sys2Proof.Machine

variable {s : State}

/-! ## Tests and remaps (R505, R508) -/

theorem targetedTest_verdict {level unit : Nat} {ok kat : Bool} {stuck : List (Bool × Nat)} {p : ErrRec}
    (hnext : nextTest s (handlerOf level unit) = some p) (hlevel : p.level = level) (hunit : p.unit = unit)
    (hidle : unitIdle s level unit = true) :
    targetedTest level unit ok stuck kat s = verdictEnds level unit s (verdictOf p ok stuck kat s) := by
  subst hlevel hunit
  simp only [targetedTest, hnext, hidle, bne_self_eq_false, Bool.not_true, Bool.or_false, Bool.false_eq_true, if_false]

theorem remapDone_ends {sw : Nat} {x : Nat × Nat × Nat × Nat} (hremap : s.err.remaps.find? (fun x => x.1 == sw) = some x)
    (hidle : (span (8 * sw) 8).all (fun t => (tuft s t).task.isNone) = true) : remapDone sw s = swardRemapped sw x s := by
  simp only [remapDone, hremap, hidle, Bool.not_true, Bool.false_eq_true, if_false]

/-! ## Starts and flash writes (R527, R544) -/

theorem doStart_runs {ty cause : Nat} {i : StartIn} (hdue : s.start.due = some (ty, cause)) (hready : startReady s = true) :
    doStart ty i s = runSteps ty i (startSteps ty i s) (startBegins ty cause i s) := by
  simp only [doStart, hdue, hready, bne_self_eq_false, Bool.not_true, Bool.or_false, Bool.false_eq_true, if_false]

/-- No write of flash is in progress. -/
def flashFree (s : State) : State := { s with sec.writing := none, start.waits := false }

theorem flashDone_config {cmd k v : Nat} (hwrites : s.sec.writing = some (.config cmd k v)) :
    flashDone true s = endById cmd (endDone 0 0) { flashFree s with start.cfg := tput (flashFree s).start.cfg k v } := by
  simp only [flashDone, hwrites, if_true]
  rfl

theorem flashDone_stage {cmd key h n : Nat} {ok : Bool} (hwrites : s.sec.writing = some (.stage (some cmd) key h n)) :
    let image : BankImage := { ok := ok, header := if ok then h else 0, bytes := if ok then n else 0 }
    let t := { flashFree s with sec.images := tput (flashFree s).sec.images key image }
    flashDone ok s = if ok then endById cmd (endDone (imgType h) (imgSvn h)) t else endById cmd (endFailed 0x0712 0) t := by
  simp only [flashDone, hwrites]
  rfl

/-! ## The security responder (R534, R535) -/

/-- A request that the responder hears leaves its answer. -/
theorem spdm_leaves {mctp : Bool} {go : State → State} {t : State} (h : SpdmHears mctp s) (hgo : go s = t) :
    happens s (spdmGo mctp go s) = .next (leftEvent s t) :=
  happens_leaves h.1 ((spdmGo_hears h).trans hgo)

theorem spdmCertificate_answers {slot off len : Nat} (hslot : slot ≤ 1) :
    let cert := Config.certificate slot
    let part := (cert.drop off).take len
    spdmCertificate slot off len s =
      if off < cert.length then spdm 0x02 [slot, part.length, cert.length - off - part.length, ofBytes part] s
      else spdm 0x7F [0x01] s := by
  intro cert part
  have hnoSlot : decide (1 < slot) = false := decide_eq_false (Nat.not_lt.mpr hslot)
  by_cases hin : off < cert.length
  · have hcovers : decide (cert.length ≤ off) = false := decide_eq_false (Nat.not_le.mpr hin)
    rw [if_pos hin]
    exact if_neg (by rw [hnoSlot, hcovers]; exact Bool.false_ne_true)
  · have hpast : decide (cert.length ≤ off) = true := decide_eq_true (Nat.not_lt.mp hin)
    rw [if_neg hin]
    exact if_pos (by rw [hpast, Bool.or_true])

theorem spdmChallenge_answers {slot nonce : Nat} (hslot : slot ≤ 1) :
    spdmChallenge slot nonce s = spdmSigned 0x03 [slot, certDigest slot, nonce, freshVal s % 2 ^ 256] (drawn s) :=
  if_neg (Nat.not_lt.mpr hslot)

section
variable {block nonce : Nat} (hblock : block ≠ 0 ∧ block ≤ 8)
include hblock

theorem spdmMeasurements_plain :
    spdmMeasurements block false nonce s = spdm 0x60 [block, s.sec.slots.getD (block - 1) 0] s :=
  (if_neg hblock.1).trans (if_pos hblock.2)

theorem spdmMeasurements_signed :
    spdmMeasurements block true nonce s = spdmSigned 0x60 [block, s.sec.slots.getD (block - 1) 0, nonce] s :=
  (if_neg hblock.1).trans (if_pos hblock.2)

end

theorem spdmVendor_signs {hash : Nat} (htranscript : s.sec.transcript = some hash) :
    spdmVendor 1 s = spdm 0x7E [Config.slhSign s.freeCtr hash] (drawn s) := by
  simp only [spdmVendor, htranscript]

end Sys2Proof.Machine

namespace Sys2Proof

open Sys2Proof.Machine

/-- Settles O36: each event under its conditions. -/
theorem errorsAndStarts : Obligations.ErrorsAndStarts := by
  intro s
  refine ⟨?tested, ?remapped, ?start, ?record, ?config, ?stage⟩
  case tested =>
    intro level unit ok stuck kat p hr hnext ⟨hlevel, hunit, hidle⟩
    exact onPackage_leaves hr (targetedTest_verdict hnext hlevel hunit hidle)
  case remapped => exact fun sw x hr hremap hidle => onSward_leaves hr (remapDone_ends hremap hidle)
  case start =>
    intro i go ty cause hrow hp hdue hready
    simp only [List.mem_cons, List.not_mem_nil, or_false, Prod.mk.injEq] at hrow
    rcases hrow with ⟨rfl, rfl⟩ | ⟨rfl, rfl⟩ | ⟨rfl, rfl⟩
    · exact happens_leaves hp (doStart_runs hdue hready)
    · exact happens_leaves hp (doStart_runs hdue hready)
    · exact happens_leaves hp (doStart_runs hdue hready)
  case record => exact fun hr => onPackage_leaves hr rfl
  case config =>
    intro cmd k v free hp hwrites
    exact happens_leaves hp (flashDone_config hwrites)
  case stage =>
    intro cmd key h n ok free t hp hwrites
    exact happens_leaves hp (flashDone_stage hwrites)

/-- Settles O37: the responder hears each request, so it leaves the request's answer. -/
theorem securityRequests : Obligations.SecurityRequests := by
  intro s mctp h
  refine ⟨spdm_leaves h rfl, spdm_leaves h rfl, spdm_leaves h rfl, spdm_leaves h rfl, ?certificate, ?challenge, ?plain, ?signed, ?vendor⟩
  case certificate =>
    intro slot off len cert part hslot
    exact spdm_leaves h (spdmCertificate_answers hslot)
  case challenge => exact fun slot nonce hslot => spdm_leaves h (spdmChallenge_answers hslot)
  case plain => exact fun block nonce hblock => spdm_leaves h (spdmMeasurements_plain hblock)
  case signed => exact fun block nonce hblock => spdm_leaves h (spdmMeasurements_signed hblock)
  case vendor =>
    intro command hash hcommand htranscript
    subst hcommand
    exact spdm_leaves h (spdmVendor_signs htranscript)

end Sys2Proof
end

section
/-! PROOFS. SELF_TEST of a port that faces a member of the partition is refused whether or not the port is fenced, so O27, whose clause for
ports asks for the fence alone, fails. -/
namespace Sys2Proof.Machine

/-- A port that faces a member of the partition is not tested (R437). -/
theorem selfTestBody_refuses_member {oc : OpenCmd} {s : State} {level unit : Nat} (hlevel : teLevel (wordAt oc.words 1) = level)
    (hunit : teUnit (wordAt oc.words 1) = unit) (hpackage : level = lvPackage) (hexists : unitExists level unit = true)
    (hserves : unitOut s level unit = false) (hport : 0x180 ≤ unit ∧ unit ≤ 0x18F) (hmember : portInPart s (unit - 0x180) = true) :
    selfTestBody oc s = refuseBody 0x0330 s := by
  subst hlevel hunit
  exact (if_neg (by rw [hexists, hserves]; exact Bool.false_ne_true)).trans (if_pos ⟨hpackage, hport.1, hport.2, hmember⟩)

/-! ## A module whose fenced port faces a member -/

/-- The module in a partition that holds the neighbour of port 4, that port fenced, as PORT_CTRL leaves it between a disable and
the end of training. -/
def fencedMember : State := obPart (setF tfPortStatusFenced 4 1 ob)

/-- SELF_TEST of port 4: package level, unit 0x184. -/
def portTest : Cmd := cmdOf 0x89 [0x1840003]

end Sys2Proof.Machine

namespace Sys2Proof

open Sys2Proof.Machine

/-- The module refuses the test. -/
theorem selfTest_fencedMember :
    exec (.selfTest portTest) fencedMember = .next (left fencedMember
      (endCmd (openOf portTest fencedMember) (endRefused 0x0330) (startedAt portTest fencedMember))) :=
  accepted_ends (body := selfTestBody) (by decide +kernel)
    (selfTestBody_refuses_member (level := lvPackage) (unit := 0x184) (by decide +kernel) (by decide +kernel) rfl (by decide +kernel)
      (by decide +kernel) (by decide) (by decide +kernel))

/-- Refutes O27: port 4 of `fencedMember` meets every premise of the clause of SELF_TEST for ports, which asks that the port be fenced and
not that it face no member of the partition; the command is refused with 0x0330 (R437), where the clause has a test begin. -/
theorem not_serviceCommands : ¬ Obligations.ServiceCommands := by
  intro h
  obtain ⟨_, _, _, _, _, _, hport, _⟩ := h fencedMember portTest
  have hclaimed := hport (by decide +kernel) (by decide +kernel) (by decide +kernel)
  have hstates := Host.Outcome.next.inj (selfTest_fencedMember.symm.trans hclaimed)
  have htests := congrArg (·.err.selfTests.length) hstates
  exact absurd htests (by decide +kernel)

end Sys2Proof
end

section
/-! PROOFS. Commands of start-up and security: what each body comes to where its checks pass; then O24. -/
namespace Sys2Proof.Machine

variable {oc : OpenCmd} {s : State}

/-! ## Starts (R538) -/

/-- The start that a request of the type makes due: type and cause. -/
def requestedStart (ty : Nat) : Nat × Nat := (ty, if ty = 0 then 1 else if ty = 1 then 2 else 9)

theorem startRequestBody_due {ty : Nat} (hty : wordBits oc.words 1 1 0 = ty) (hvalid : ty ≠ 3) (hnone : s.start.due = none) :
    startRequestBody oc s =
      .ends (endDone 0 0) { s with start.due := some (requestedStart ty), start.waits := s.sec.writing.isSome } := by
  subst hty
  exact (if_neg hvalid).trans (if_neg (by rw [hnone]; exact Bool.false_ne_true))

/-! ## Images (R524, R538) -/

/-- The code of the check of an image's bytes as read: poison, or the first check of R522 that fails. -/
def stagedCode (pa n : Nat) (s : State) : Nat :=
  if (cpReadPa pa n s).2.1 then 0x0706 else imageCode (cpReadPa pa n s).2.2 (cpReadPa pa n s).1 n

theorem imageStageBody_checks (hgorse : gorseUp s = true) (hfree : s.sec.writing = none)
    (hsize : imgHead ≤ wordAt oc.words 2 ∧ wordAt oc.words 2 ≤ imgMax)
    (hreach : cpReach (wordAt oc.words 1) (wordAt oc.words 2) = true)
    (hcode : (cpReadCode oc (wordAt oc.words 1) (wordAt oc.words 2) s).1 = 0) :
    imageStageBody oc s =
      if stagedCode (wordAt oc.words 1) (wordAt oc.words 2) s != 0 then
        refuseBody (stagedCode (wordAt oc.words 1) (wordAt oc.words 2) s)
          (raise flSbStatusVerifyFail 0 (cpReadPa (wordAt oc.words 1) (wordAt oc.words 2) s).2.2)
      else .runs (stageImage (some oc.id) (cpReadPa (wordAt oc.words 1) (wordAt oc.words 2) s).1 (wordAt oc.words 2)
        (cpReadPa (wordAt oc.words 1) (wordAt oc.words 2) s).2.2) := by
  have hfits : (decide (wordAt oc.words 2 < imgHead) || decide (imgMax < wordAt oc.words 2)) = false := by
    rw [decide_eq_false (Nat.not_lt.mpr hsize.1), decide_eq_false (Nat.not_lt.mpr hsize.2)]
    rfl
  simp only [imageStageBody, hgorse, hreach, hfits, hfree, hcode, Option.isSome_none, bne_self_eq_false, Bool.not_true,
    Bool.false_eq_true, if_false]
  rfl

theorem imageActivateBody_switches (hfree : s.sec.writing = none) (hstaged : stagingFailed s (wordBits oc.words 1 6 0) = false) :
    imageActivateBody oc s =
      .ends (endDone (activateBanks (wordBits oc.words 1 6 0) s).sec.active 0) (activateBanks (wordBits oc.words 1 6 0) s) :=
  (if_neg (by rw [hfree]; exact Bool.false_ne_true)).trans (if_neg (ne_true_of_eq_false hstaged))

theorem svnCommitBody_raises {v : Nat} (hv : wordBits oc.words 1 6 0 = v) (hgorse : gorseUp s = true)
    (hrecovery : v ≤ bankSvn s recoveryKey) (hbanks : ∀ i ∈ List.range 7, v ≤ bankSvn s (bankKey i (activeB s i))) :
    svnCommitBody oc s = .ends (endDone (max s.sec.svnMin v) 0) { s with sec.svnMin := max s.sec.svnMin v } := by
  subst hv
  have hany : (List.range 7).any (fun t => decide (bankSvn s (bankKey t (activeB s t)) < wordBits oc.words 1 6 0)) = false :=
    List.any_eq_false.mpr fun i hi => by simpa using hbanks i hi
  refine (if_neg (by rw [hgorse]; exact Bool.false_ne_true)).trans (if_neg ?_)
  rw [hany, decide_eq_false (Nat.not_lt.mpr hrecovery)]
  exact Bool.false_ne_true

/-! ## Measurement and debug (R533, R535, R536) -/

theorem measureReadBody_writes (hgorse : gorseUp s = true) (hreach : cpReach (wordAt oc.words 1) 384 = true)
    (hcode : cpWriteCode oc (wordAt oc.words 1) 384 s = 0) :
    measureReadBody oc s = .ends (endDone 0 0) (cpWritePa (wordAt oc.words 1) 384 (slotBytes s) s) :=
  (if_neg (by rw [hgorse]; exact Bool.false_ne_true)).trans ((if_neg (by rw [hreach]; exact Bool.false_ne_true)).trans
    (if_neg (by rw [hcode]; exact Bool.false_ne_true)))

/-- The signed report of ATTEST (Table SB-8). -/
def signedReport (ws : List W64) (s : State) : Nat :=
  let b := reportBody s (wordAt ws 2) (wordAt ws 3)
  packBits [(b, 0), (Config.rsaSign s.freeCtr b % 2 ^ 3072, 8 * 424), (Config.slhSign s.freeCtr b % 2 ^ (8 * 16224), 8 * 808)]

theorem attestBody_writes (hgorse : gorseUp s = true) (hreach : cpReach (wordAt oc.words 1) 17032 = true)
    (hcode : cpWriteCode oc (wordAt oc.words 1) 17032 s = 0) :
    attestBody oc s = .ends (endDone 0 0) (cpWritePa (wordAt oc.words 1) 17032 (signedReport oc.words s) (drawn s)) :=
  (if_neg (by rw [hgorse]; exact Bool.false_ne_true)).trans ((if_neg (by rw [hreach]; exact Bool.false_ne_true)).trans
    (if_neg (by rw [hcode]; exact Bool.false_ne_true)))

section
variable (hgorse : gorseUp s = true) (hjob : jobExists s = false)
include hgorse hjob

theorem nonceBody_draws :
    nonceBody oc s = .ends (endDone (bitsOf (freshVal s % 2 ^ 256) 63 0) (bitsOf (freshVal s % 2 ^ 256) 127 64))
      { drawn s with sec.nonce := some (freshVal s % 2 ^ 256) } :=
  (if_neg (by rw [hgorse]; exact Bool.false_ne_true)).trans (if_neg (ne_true_of_eq_false hjob))

/-- DEBUG_LOCKED is cleared by the token `v`, which is measured into slot 7; its nonce is spent. -/
def unlockedBy (v : Nat) (u : State) : State :=
  let slot := Config.extendSlot (u.sec.slots.getD 7 0) (sha384 (leBytes tokenBytes v))
  setF ddStatusDebugLocked 0 0 { u with sec.nonce := none, sec.slots := u.sec.slots.set 7 slot }

theorem unlockBody_takes {pa : Nat} {r : Nat × Bool × State} (hpa : wordAt oc.words 2 = pa) (hr : cpReadPa pa tokenBytes s = r)
    (hreach : cpReach pa tokenBytes = true) (hcode : (cpReadCode oc pa tokenBytes s).1 = 0) (hclean : r.2.1 = false) :
    unlockBody oc s =
      if tokenOk r.2.2 r.1 then .ends (endDone 0 0) (unlockedBy r.1 r.2.2) else refuseBody 0x0714 r.2.2 := by
  simp only [unlockBody, hpa, hr, hgorse, hjob, hreach, hcode, hclean, bne_self_eq_false, Bool.not_true, Bool.false_or,
    Bool.false_eq_true, if_false]
  by_cases htoken : tokenOk r.2.2 r.1 = true
  · rw [if_pos htoken]
    exact if_neg (by rw [htoken]; exact Bool.false_ne_true)
  · rw [if_neg htoken]
    exact if_pos (by rw [eq_false_of_ne_true htoken]; rfl)

end

end Sys2Proof.Machine

namespace Sys2Proof

open Sys2Proof.Machine

/-- An accepted IMAGE_STAGE leaves the refusal of the check's code, or the write of the image. -/
theorem imageStage_leaves {c : Cmd} {s u v : State} {code : Nat} (h : Accepts 0x61 c s)
    (hb : imageStageBody (openOf c s) (startedAt c s) = if code != 0 then refuseBody code u else .runs v) :
    exec (.imageStage c) s = .next (left s (if code ≠ 0 then endCmd (openOf c s) (endRefused code) u else v)) := by
  by_cases hcode : code = 0
  · rw [if_neg (fun hne => hne hcode)]
    exact accepted_runs h (hb.trans (if_neg (by rw [hcode]; exact Bool.false_ne_true)))
  · rw [if_pos hcode]
    exact accepted_ends h (hb.trans (if_pos (bne_iff_ne.mpr hcode)))

/-- Settles O24: each command is accepted and its checks pass, so it leaves what its body comes to. -/
theorem startAndSecurityCommands : Obligations.StartAndSecurityCommands := by
  intro s c t oc
  refine ⟨?cold, ?warm, ?recovery, ?stage, ?activate, ?svn, ?measure, ?attest, ?nonce, ?submit⟩
  case cold =>
    intro u h hty hnone
    exact row_ends h (by rw [hty]; rfl) (startRequestBody_due (oc := oc) hty (by decide) hnone)
  case warm =>
    intro u h hty hnone
    exact row_ends h (by rw [hty]; rfl) (startRequestBody_due (oc := oc) hty (by decide) hnone)
  case recovery =>
    intro u h hty hnone
    exact row_ends h (by rw [hty]; rfl) (startRequestBody_due (oc := oc) hty (by decide) hnone)
  case stage =>
    intro pa n r code h ⟨hgorse, hfree⟩ ⟨hlow, hhigh, hreach⟩ hread
    exact imageStage_leaves h (imageStageBody_checks (oc := oc) hgorse hfree ⟨hlow, hhigh⟩ hreach hread)
  case activate =>
    intro mask u h ⟨hfree, hstaged⟩
    exact accepted_ends h (imageActivateBody_switches (oc := oc) hfree hstaged)
  case svn =>
    intro v u h ⟨hgorse, hrecovery⟩ hbanks
    exact accepted_ends h (svnCommitBody_raises (oc := oc) rfl hgorse hrecovery hbanks)
  case measure =>
    intro pa h ⟨hgorse, hreach, hcode⟩
    exact accepted_ends h (measureReadBody_writes (oc := oc) hgorse hreach hcode)
  case attest =>
    intro pa b v h ⟨hgorse, hreach, hcode⟩
    exact accepted_ends h (attestBody_writes (oc := oc) hgorse hreach hcode)
  case nonce =>
    intro n h hkind ⟨hgorse, hjob⟩
    exact row_ends h (beq_iff_eq.mpr hkind) (nonceBody_draws (oc := oc) hgorse hjob)
  case submit =>
    intro pa r u slot open_ h hkind ⟨hgorse, hjob, hreach⟩ hread hclean
    have hb := unlockBody_takes (oc := oc) (pa := pa) (r := r) hgorse hjob rfl rfl hreach hread hclean
    clear_value r
    by_cases htoken : tokenOk u r.1 = true
    · rw [if_pos htoken] at hb ⊢
      exact row_ends h (beq_iff_eq.mpr hkind) hb
    · rw [if_neg htoken] at hb ⊢
      exact row_ends h (beq_iff_eq.mpr hkind) hb

end Sys2Proof
end

section
/-! PROOFS. Management and the front panel: what each request, and each event at the panel, comes to; then O38. -/
namespace Sys2Proof.Machine

variable {s : State}

/-! ## MCTP and PLDM (R541, R542) -/

section
variable (hup : mgmtUp s = true)
include hup

theorem mgmtUp_not_absent : ¬ (!mgmtUp s) = true := by
  rw [hup]
  exact Bool.false_ne_true

theorem mctpControl_types : mctpControl 5 s = mgSend (.answer 0 5 (2 ^ 0 + 2 ^ 1 + 2 ^ 5)) s :=
  (if_neg (mgmtUp_not_absent hup)).trans (if_pos rfl)

theorem pldmBase_types : pldmBase 4 s = mgSend (.answer 1 4 (2 ^ 0 + 2 ^ 2 + 2 ^ 5)) s :=
  (if_neg (mgmtUp_not_absent hup)).trans (if_pos rfl)

theorem pldmSensor_die {id : Nat} (hlow : 3 ≤ id) (hhigh : id ≤ 31) :
    pldmSensor id s = mgSend (.answer 2 0x11 (getF s dieTempTemp (id - 3))) s := by
  have hinput : id ≠ 1 := by omega
  have hrails : id ≠ 2 := by omega
  exact (if_neg (mgmtUp_not_absent hup)).trans ((if_neg hinput).trans ((if_neg hrails).trans (if_pos ⟨hlow, hhigh⟩)))

theorem pldmSensor_input : pldmSensor 1 s = mgSend (.answer 2 0x11 (getF s pwStatusInputW 0)) s :=
  (if_neg (mgmtUp_not_absent hup)).trans (if_pos rfl)

theorem pldmSensor_panel : pldmSensor 32 s = mgSend (.answer 2 0x21 (getF s mgStatusPanel 0)) s :=
  (if_neg (mgmtUp_not_absent hup)).trans rfl

theorem pldmCap_sets {w : Nat} : pldmCap w s = mgSend (.answer 2 0x31 w) (setF pwCtrlMgmtCapW 0 w s) := if_pos hup

theorem pldmLocate_sets {on : Bool} : pldmLocate on s = mgSend (.answer 2 0x39 (bit on)) (setF mgCtrlLocate 0 (bit on) s) :=
  if_pos hup

theorem pldmRemoval_asks : pldmRemoval s = mgSend (.answer 2 0x39 1) (removalRequest s) := if_pos hup

theorem pldmStart_due {ty : Nat} (hpanel : getF s mgStatusPanel 0 ≠ 2) (hnone : s.start.due = none) :
    pldmStart ty s = mgSend (.answer 2 0x39 ty)
      { s with start.due := some (ty, 8), start.waits := s.sec.writing.isSome, start.halted := false } :=
  (if_neg (mgmtUp_not_absent hup)).trans ((if_neg hpanel).trans (if_neg (by rw [hnone]; exact Bool.false_ne_true)))

/-- The code of the check of a component's image in an update. -/
def updateCode (comp : Nat) (bytes : List Nat) (s : State) : Nat :=
  if comp = 7 || imgType (ofBytes bytes) != comp then 0x0706 else imageCode s (ofBytes bytes) bytes.length

theorem pldmUpdate_checks {comp : Nat} {bytes : List Nat} (hgorse : gorseUp s = true) (hfree : s.sec.writing = none) :
    pldmUpdate comp bytes s =
      if updateCode comp bytes s != 0 then mgSend (.reject 5 comp (updateCode comp bytes s)) (raise flSbStatusVerifyFail 0 s)
      else stageImage none (ofBytes bytes) bytes.length s :=
  (if_neg (mgmtUp_not_absent hup)).trans ((if_neg (by rw [hgorse]; exact Bool.false_ne_true)).trans
    (if_neg (by rw [hfree]; exact Bool.false_ne_true)))

theorem pldmActivate_switches {mask : Nat} (hfree : s.sec.writing = none) (hstaged : stagingFailed s mask = false) :
    pldmActivate mask s = mgSend (.answer 5 0x1A (activateBanks mask s).sec.active) (activateBanks mask s) :=
  (if_neg (mgmtUp_not_absent hup)).trans ((if_neg (by rw [hfree]; exact Bool.false_ne_true)).trans
    (if_neg (ne_true_of_eq_false hstaged)))

/-! ## The attention button (R543) -/

theorem buttonShort_asks : buttonShort s = removalRequest { s with pins.buttonHeld := false } := if_pos hup

theorem buttonHold_forces (hpanel : getF s mgStatusPanel 0 < 2) :
    buttonHold s =
      quiesceBegins (raise flMgStatusButton 0 { s with pins.buttonHeld := false, mg.quiesce := none, mg.forced := true }) := by
  refine if_neg ?_
  change ¬ (!mgmtUp s || decide (2 ≤ getF s mgStatusPanel 0)) = true
  rw [hup, decide_eq_false (Nat.not_le.mpr hpanel)]
  exact Bool.false_ne_true

end

theorem removalRequest_shows (hpanel : getF s mgStatusPanel 0 = 0) (hruns : s.start.halted = false)
    (hbutton : flagSet s mgCtrlButtonEn 0 = true) :
    removalRequest s = deliverEvent 5 (raise flMgStatusButton 0 (setPanel 1 s)) :=
  if_neg (by rw [hpanel, hruns, hbutton]; exact Bool.false_ne_true)

/-! ## Quiescing, the latch and presence (R544, R546, R565) -/

theorem quiesceLinkDown_safe (hpanel : getF s mgStatusPanel 0 = 2) (hdown : s.mg.linkDown = true) (hstart : s.mg.start = none) :
    quiesceLinkDown s =
      let u := setPanel 3 (tripSteps { s with mg.linkDown := false, mg.start := none })
      { u with start.due := none, start.running := false } := by
  have hquiescing : (getF s mgStatusPanel 0 != 2 || !s.mg.linkDown) = false := by rw [hpanel, hdown]; rfl
  unfold quiesceLinkDown
  rw [hquiescing, if_neg Bool.false_ne_true, hstart]

theorem latchOpens_early (hclosed : s.pins.latchOpen = false) (hinput : s.elec.input = true) (hpanel : getF s mgStatusPanel 0 ≠ 3) :
    latchOpens s = removedEarly 0 { s with pins.latchOpen := true } :=
  if_neg (by rw [hclosed, hinput, decide_eq_false hpanel]; exact Bool.false_ne_true)

theorem latchOpens_safe (hpanel : getF s mgStatusPanel 0 = 3) : latchOpens s = { s with pins.latchOpen := true } :=
  if_pos (by rw [decide_eq_true hpanel, Bool.or_true])

theorem latchCloses_early (hopen : s.pins.latchOpen = true) (hearly : s.mg.early = true) (hinput : s.elec.input = true) :
    latchCloses s = { s with pins.latchOpen := false, mg.early := false, start.due := some (1, 8), start.errorEnd := true } :=
  if_pos (by rw [hopen, hearly, hinput]; rfl)

theorem presentBreaks_cuts (hpresent : s.pins.present = true) (hinput : s.elec.input = true) :
    presentBreaks s = powerLost (if s.pins.latchOpen = true ∨ getF s mgStatusPanel 0 = 3 then { s with pins.present := false }
      else removedEarly 1 { s with pins.present := false }) := by
  refine (if_neg (by rw [hpresent, hinput]; exact Bool.false_ne_true)).trans ?_
  by_cases hsafe : s.pins.latchOpen = true ∨ getF s mgStatusPanel 0 = 3
  · rw [if_pos hsafe]
    exact if_pos (by simpa using hsafe)
  · rw [if_neg hsafe]
    exact if_neg (by simpa using hsafe)

end Sys2Proof.Machine

namespace Sys2Proof

open Sys2Proof.Machine

/-- Settles O38: each request that is heard leaves its answer, and each event at the panel its effect. -/
theorem management : Obligations.Management := by
  intro s
  refine ⟨?control, ?base, ?sensorDie, ?sensorInput, ?sensorPanel, ?cap, ?locate, ?removal, ?start, ?update, ?activate, ?press, ?short,
    ?hold, ?lapse, ?linkDown, ?latchEarly, ?latchSafe, ?latchClose, ?present⟩
  case control => exact fun ⟨hp, hup⟩ => happens_leaves hp (mctpControl_types hup)
  case base => exact fun ⟨hp, hup⟩ => happens_leaves hp (pldmBase_types hup)
  case sensorDie => exact fun id ⟨hp, hup⟩ ⟨hlow, hhigh⟩ => happens_leaves hp (pldmSensor_die hup hlow hhigh)
  case sensorInput => exact fun ⟨hp, hup⟩ => happens_leaves hp (pldmSensor_input hup)
  case sensorPanel => exact fun ⟨hp, hup⟩ => happens_leaves hp (pldmSensor_panel hup)
  case cap => exact fun watts ⟨hp, hup⟩ => happens_leaves hp (pldmCap_sets hup)
  case locate => exact fun on ⟨hp, hup⟩ => happens_leaves hp (pldmLocate_sets hup)
  case removal =>
    intro ⟨hp, hup⟩ ⟨hpanel, hruns, hbutton⟩
    exact happens_leaves hp ((pldmRemoval_asks hup).trans (congrArg _ (removalRequest_shows hpanel hruns hbutton)))
  case start =>
    intro ty t ⟨hp, hup⟩ ⟨hpanel, hnone⟩
    exact happens_leaves hp (pldmStart_due hup hpanel hnone)
  case update =>
    intro comp bytes b v code ⟨hp, hup⟩ ⟨hgorse, hfree⟩
    have hchecks := pldmUpdate_checks (comp := comp.val) (bytes := b) hup hgorse hfree
    by_cases hcode : code = 0
    · rw [if_neg (fun hne => hne hcode)]
      exact happens_leaves hp (hchecks.trans (if_neg (fun h => bne_iff_ne.mp h hcode)))
    · rw [if_pos hcode]
      exact happens_leaves hp (hchecks.trans (if_pos (bne_iff_ne.mpr hcode)))
  case activate =>
    intro mask t ⟨hp, hup⟩ ⟨hfree, hstaged⟩
    exact happens_leaves hp (pldmActivate_switches hup hfree hstaged)
  case press => exact onPin_leaves_of_eq rfl
  case short =>
    intro t hup
    exact onPin_leaves_of_eq (buttonShort_asks hup)
  case hold =>
    intro t hup hpanel
    exact onPin_leaves_of_eq (buttonHold_forces hup hpanel)
  case lapse => exact fun hp hpanel => happens_leaves hp (if_pos hpanel)
  case linkDown => exact fun hp ⟨hpanel, hdown, hstart⟩ => happens_leaves hp (quiesceLinkDown_safe hpanel hdown hstart)
  case latchEarly =>
    intro t ⟨hclosed, hinput⟩ hpanel
    exact onPin_leaves_of_eq (latchOpens_early hclosed hinput hpanel)
  case latchSafe => exact fun hpanel => onPin_leaves_of_eq (latchOpens_safe hpanel)
  case latchClose =>
    intro t ⟨hopen, hearly, hinput⟩
    exact onPin_leaves_of_eq (latchCloses_early hopen hearly hinput)
  case present =>
    intro t ⟨hpresent, hinput⟩
    exact onPin_leaves_of_eq (presentBreaks_cuts hpresent hinput)

end Sys2Proof
end
